-- ==== Sys2Proof/Word.lean ====
section
/-! DEFINITION. Word types of the SH16 and the numbers that name its islands, contexts, channels and registers. -/

namespace Sys2Proof

/-- A 32-bit register or memory word. -/
abbrev Word := BitVec 32

/-- A byte of memory or a HART character. -/
abbrev Byte := BitVec 8

/-- A 64-bit tick count (R25). -/
abbrev Tick := BitVec 64

/-- An island, 0-15 (R2). -/
abbrev IslandNo := Fin 16

/-- A Facet context, and the thread that runs in it, 0-7 (R208). -/
abbrev CtxNo := Fin 8

/-- A DMA channel, 0-15 (R250). -/
abbrev ChNo := Fin 16

/-- A general register g0-g15 of a Facet context (R233). -/
abbrev RegNo := Fin 16

end Sys2Proof
end

