-- ==== Sys2Proof/Config.lean ====
section
/-! DEFINITION. What a member of the family fixes (R2), and the values the spec leaves open (free values). -/

namespace Sys2Proof

/-- The four members of the family (R1, R2). -/
inductive Member where
  | sh02 | sh04 | sh08 | sh16
  deriving DecidableEq, Repr

namespace Member

/-- Islands 0 to N - 1 exist on the member (R2, R3). -/
def islands : Member → Nat
  | .sh02 => 2 | .sh04 => 4 | .sh08 => 8 | .sh16 => 16

/-- HOST.ID.MEMBER: the island count in BCD (R6). -/
def code : Member → Byte
  | .sh02 => 0x02 | .sh04 => 0x04 | .sh08 => 0x08 | .sh16 => 0x16

/-- SRAM size in bytes (R2). -/
def sramBytes : Member → Nat
  | .sh02 => 0x8_0000 | .sh04 => 0x10_0000 | .sh08 => 0x20_0000 | .sh16 => 0x40_0000

/-- Thread slice size in bytes (R2). -/
def sliceBytes : Member → Nat
  | .sh02 => 0x8000 | .sh04 => 0x1_0000 | .sh08 => 0x2_0000 | .sh16 => 0x4_0000

/-- NVM size in bytes (R2). -/
def nvmBytes : Member → Nat
  | .sh02 => 0x8_0000 | .sh04 => 0x10_0000 | .sh08 => 0x20_0000 | .sh16 => 0x20_0000

/-- A length or offset of the 2 MiB NVM layout, scaled to the member (R4). -/
def nvmAt (m : Member) (o : Nat) : Nat := o * m.nvmBytes / 0x20_0000

/-- Grains of the power ledger (R2, R49). -/
def ledgerGrains : Member → Nat
  | .sh02 => 90 | .sh04 => 170 | .sh08 => 320 | .sh16 => 600

/-- Grains of the host reserve (R2, R48). -/
def reserveGrains : Member → Nat
  | .sh02 => 5 | .sh04 => 10 | .sh08 => 20 | .sh16 => 40

/-- Grains the arbiter may give to rungs: the ledger less the host reserve (R49). -/
def admissible (m : Member) : Nat := m.ledgerGrains - m.reserveGrains

/-- First byte of the shared area: 0x2000_0000 + SRAM / 2 (R2). -/
def sharedBase (m : Member) : Nat := 0x2000_0000 + m.sramBytes / 2

/-- First byte after SRAM. -/
def sramEnd (m : Member) : Nat := 0x2000_0000 + m.sramBytes

end Member

namespace Config

/-- Free value: byte o of the boot ROM. The spec gives no ROM content (log entry 8). -/
opaque bootRomByte : Nat → Byte

/-- Free value, applied to State.free: what CUR, REMAIN and WORDS of a channel hold after a disable (R258, log entry 6). -/
opaque dmaUndefined : Nat → Word

/-- Free value, applied to State.free and the byte offset: content of an NVM target whose program or erase was cut
(R310, R313, log entry 6). -/
opaque nvmTorn : Nat → Nat → Byte

/-- Free value: the number of a kind that the spec only names, by its place in the list STILL, RECLAIM (R301, R310, log entry
6). -/
opaque abortKind : Nat → Byte

/-- Free value, applied to State.free: a result the spec does not state for these operands (log entry 6). -/
opaque unstated : Nat → Word

/-- Free value: DATA of a Mica cell whose layout the spec does not give, by direction, TAG, kind and content (R35, log entry 51). -/
opaque cellData : Bool → Nat → Nat → Nat → Word

end Config

end Sys2Proof
end

