-- ==== Sys2Proof/Syntax.lean ====
section
/-! DEFINITION. The commands of the SH16: one constructor per row of spec/opcode_table.json, with the operands the row's
rule gives the event (log entry 3). -/

namespace Sys2Proof

/-- Who makes an access or an entry (R289). -/
inductive Master where
  | link
  | thread (t : CtxNo)
  | dma (c : ChNo)
  | island (n : IslandNo)
  | nvm | slate | tandem | collector | flint | guard | safeN | ledger | thermal
  deriving DecidableEq, Repr

/-- The two directions of an island's data coupler (R32). -/
inductive Dir where
  | down | up
  deriving DecidableEq, Repr

/-- A personality rung, a HART rung and a characteristic rung (R53). -/
structure Rungs where
  rung : Fin 4
  hart : Fin 3
  char : Fin 2
  deriving DecidableEq, Repr

/-- Where the terminal of an input stands when its stage starts: beyond a threshold, or in the hysteresis band (R134).
above means active before CFG.INV is applied. -/
inductive TermLevel where
  | above | below | band
  deriving DecidableEq, Repr

/-- What a STATUS cell reports (R35): a fault of the island with its kind (R288), a diagnostic
that has no fault source (R156), the answer to an ECHO cell (R401), or the
code of a service-hold measurement (R404). -/
inductive StatusMsg where
  | fault (src kind : Byte) (detail : Word)
  | diag
  | echo (data : Word)
  | measured (code : BitVec 18)
  | cvOk (ok : Bool)
  deriving DecidableEq, Repr

/-- What one DO verification check sees: current below I_OL, current above I_OFF, TA above 4.0 V (R152, R153). -/
structure LoadCheck where
  belowOl : Bool
  aboveOff : Bool
  taHigh : Bool
  deriving DecidableEq, Repr

/-- A supervisor of an island whose limiter or driver has been past its bound for 128 itk (R163, R169). lasts: whether the
condition still holds on the tick of the row (R188; log entry 58). -/
structure Supervision where
  n : IslandNo
  lasts : Bool
  deriving DecidableEq, Repr

/-- How a conversion is over range: the converter is beyond full scale, or the input limiter of AI_I conducts at the sample
(R162). -/
structure OverRange where
  scale : Bool
  limiter : Bool
  deriving DecidableEq, Repr

/-- The two Flint channels (R277). -/
inductive FlintChan where
  | host | core
  deriving DecidableEq, Repr

/-- The two image banks (R305). -/
inductive Bank where
  | bankA | bankB
  deriving DecidableEq, Repr

/-- The levels of the lands that the K4 release edge samples (R351, R270). safeLow: SAFE_N has been low for 0.5 us. -/
structure ReleaseLands where
  lmode : Bool
  almh0 : Bool
  almh1 : Bool
  safeLow : Bool
  deriving DecidableEq, Repr

/-- The commands of the SH16, those with operands first. A docstring gives the row's mnemonic and rule. -/
inductive Instr where
  /-- TICK_LO_READ (R25): A read of TICK_LO returns ticks [31:0] and copies ticks [63:32] into the TICK_HI snapshot. -/
  | tickLoRead (m : Master)
  /-- REGISTER_WRITE (R10): A write to a register with no behaviour of its own sets its writable fields, clamped under the Clamp column. -/
  | registerWrite (m : Master) (addr : Word) (val : Word)
  /-- OUTWORD (R38): An OUTWORD cell lands in an island and sets its output word unless FORCE is set or the island is not RUNNING. -/
  | outword (n : IslandNo) (w : Word)
  /-- RADDR (R38): A RADDR cell lands in an island, which reads the register or SRAM word and returns it in an RDATA cell. -/
  | raddr (n : IslandNo) (a : Word)
  /-- WADDR (R35): A WADDR cell lands in an island and sets the write address for the following WDATA cells. -/
  | waddr (n : IslandNo) (a : Word)
  /-- WDATA (R35): A WDATA cell lands and writes its word at the current island address, which then auto-increments by 4. -/
  | wdata (n : IslandNo) (w : Word)
  /-- RUNG (R56): A RUNG cell lands and the island switches its stages to the admitted rung within 512 tk. -/
  | rung (n : IslandNo) (r : Rungs)
  /-- RUNG_SWITCH_DONE (R56): The island finishes switching its stages and sends RUNG_ACT. -/
  | rungSwitchDone (n : IslandNo)
  /-- RUNG_ACT (R56): RUNG_ACT arrives at the host side, PENDING clears and the grains of a fall are released. -/
  | rungAct (n : IslandNo)
  /-- CMD_PREP (R118): A CMD PREP cell lands and the island de-energises every field stage ahead of a personality change. -/
  | cmdPrep (n : IslandNo)
  /-- CMD_APPLY (R118): A CMD APPLY cell lands and the island takes every shadowed record value at once on that itk. -/
  | cmdApply (n : IslandNo)
  /-- CMD_SHADOW (R335): A CMD SHADOW cell lands and the island enters its shadow stage. -/
  | cmdShadow (n : IslandNo)
  /-- CMD_UNSHADOW (R335): A CMD UNSHADOW cell lands and the island leaves its shadow stage. -/
  | cmdUnshadow (n : IslandNo)
  /-- CMD_ECHO (R401): A CMD ECHO cell lands and the island returns its data with the halves exchanged in a STATUS cell. -/
  | cmdEcho (n : IslandNo) (w : Word)
  /-- CHANNEL_FAULT_CELL (R290): A channel-fault demand cell lands and the channel takes its programmed safe state. -/
  | channelFaultCell (n : IslandNo)
  /-- CLEAR_CELL (R302): A channel-fault clear cell lands and the Channel fault on the island ends. -/
  | clearCell (n : IslandNo)
  /-- OUTPUT_COMMAND (R146): An output command CMD cell lands, setting OUT from bit 31 and, for DO_PWM, DUTY. -/
  | outputCommand (n : IslandNo) (m : Master) (w : Word)
  /-- HART_DOWN (R186): A downstream HART cell lands and its byte enters the island's 2-byte transmit queue, or is discarded with TXOVR. -/
  | hartDown (n : IslandNo) (b : Byte) (last : Bool)
  /-- SYNC (R40): A SYNC cell is accepted whatever its SEQ, acknowledged, and resets the expected sequence number. -/
  | sync (n : IslandNo) (d : Dir) (seq : BitVec 2)
  /-- RDATA (R38): An RDATA cell returns read data to the host side for the requester. -/
  | rdata (n : IslandNo) (w : Word)
  /-- RESULT_CELL (R204): A RESULT cell arrives and the host side writes the image word or places it in the island's result stream. -/
  | resultCell (n : IslandNo) (w : Word)
  /-- STATUS_CELL (R288): A STATUS cell arrives carrying an island diagnostic, fault report or test result. -/
  | statusCell (n : IslandNo) (msg : StatusMsg)
  /-- HART_UP (R186): An upstream HART cell arrives and its byte enters the 16-byte host-side receive queue, or is lost with RXOVR. -/
  | hartUp (n : IslandNo) (b : Byte) (start perr : Bool)
  /-- FATAL (R42): A FATAL cell arrives and the island is declared lost. -/
  | fatal (n : IslandNo)
  /-- CELL_RETRANSMIT (R39): A missing, corrupted or negative acknowledgement makes the sender resend the failed cell and all later cells. -/
  | cellRetransmit (n : IslandNo) (d : Dir)
  /-- SYMBOL_TIMEOUT (R42): Eight consecutive itk pass without a valid upstream symbol from a RUNNING island. -/
  | symbolTimeout (n : IslandNo)
  /-- COUPLER_FAULT (R42): The power-coupler monitor reports an open or shorted secondary on a CHARGING or RUNNING island. -/
  | couplerFault (n : IslandNo)
  /-- FIRST_SYMBOL_TIMEOUT (R42): A CHARGING island sends no valid symbol within 2048 tk after its reservoir reaches V_CV_OK. -/
  | firstSymbolTimeout (n : IslandNo)
  /-- GRAIN_RELEASE (R415): 512 tk after a kill or loss, the island's admitted grains and any reserve grant return to the ledger. -/
  | grainRelease (n : IslandNo)
  /-- KILL_MARK_DETECT (R45): An island's safe-state controller detects a KILL mark, de-energises every output and bleeds the reservoir. -/
  | killMarkDetect (n : IslandNo)
  /-- SAFE_MARK_DETECT (R45): An island's safe-state controller detects a SAFE mark and enters its programmed safe state without a clock. -/
  | safeMarkDetect (n : IslandNo)
  /-- CARRIER_LOSS (R46): The power coupler stops without a KILL mark and the island enters its programmed safe state on reservoir energy. -/
  | carrierLoss (n : IslandNo)
  /-- CV_BELOW_6V (R46): V_CV falls below 6.0 V and the island falls to Bedrock with its passive discharge path connected. -/
  | cvBelow6v (n : IslandNo)
  /-- RESERVOIR_OK (R48): V_CV rises through V_CV_OK and the island's requested rungs are admitted incrementally. -/
  | reservoirOk (n : IslandNo)
  /-- CHARGE_COMPLETE (R48): V_CV rises through 14.25 V, the reserve grant returns and the next waiting island starts charging. -/
  | chargeComplete (n : IslandNo)
  /-- FIRST_SYMBOL (R362): The first valid symbol after V_CV_OK arrives and the island enters RUNNING. -/
  | firstSymbol (n : IslandNo) (lvl : TermLevel)
  /-- LEDGER_WRITE (R54): A write to ISL[n].LEDGER updates the request and starts an incremental admission of that island. -/
  | ledgerWrite (m : Master) (n : IslandNo) (w : Word)
  /-- READMIT (R54): A write of 1 to LEDGER_CTRL.READMIT re-tries every island admitted below its request in full-pass order. -/
  | readmit (m : Master)
  /-- POWER_WINDOW_END (R58): A 4096-itk power-monitor window ends and the delivered power is judged against the admitted grains. -/
  | powerWindowEnd (n : IslandNo) (gr100 : Nat)
  /-- ISLAND_POWER_WRITE (R59): A write to HOST.ISLAND_POWER.EN powers islands that may be powered or kills islands whose bit is written 0. -/
  | islandPowerWrite (m : Master) (w : Word)
  /-- EYE_FOUND (R66): The tap sweep finds an eye on both lanes, the taps are centred and the link enters ECHO. -/
  | eyeFound (tap0 tap1 : BitVec 4)
  /-- FRAME_HEADER (R65): A header tick follows 16 idle ticks and the deframer recognises a downstream frame header. -/
  | frameHeader (hdr : Word) (idle : Nat)
  /-- CYCLE (R81): A CYCLE frame with a good CRC applies its SAFECMD, KICK and HOSTEVT words on tick 210 and sends its OUTWORD cells. -/
  | cycle (payload : List Word) (crc : Word)
  /-- REGW (R88): A REGW frame writes consecutive words from its start address, stopping at the first failing word. -/
  | regw (payload : List Word) (crc : Word)
  /-- REGR (R89): A REGR frame reads its listed addresses in order into the read queue. -/
  | regr (payload : List Word) (crc : Word)
  /-- BULK (R90): A BULK frame writes a block of words to SRAM, island SRAM or the slate load port. -/
  | bulk (payload : List Word) (crc : Word)
  /-- CTRL_NOP (R91): A CTRL NOP command does nothing beyond updating E. -/
  | ctrlNop (payload : List Word) (crc : Word)
  /-- LINK_RESET (R91): A CTRL LINK_RESET applies a K1 reset, discards queued frames, empties the read queue and sets E_FREE. -/
  | linkReset (payload : List Word) (crc : Word)
  /-- CTRL_RETRAIN (R91): A CTRL RETRAIN schedules entry to UNTRAINED at the end of the frame's tail. -/
  | ctrlRetrain (payload : List Word) (crc : Word)
  /-- RESEND_READS (R91): A CTRL RESEND_READS makes the next read-return area carry the last batch again with REPLAY = 1. -/
  | resendReads (payload : List Word) (crc : Word)
  /-- FLUSH_READS (R91): A CTRL FLUSH_READS empties the read queue and the last batch. -/
  | flushReads (payload : List Word) (crc : Word)
  /-- CTRL_LOOP (R91): A CTRL LOOP schedules LINK_CTRL.LOOP to take the argument at the end of the frame's tail. -/
  | ctrlLoop (payload : List Word) (crc : Word)
  /-- IDLE_FRAME (R92): An IDLE frame is CRC-checked and counted, and its twin collects status and read data. -/
  | idleFrame (payload : List Word) (crc : Word)
  /-- LINK_CTRL_RETRAIN (R101): A write of 1 to LINK_CTRL.RETRAIN schedules entry to UNTRAINED at the end of the current tail. -/
  | linkCtrlRetrain (m : Master)
  /-- CS_EARLY_RISE (R100): In bring-up mode CS_N rises early, giving a FORMAT error before the CRC or a cut-short twin after it. -/
  | csEarlyRise (afterCrc : Bool)
  /-- SLATE_OPEN (R114): CMD OPEN starts a slate session owned by the writer in LOADING. -/
  | slateOpen (m : Master)
  /-- SLATE_LOAD_NVM (R114): CMD LOAD_NVM starts a session and reads the slate from the NVM read window at NVMADDR. -/
  | slateLoadNvm (m : Master)
  /-- NVM_LOAD_COMPLETE (R114): The LOAD_NVM read reaches TOTAL_LEN, or fails with ERR = NVM. -/
  | nvmLoadComplete (readOk : Bool)
  /-- SLATE_LOAD (R114): A word written to SLATE.LOAD is staged, and the session becomes LOADED or FAILED by length. -/
  | slateLoad (m : Master) (w : Word)
  /-- SLATE_VERIFY (R115): CMD VERIFY starts the ordered checks and clamps of the staged slate. -/
  | slateVerify (m : Master)
  /-- SLATE_COMMIT (R118): CMD COMMIT starts the prepare phase, or is refused with HALTED during a Halt or Lockout. -/
  | slateCommit (m : Master)
  /-- SLATE_ABORT (R114): CMD ABORT discards the staged slate and returns the engine to EMPTY. -/
  | slateAbort (m : Master)
  /-- HOLDCLR (R122): A write of 1 to SLATE.HOLDCLR bit n releases an orphaned reflex hold on island n. -/
  | holdclr (m : Master) (w : Word)
  /-- KEY_PROGRAM (R110): KCMD PROGRAM writes KEYDATA into an EMPTY key slot, which becomes SET. -/
  | keyProgram (m : Master) (k : Fin 8)
  /-- KEY_REVOKE (R110): KCMD REVOKE erases the key of a SET slot, which becomes REVOKED. -/
  | keyRevoke (m : Master) (k : Fin 8)
  /-- SET_AUTH_REQ (R110): KCMD SET_AUTH_REQ programs the AUTH_REQ lock word. -/
  | setAuthReq (m : Master)
  /-- KEY_ERASE_ALL (R409): In factory test mode KCMD ERASE_ALL erases every key slot to EMPTY and clears AUTH_REQ. -/
  | keyEraseAll (m : Master)
  /-- INPUT_TRANSITION (R132): The raw state of an island input changes and the qualifier starts counting the new level. -/
  | inputTransition (n : IslandNo) (lvl : TermLevel)
  /-- QUALIFIED_EDGE (R133): The raw state holds the new level for F itk, QUAL changes and RISE or FALL is sent. -/
  | qualifiedEdge (n : IslandNo)
  /-- LONG_HOLD (R137): The long-hold count reaches LIMIT × 4096 tk and sets LONG and DIAG.LONG and raises LONG_HOLD once. -/
  | longHold (n : IslandNo)
  /-- WIRE_BREAK (R141): The qualified input current falls below I_WB and BREAK, DIAG.BREAK and WIRE_BREAK are set. -/
  | wireBreak (n : IslandNo)
  /-- BREAK_CLEAR (R141): The qualified current returns to I_WB or above and BREAK clears. -/
  | breakClear (n : IslandNo)
  /-- CURR_UPDATE (R141): Every 64 itk the island updates the CURR field from the input current. -/
  | currUpdate (n : IslandNo) (tenMicroamps : Nat)
  /-- CNT_WRITE (R144): A write to CNT.COUNT takes effect on the itk its WDATA lands, without triggering the compare. -/
  | cntWrite (n : IslandNo) (w : Word)
  /-- GATE_END (R145): A frequency gate ends and FEDGE and FSPAN are written with VALID or STOP. -/
  | gateEnd (n : IslandNo)
  /-- SENS_OVL (R129): The sensor-supply limiter stays engaged for 128 itk and DIAG.SENS_OVL is set and SENS_OVL raised. -/
  | sensOvl (n : IslandNo)
  /-- VF_LOW (R130): VF stays below V_VF_LOW for 64 itk, VF_LOW is raised and verification checks are suppressed. -/
  | vfLow (n : IslandNo)
  /-- VF_LOW_CLEAR (R130): VF stays above V_VF_LOW + 0.5 V for 64 itk and the VF_LOW condition clears. -/
  | vfLowClear (n : IslandNo)
  /-- PWM_PERIOD_START (R149): A PWM period starts with its on-phase and takes any new DUTY. -/
  | pwmPeriodStart (n : IslandNo)
  /-- PWM_PHASE_END (R149): A PWM on-phase ends and the switch turns off for the off-phase. -/
  | pwmPhaseEnd (n : IslandNo)
  /-- INRUSH_END (R150): The inrush window ends and the current limit drops from I_LIM_INR to I_LIM. -/
  | inrushEnd (n : IslandNo)
  /-- SHORT_LATCH (R150): Current limitation persists for 128 itk, SHORT latches the switch off and DO_SHORT is raised. -/
  | shortLatch (n : IslandNo)
  /-- OVERLOAD_LATCH (R150): Current above I_OVL persists for 65 536 itk, OVL latches the switch off and DO_OVERLOAD is raised. -/
  | overloadLatch (n : IslandNo)
  /-- SWITCH_OVERTEMP (R150): The DO switch junction reaches its thermal threshold and the switch turns off with DO_THERM. -/
  | switchOvertemp (n : IslandNo)
  /-- SWITCH_COOLED (R150): The DO switch cools by the thermal hysteresis and follows its command again. -/
  | switchCooled (n : IslandNo)
  /-- OUTPUT_CHECK (R152): A scheduled DO verification check compares the switch state with the load current. -/
  | outputCheck (n : IslandNo) (c : LoadCheck)
  /-- DIAG_CLEAR (R156): A W1C write to DIAG clears the record and releases the SHORT or OVL latch. -/
  | diagClear (n : IslandNo) (w : Word)
  /-- LOOP_OVL (R163): The loop-power limiter stays engaged for 128 itk and ADIAG.LOOP_OVL and LOOP_OVL are raised. -/
  | loopOvl (c : Supervision)
  /-- AO_OPEN (R169): An analog output driver stays out of compliance or in limitation for 128 itk and AO_OPEN is raised. -/
  | aoOpen (c : Supervision)
  /-- AO_OVERTEMP (R175): The AO driver reaches its thermal threshold, turns off, sets ADIAG.THERM and raises AO_THERM. -/
  | aoOvertemp (n : IslandNo)
  /-- AO_COOLED (R175): The AO driver cools by the thermal hysteresis and follows its output priority again. -/
  | aoCooled (n : IslandNo)
  /-- HCMD_SEND (R185): HCMD SEND starts a hardware-framed HART transmission with preamble, buffer and checksum. -/
  | hcmdSend (n : IslandNo) (len : BitVec 9)
  /-- HCMD_ABORT (R187): HCMD ABORT turns the carrier off, sets RES = ABORTED and returns the modem to IDLE. -/
  | hcmdAbort (n : IslandNo)
  /-- HCMD_LISTEN (R187): HCMD LISTEN arms the receiver to store a frame when a carrier is detected. -/
  | hcmdListen (n : IslandNo)
  /-- HRAW_WRITE (R186): A write to HRAW sends one raw-mode byte to the island as a HART cell. -/
  | hrawWrite (m : Master) (n : IslandNo) (b : Byte) (last : Bool)
  /-- HRAWR_READ (R186): A read of HRAWR removes and returns the oldest received raw byte. -/
  | hrawrRead (m : Master) (n : IslandNo)
  /-- HART_CHAR_END (R186): A transmitted HART character ends and the next queued byte starts or the transmission ends. -/
  | hartCharEnd (n : IslandNo)
  /-- HART_CHAR_RX (R185): A HART character is received and stored or forwarded in a HART cell. -/
  | hartCharRx (n : IslandNo) (b : Byte) (parityOk : Bool)
  /-- HART_RX_END (R187): A gap of more than one character time ends reception with DONE, PERR or CKSUM and sets RXLEN. -/
  | hartRxEnd (n : IslandNo)
  /-- HART_TIMEOUT (R187): RXTO character times pass in WAIT without a character and RES = TIMEOUT. -/
  | hartTimeout (n : IslandNo)
  /-- CARRIER_DETECT (R187): A HART carrier is detected while the receiver is armed and reception starts. -/
  | carrierDetect (n : IslandNo)
  /-- CONVERSION_START (R192): The converter starts the next acquisition once the rung's rate limit allows. -/
  | conversionStart (n : IslandNo)
  /-- CONVERSION_END (R190): A conversion phase ends and the next conversion may start. tbOpen: of AO_V, the field has left TB open
  (R170). -/
  | conversionEnd (n : IslandNo) (code : BitVec 18) (ovr : OverRange) (tbOpen : Bool)
  /-- RESULT_WRITE (R203): The trimmed result is written to its slot 2 itk after the conversion and handed off by its role. -/
  | resultWrite (n : IslandNo)
  /-- ROUND_START (R195): A free-running regular round starts once the previous one ends and RPER has passed. -/
  | roundStart (n : IslandNo)
  /-- CALIBRATION_START (R193): Every CALINT × 65 536 itk a background calibration is inserted between two regular entries. -/
  | calibrationStart (n : IslandNo)
  /-- ADC_CONVERT (R202): ADCCMD CONVERT converts the named regular entry once in host-assisted sequencing. -/
  | adcConvert (n : IslandNo) (entry : BitVec 4)
  /-- ADC_RTRIG (R195): ADCCMD RTRIG starts a triggered regular round or is held as pending. -/
  | adcRtrig (n : IslandNo)
  /-- ADC_INJECT (R200): ADCCMD INJECT pre-empts regular work and runs the injected group. -/
  | adcInject (n : IslandNo)
  /-- ADC_CAL (R202): ADCCMD CAL runs one calibration in host-assisted sequencing. -/
  | adcCal (n : IslandNo)
  /-- RESULT_SLOT_READ (R203): A read of a result slot returns it and clears NEW and OVWR. -/
  | resultSlotRead (m : Master) (n : IslandNo) (slot : Fin 20)
  /-- ADD (R234): ADD writes ra + rb to rd. -/
  | add (t : CtxNo) (rd ra rb : RegNo)
  /-- SUB (R234): SUB writes ra − rb to rd. -/
  | sub (t : CtxNo) (rd ra rb : RegNo)
  /-- AND (R234): AND writes ra & rb to rd. -/
  | and (t : CtxNo) (rd ra rb : RegNo)
  /-- OR (R234): OR writes ra | rb to rd. -/
  | or (t : CtxNo) (rd ra rb : RegNo)
  /-- XOR (R234): XOR writes ra ^ rb to rd. -/
  | xor (t : CtxNo) (rd ra rb : RegNo)
  /-- SLL (R234): SLL shifts ra left by rb[4:0]. -/
  | sll (t : CtxNo) (rd ra rb : RegNo)
  /-- SRL (R234): SRL shifts ra right logically by rb[4:0]. -/
  | srl (t : CtxNo) (rd ra rb : RegNo)
  /-- SRA (R234): SRA shifts ra right arithmetically by rb[4:0]. -/
  | sra (t : CtxNo) (rd ra rb : RegNo)
  /-- SLT (R234): SLT sets rd to 1 if ra < rb signed. -/
  | slt (t : CtxNo) (rd ra rb : RegNo)
  /-- SLTU (R234): SLTU sets rd to 1 if ra < rb unsigned. -/
  | sltu (t : CtxNo) (rd ra rb : RegNo)
  /-- MUL (R234): MUL writes the low 32 bits of ra × rb. -/
  | mul (t : CtxNo) (rd ra rb : RegNo)
  /-- MULH (R234): MULH writes the high 32 bits of the signed product. -/
  | mulh (t : CtxNo) (rd ra rb : RegNo)
  /-- DIV (R234): DIV divides ra by rb signed over 40 tk, giving 0 for rb = 0. -/
  | div (t : CtxNo) (rd ra rb : RegNo)
  /-- REM (R234): REM writes the signed remainder over 40 tk, giving ra for rb = 0. -/
  | rem (t : CtxNo) (rd ra rb : RegNo)
  /-- MIN (R234): MIN writes the smaller of ra and rb signed. -/
  | min (t : CtxNo) (rd ra rb : RegNo)
  /-- MAX (R234): MAX writes the larger of ra and rb signed. -/
  | max (t : CtxNo) (rd ra rb : RegNo)
  /-- ADDI (R234): ADDI writes ra + imm. -/
  | addi (t : CtxNo) (rd ra : RegNo) (imm : BitVec 18)
  /-- ANDI (R234): ANDI writes ra & imm. -/
  | andi (t : CtxNo) (rd ra : RegNo) (imm : BitVec 18)
  /-- ORI (R234): ORI writes ra | imm zero-extended. -/
  | ori (t : CtxNo) (rd ra : RegNo) (imm : BitVec 18)
  /-- XORI (R234): XORI writes ra ^ imm zero-extended. -/
  | xori (t : CtxNo) (rd ra : RegNo) (imm : BitVec 18)
  /-- SLLI (R234): SLLI shifts ra left by imm[4:0]. -/
  | slli (t : CtxNo) (rd ra : RegNo) (imm : BitVec 18)
  /-- SRLI (R234): SRLI shifts ra right logically by imm[4:0]. -/
  | srli (t : CtxNo) (rd ra : RegNo) (imm : BitVec 18)
  /-- SRAI (R234): SRAI shifts ra right arithmetically by imm[4:0]. -/
  | srai (t : CtxNo) (rd ra : RegNo) (imm : BitVec 18)
  /-- SLTI (R234): SLTI sets rd to 1 if ra < imm signed. -/
  | slti (t : CtxNo) (rd ra : RegNo) (imm : BitVec 18)
  /-- SLTIU (R234): SLTIU sets rd to 1 if ra < imm unsigned. -/
  | sltiu (t : CtxNo) (rd ra : RegNo) (imm : BitVec 18)
  /-- LDW (R210): LDW loads a word from ra + imm, or starts an island load. -/
  | ldw (t : CtxNo) (rd ra : RegNo) (imm : BitVec 18)
  /-- LDH (R210): LDH loads a sign-extended halfword. -/
  | ldh (t : CtxNo) (rd ra : RegNo) (imm : BitVec 18)
  /-- LDHU (R210): LDHU loads a zero-extended halfword. -/
  | ldhu (t : CtxNo) (rd ra : RegNo) (imm : BitVec 18)
  /-- LDB (R210): LDB loads a sign-extended byte. -/
  | ldb (t : CtxNo) (rd ra : RegNo) (imm : BitVec 18)
  /-- LDBU (R210): LDBU loads a zero-extended byte. -/
  | ldbu (t : CtxNo) (rd ra : RegNo) (imm : BitVec 18)
  /-- STW (R210): STW stores rb as a word at ra + off, posted for island targets. -/
  | stw (t : CtxNo) (ra rb : RegNo) (off : BitVec 18)
  /-- STH (R210): STH stores the low halfword of rb. -/
  | sth (t : CtxNo) (ra rb : RegNo) (off : BitVec 18)
  /-- STB (R210): STB stores the low byte of rb. -/
  | stb (t : CtxNo) (ra rb : RegNo) (off : BitVec 18)
  /-- BEQ (R234): BEQ branches if ra = rb. -/
  | beq (t : CtxNo) (ra rb : RegNo) (off : BitVec 18)
  /-- BNE (R234): BNE branches if ra ≠ rb. -/
  | bne (t : CtxNo) (ra rb : RegNo) (off : BitVec 18)
  /-- BLT (R234): BLT branches if ra < rb signed. -/
  | blt (t : CtxNo) (ra rb : RegNo) (off : BitVec 18)
  /-- BGE (R234): BGE branches if ra ≥ rb signed. -/
  | bge (t : CtxNo) (ra rb : RegNo) (off : BitVec 18)
  /-- BLTU (R234): BLTU branches if ra < rb unsigned. -/
  | bltu (t : CtxNo) (ra rb : RegNo) (off : BitVec 18)
  /-- BGEU (R234): BGEU branches if ra ≥ rb unsigned. -/
  | bgeu (t : CtxNo) (ra rb : RegNo) (off : BitVec 18)
  /-- JALR (R234): JALR links PC + 4 and jumps to ra + imm word-aligned. -/
  | jalr (t : CtxNo) (rd ra : RegNo) (imm : BitVec 18)
  /-- JAL (R234): JAL links PC + 4 and jumps to PC + 4 × imm22. -/
  | jal (t : CtxNo) (rd : RegNo) (imm : BitVec 22)
  /-- LUI (R234): LUI writes imm22 shifted left by 10. -/
  | lui (t : CtxNo) (rd : RegNo) (imm : BitVec 22)
  /-- FORK (R216): FORK allocates a context to start at ra with g1 = rb, or returns a failure reason. -/
  | fork (t : CtxNo) (rd ra rb : RegNo) (fn : BitVec 14)
  /-- CHILD_START (R217): A forked or launched context issues its first instruction in its slot 9–15 tk after the fork. -/
  | childStart (t : CtxNo)
  /-- JOIN (R213): JOIN ends the context with exit value ra, poisons its locks and drives THREAD_END. -/
  | join (t : CtxNo) (ra : RegNo)
  /-- WFE (R222): WFE consumes a set event latch or parks the context with an optional timeout. -/
  | wfe (t : CtxNo) (rd ra : RegNo)
  /-- WFE_TIMEOUT (R222): A parked context's timeout tick is reached and it wakes with RD[31] = 1. -/
  | wfeTimeout (t : CtxNo)
  /-- WATCH (R221): WATCH sets and arms the watched line, clearing EL, or disarms it. -/
  | watch (t : CtxNo) (imm : BitVec 18)
  /-- LOCK (R224): LOCK tries to acquire a lock and returns ACQUIRED, BUSY, POISONED or OWNED. -/
  | lock (t : CtxNo) (rd : RegNo) (imm : BitVec 18)
  /-- UNLK (R224): UNLK releases an owned lock, keeping its poison. -/
  | unlk (t : CtxNo) (rd : RegNo) (imm : BitVec 18)
  /-- CLRP (R224): CLRP clears the poison of an owned lock. -/
  | clrp (t : CtxNo) (rd : RegNo) (imm : BitVec 18)
  /-- RDTK (R234): RDTK reads the tick counter's low word with a high-word snapshot, or the snapshot. -/
  | rdtk (t : CtxNo) (rd : RegNo) (imm : BitVec 18)
  /-- OUTC (R231): OUTC queues an output command cell to an island, or returns 1 if the island is not RUNNING. -/
  | outc (t : CtxNo) (rd ra : RegNo) (imm : BitVec 18)
  /-- IMGR (R228): IMGR reads an island image word or the ISLMAP word from the image buffer. -/
  | imgr (t : CtxNo) (rd : RegNo) (imm : BitVec 18)
  /-- FENCE (R232): FENCE stalls until every island write and OUTC of the context is acknowledged or dropped. -/
  | fence (t : CtxNo) (rd : RegNo)
  /-- FENCE_COMPLETE (R232): The last outstanding island write is acknowledged or dropped and FENCE returns the failure count. -/
  | fenceComplete (t : CtxNo)
  /-- ISLAND_LOAD_RETURN (R229): Island read data reaches the host side, RD is written and the stalled thread resumes. -/
  | islandLoadReturn (t : CtxNo)
  /-- MULTI_SLOT_DONE (R209): A multi-slot instruction completes and the context resumes in its next slot. -/
  | multiSlotDone (t : CtxNo)
  /-- ISLAND_QUEUE_FREE (R230): A cell leaves a full island queue and a stalled store or OUTC completes. -/
  | islandQueueFree (n : IslandNo)
  /-- LAUNCH (R216): A write to FACET.LAUNCH starts a context at LAUNCH_PC with LAUNCH_ARG, or records a failure in LSTAT. -/
  | launch (m : Master) (ctx : BitVec 4)
  /-- KILL (R215): A kill ends a context, poisons its locks, discards its slate session and drives THREAD_END. -/
  | kill (m : Master) (mask : BitVec 8)
  /-- LOCK_FORCE_RELEASE (R224): LOCKCTL FORCE_RELEASE frees and poisons a lock. -/
  | lockForceRelease (m : Master) (k : Fin 64)
  /-- LOCK_CLEAR_POISON (R224): LOCKCTL CLEAR_POISON clears the poison of a free lock. -/
  | lockClearPoison (m : Master) (k : Fin 64)
  /-- EVENT_PULSE (R236): An event line passes a pulse from its source through its divider to every consumer. -/
  | eventPulse (line : BitVec 8)
  /-- SW_WRITE (R240): A write to EVT.SW pulses each SW source whose bit is 1. -/
  | swWrite (m : Master) (w : Word)
  /-- TIMER_PULSE (R241): A tick timer reaches its pulse tick in FREE, ONESHOT or WATCH mode and pulses. -/
  | timerPulse (k : Fin 16)
  /-- REFLEX_FIRE (R247): A reflex entry's condition holds or its line pulses, it becomes active and places its FORCE or SAFE demand. -/
  | reflexFire (i : Fin 64)
  /-- REFLEX_RELEASE (R247): A reflex entry is released by its rule and its demand leaves the state lane. -/
  | reflexRelease (i : Fin 64)
  /-- RFXCLR (R247): A write of 1 to RFXCLR releases that reflex entry under every rule. -/
  | rfxclr (m : Master) (hi : Bool) (w : Word)
  /-- DMA_START (R250): CMD START fetches the descriptor at HEAD. -/
  | dmaStart (m : Master) (c : ChNo)
  /-- DMA_START_TPL (R250): CMD START_TPL takes the template as the descriptor. -/
  | dmaStartTpl (m : Master) (c : ChNo)
  /-- DMA_DISABLE (R258): CMD DISABLE stops the channel in IDLE, losing words read but not written. -/
  | dmaDisable (m : Master) (c : ChNo)
  /-- APPEND (R257): A write to APPEND patches TAIL's LINK word or reports MISSED or REFUSED. -/
  | append (m : Master) (c : ChNo) (addr : Word)
  /-- TLINK_WRITE (R253): In host-assisted mode a TLINK write moves the template descriptor at once. -/
  | tlinkWrite (m : Master) (c : ChNo) (w : Word)
  /-- OCMD_WRITE (R260): A write to DMA.OCMD[n] sends the word as an output command to island n. -/
  | ocmdWrite (m : Master) (n : IslandNo) (w : Word)
  /-- RSTREAM_READ (R260): A read of DMA.RSTREAM[n] removes and returns the oldest result-stream entry. -/
  | rstreamRead (m : Master) (n : IslandNo)
  /-- DESCRIPTOR_FETCHED (R253): The list walker reads the fourth descriptor word and the channel enters WAIT, MOVE or completes a LEN = 0 descriptor. -/
  | descriptorFetched (c : ChNo)
  /-- WORD_MOVE (R255): The data mover writes one word of a channel and completes the descriptor after its last word. -/
  | wordMove (c : ChNo)
  /-- AUTO_START (R261): An AUTO channel in IDLE starts from its template on T_C + 1 or after a K2 or K3 reset. -/
  | autoStart (c : ChNo)
  /-- CLR_STILL (R276): SAFE_CTRL.CLR_STILL clears the stillness latch if the integrator is discharged. -/
  | clrStill (m : Master)
  /-- CLR_SAFEN (R276): SAFE_CTRL.CLR_SAFEN clears the SAFE_N latch if SAFE_N has been high for 0.5 µs. -/
  | clrSafen (m : Master)
  /-- CLR_FRESET (R285): SAFE_CTRL.CLR_FRESET clears the Flint latch. -/
  | clrFreset (m : Master)
  /-- SAFE_CMD_WRITE (R285): A write to HOST.SAFE_CMD sets or clears host-command safe demands per island. -/
  | safeCmdWrite (m : Master) (w : Word)
  /-- KICK (R278): A write to a Flint channel's KICK field is judged accepted, EARLY or BADKEY. -/
  | kick (m : Master) (ch : FlintChan) (key : BitVec 16)
  /-- QW_WRITE (R280): A write to QW supplies the next host-assisted watchdog question. -/
  | qwWrite (m : Master) (ch : FlintChan) (q : BitVec 16)
  /-- WINDOW_CLOSE (R278): A Flint channel's elapsed count reaches WMAX and it expires LATE. -/
  | windowClose (ch : FlintChan)
  /-- BOOT_BUDGET (R283): A non-zero BUDGET write by boot code arms the trial-boot budget. -/
  | bootBudget (m : Master) (budget : BitVec 16) (confirm : Bool)
  /-- BOOT_CONFIRM (R283): A write of 1 to BOOT.CONFIRM clears ARMED. -/
  | bootConfirm (m : Master)
  /-- DECIDE (R292): A write to FAULT.DECIDE sets the class of the queued fault with that DTAG, or sets DLATE. -/
  | decide (m : Master) (dtag : Byte) (cls : BitVec 2)
  /-- GRACE_EXPIRY (R292): The grace time of a queued fault expires and its matrix class acts with DEC = 2. -/
  | graceExpiry (dtag : Byte)
  /-- CHCLR (R302): A write of 1 to FAULT.CHCLR sends a clear cell to end a Channel fault. -/
  | chclr (m : Master) (mask : BitVec 16)
  /-- FAULT_INJECT (R303): FAULT.INJ GO raises a chosen source as though it had raised itself, in factory test mode. -/
  | faultInject (m : Master) (src mid : Byte)
  /-- ISL_THERM (R391): An island die reaches its thermal protection and takes its programmed safe state. -/
  | islTherm (n : IslandNo)
  /-- NVM_ERASE (R308): CMD ERASE starts a journalled erase of a sector. -/
  | nvmErase (m : Master)
  /-- NVM_PROGRAM (R306): CMD PROGRAM starts a journalled program of units from PBUF. -/
  | nvmProgram (m : Master) (units : BitVec 4)
  /-- NVM_APPEND (R324): CMD APPEND writes a settings record from PBUF under the committed schema. -/
  | nvmAppend (m : Master)
  /-- MARK_WRITTEN (R319): CMD MARK WRITTEN checks a bank image and programs its WRITTEN mark, or refuses with BADIMG. -/
  | markWritten (m : Master) (b : Bank)
  /-- MARK_TRIAL (R319): CMD MARK TRIAL programs the TRIAL mark from boot code only. -/
  | markTrial (m : Master) (b : Bank)
  /-- MARK_CONFIRMED (R319): CMD MARK CONFIRMED programs CONFIRMED on the booted TRIAL bank. -/
  | markConfirmed (m : Master) (b : Bank)
  /-- MARK_REJECTED (R319): CMD MARK REJECTED programs the REJECTED mark on either bank. -/
  | markRejected (m : Master) (b : Bank)
  /-- NVM_COMPACT (R326): CMD COMPACT copies live newest records of the oldest settings sector and erases it. -/
  | nvmCompact (m : Master)
  /-- NVM_ABORT_CMD (R310): CMD ABORT stops the operation at the end of its slice and writes an ABANDONED record. -/
  | nvmAbortCmd (m : Master)
  /-- NVM_STEP (R311): A write to STEP.TICKS starts a host-assisted pulse of the clamped length. -/
  | nvmStep (m : Master) (ticks : Word)
  /-- SLICE_END (R308): A program or erase pulse with its verify ends and the operation continues or ends. -/
  | sliceEnd (verified : Bool)
  /-- TANDEM_LOCK (R330): The tandem receiver locks on TP or TPL and the device answers with TPL or idle. -/
  | tandemLock (tpl : Bool)
  /-- RECORD (R339): A complete RECORD with a good CRC becomes the standby's copy. -/
  | record (payload : List Word) (crc : Word)
  /-- BEACON (R333): A BEACON reports the partner's role and may raise DUAL_ACTIVE. -/
  | beacon (payload : List Word) (crc : Word)
  /-- TAKE (R342): The active receives TAKE, captures a final record, shadows its outputs and becomes STANDBY. -/
  | take (payload : List Word) (crc : Word)
  /-- ACK (R342): The promoting device receives ACK and starts its GAP wait. -/
  | ack (payload : List Word) (crc : Word)
  /-- RELEASE (R343): The standby receives RELEASE and promotes after its GAP wait. -/
  | release (payload : List Word) (crc : Word)
  /-- PROMOTE (R342): TANDEM.CMD PROMOTE sets PBUSY and sends TAKE. -/
  | promote (m : Master)
  /-- FORCE_PROMOTE (R341): TANDEM.CMD FORCE_PROMOTE promotes from the local copy after GAP without the link. -/
  | forcePromote (m : Master)
  /-- HANDOVER (R341): TANDEM.CMD HANDOVER makes the active act as though it had received TAKE. -/
  | handover (m : Master)
  /-- DEMOTE (R341): TANDEM.CMD DEMOTE makes an ACTIVE device STANDBY at once. -/
  | demote (m : Master)
  /-- HRDY_WRITE (R340): A write to HRDY marks the host-assisted record buffer ready or withdraws it. -/
  | hrdyWrite (m : Master) (rdy : Bool)
  /-- K4_RELEASE (R350): On the 64th HCK edge after all reset conditions clear, the K4 reset is released and the tick counter starts. -/
  | k4Release (c : ReleaseLands)
  /-- VMICA_HOLD_END (R352): An island's coupler has delivered for 4096 itk at V_CV_OK and it leaves its safe state. -/
  | vmicaHoldEnd (n : IslandNo)
  /-- RESET (R372): A write to HOST.RESET with the key and SOFT = 1 requests a K2 reset. -/
  | reset (m : Master) (w : Word)
  /-- REQ_RUN (R366): PSTATE REQ = RUN re-admits parked islands or restores EN from RESUME. -/
  | reqRun (m : Master)
  /-- REQ_PARK (R366): PSTATE REQ = PARK lowers every RUNNING island to rung 0. -/
  | reqPark (m : Master)
  /-- REQ_DORMANT (R366): PSTATE REQ = DORMANT saves EN to RESUME and kills every island, or is refused on an ACTIVE device. -/
  | reqDormant (m : Master)
  /-- ILOOP_OFF (R403): ILOOP DEPTH 0 ends service hold and restarts the regular sequence. -/
  | iloopOff (m : Master) (n : IslandNo)
  /-- ILOOP_ECHO (R401): ILOOP DEPTH 1 sends a Mica echo cell and measures the round trip. -/
  | iloopEcho (m : Master) (n : IslandNo) (pattern : BitVec 16)
  /-- ILOOP_DAC_ADC (R404): ILOOP DEPTH 2 puts the island in service hold and measures the DAC through the converter. -/
  | iloopDacAdc (m : Master) (n : IslandNo) (pattern : BitVec 16)
  /-- ILOOP_TERMINAL (R404): ILOOP DEPTH 3 puts the island in service hold and measures a terminal with a test current. -/
  | iloopTerminal (m : Master) (n : IslandNo) (pattern : BitVec 16) (term : BitVec 2)
  /-- ILOOP_CROSS (R405): ILOOP DEPTH 4 puts an island pair in service hold and measures one through the other. -/
  | iloopCross (m : Master) (n : IslandNo) (pattern : BitVec 16)
  /-- MEASUREMENT_DONE (R404): A service-hold measurement completes and IRES is written with CODE and PASS. -/
  | measurementDone (n : IslandNo) (code : BitVec 18)
  /-- UNLOCK (R408): A write to TEST.UNLOCK advances the unlock sequence and sets FTM on the third correct word. -/
  | unlock (m : Master) (w : Word)
  /-- SAFE_N_HIGH (R276): The SAFE_N land returns high, SAFEN_PIN clears and the SAFE_N latch may be cleared once the land has been high for 0.5 µs. -/
  | safeNHigh (held : Bool)
  /-- ISL_THERM_RELEASE (R391): An island die cools by the thermal hysteresis below its protection trip and the island-die protection releases its safe state. -/
  | islThermRelease (n : IslandNo)
  /-- HOST_HOT_END (R288): Host-die TJ falls back below 140 °C, PWRSTAT.HOT clears and the HOST_HOT condition ends so that it can raise again. -/
  | hostHotEnd (above115 : Bool)
  /-- TANDEM_FRAME_DISCARD (R332): A tandem frame with a reserved TYPE, a mismatched LEN, a failed CRC or a cut-off record is discarded and counted in PERR, and in PARTIAL if it is a RECORD. -/
  | tandemFrameDiscard (isRecord : Bool)
  /-- HCK_STOP (R16): HCK stops and the SH16 becomes still, so all counters, timers and filters stand while outputs hold their levels. -/
  | hckStop
  /-- HCK_RESUME (R17): HCK resumes, every domain continues where it stopped, and each island reports its latched edges at the first sample point. -/
  | hckResume
  /-- ADMISSION_COMPLETE (R54): An admission pass completes and LEDGER_STAT.BUSY clears. -/
  | admissionComplete
  /-- TP_LOCK (R66): TP is received on a word boundary on both lanes four times in a row and the link enters LOCK. -/
  | tpLock
  /-- TRAINING_LOST (R66): Eight consecutive words that are not TP arrive in LOCK and the link returns to UNTRAINED. -/
  | trainingLost
  /-- ECHO_IDLE (R66): Sixteen consecutive idle ticks arrive in ECHO and the link enters READY with empty queues and E_FREE = 1. -/
  | echoIdle
  /-- COMMAND_EXECUTE (R78): A queued command frame starts executing once the previous frame's execution ends. -/
  | commandExecute
  /-- RETRAIN_APPLY (R66): At the end of the transaction's tail the link enters UNTRAINED after a retrain request. -/
  | retrainApply
  /-- LOOP_APPLY (R97): At the end of the transaction's tail the requested link loopback depth takes effect. -/
  | loopApply
  /-- VERIFY_COMPLETE (R115): Verification ends, setting VERIFIED with VSTAT or FAILED with ERR and ERR_SEC. -/
  | verifyComplete
  /-- COMMIT_SWITCH (R118): On T_C every host-die slate-written field, the mode split, SLATE.ID and the island host copies take their new values. -/
  | commitSwitch
  /-- FULL_PASS (R54): After the last APPLY is acknowledged, the arbiter admits every island in priority order. -/
  | fullPass
  /-- COMMIT_COMPLETE (R114): The full pass completes, COMMITTED is set with ID, AUTHED, RATE_MATCH and the commit tick, and the engine returns to EMPTY. -/
  | commitComplete
  /-- HARVEST_SLOT (R211): A lent issue slot goes to the first harvest engine with work pending. -/
  | harvestSlot
  /-- SAFE_N_ASSERT (R270): SAFE_N is held low long enough, the SAFE_N latch sets and a SAFE mark goes to every powered island. -/
  | safeNAssert
  /-- STILLNESS_TRIP (R275): The armed stillness guard trips, sets the stillness latch and issues SAFE marks. -/
  | stillnessTrip
  /-- FLINT_RESET (R281): The K3 reset is applied 32 tk after an expiry or at the end of the NVM slice. -/
  | flintReset
  /-- BUDGET_EXPIRY (R283): The trial-boot count ends with ARMED set and the CORE channel expires with reason BOOT. -/
  | budgetExpiry
  /-- FAULT_REACTION (R290): On c + 4 the matrix class of a captured fault acts, unless it is deferred to the host. -/
  | faultReaction
  /-- HALT_RECOVERY (R297): The quiet period ends without a restart, a K0 reset is applied and the Halt clears. -/
  | haltRecovery
  /-- ESCALATION_LOCKOUT (R298): Four ticks after escalation, a Lockout comes into force. -/
  | escalationLockout
  /-- HOST_HOT (R288): Host-die TJ rises through 140 °C and HOST_HOT is raised. -/
  | hostHot
  /-- SCAN_DONE (R313): The intent-journal scan completes and STAT.OPEN shows the open intents. -/
  | scanDone
  /-- INTENT_RECOVERY (R313): Once rate and temperature allow, the controller closes each open intent in SEQ order. -/
  | intentRecovery
  /-- COUNTER_INCREMENT (R317): The idle controller programs a pending retained-counter increment and clears its pending bit. -/
  | counterIncrement
  /-- BOOT_START (R357): Context 0 starts the boot ROM after a K2, K3 or K4 reset. -/
  | bootStart
  /-- TANDEM_READY (R330): Sixteen consecutive idle ticks after lock make the tandem link READY. -/
  | tandemReady
  /-- BEACON_SEND (R333): A paired device's transmitter is idle for 1024 tk and sends a BEACON. -/
  | beaconSend
  /-- TANDEM_LINK_LOSS (R333): No valid tandem frame arrives for PLOSS × 1024 tk and the link is declared lost. -/
  | tandemLinkLoss
  /-- ACK_SEND (R342): After every SHADOW cell is acknowledged and 64 tk pass, the former active sends ACK. -/
  | ackSend
  /-- ACK_TIMEOUT (R342): No ACK arrives within 8192 tk of TAKE and the promotion fails with HANDOVER_FAIL. -/
  | ackTimeout
  /-- GAP_END (R344): GAP × 64 tk pass and the device applies its copy, unshadows and becomes ACTIVE. -/
  | gapEnd
  /-- BROWN_OUT (R350): VH falls below the brown-out threshold, the K4 reset is asserted and every island is killed. -/
  | brownOut
  /-- RST_N_ASSERT (R350): RST_N goes low, the K4 reset is asserted and every island is killed. -/
  | rstNAssert
  /-- PRSNT_N_REMOVAL (R270): PRSNT_N is deasserted, KILL marks go to every island and a K4 reset follows. -/
  | prsntNRemoval
  /-- THERMAL_SHUTDOWN (R350): Host-die TJ exceeds the shutdown threshold and a K4 reset is asserted. -/
  | thermalShutdown
  /-- DEFERRAL_END (R350): An ACTIVE device's deferred host-die reset is applied after RELEASE leaves or the limit expires. -/
  | deferralEnd
  /-- VMICA_UNDERVOLTAGE (R352): VMICA falls below its threshold and every power coupler stops without a KILL mark. -/
  | vmicaUndervoltage
  /-- VMICA_RETURN (R352): VMICA rises through its threshold and RUNNING islands recharge from the reserve. -/
  | vmicaReturn
  /-- SOFT_RESET (R355): The requested K2 reset is applied, killing contexts and disabling DMA while islands keep running. -/
  | softReset
  /-- TEST_N_HIGH (R408): TEST_N is sampled high and factory test mode clears. -/
  | testNHigh
  /-- EXTEST (R407): The EXTEST instruction gives the host lands to the scan and issues SAFE marks. -/
  | extest
  /-- IDCODE (R406): The IDCODE instruction selects the identification register. -/
  | idcode
  /-- SAMPLE_PRELOAD (R406): The SAMPLE/PRELOAD instruction samples the lands without affecting function. -/
  | samplePreload
  /-- HIGHZ (R407): The HIGHZ instruction releases the host outputs and issues SAFE marks. -/
  | highz
  /-- CLAMP (R407): The CLAMP instruction holds the host lands and issues SAFE marks. -/
  | clamp
  /-- BYPASS (R406): The BYPASS instruction selects the bypass register. -/
  | bypass
  /-- TAP_RESET (R407): The TAP enters Test-Logic-Reset and the scan SAFE marks clear. -/
  | tapReset
  /-- TEST_N_LOW (R408): The TEST_N land goes low, MODE.PIN reads 1 and the unlock sequence may proceed. -/
  | testNLow
  /-- INTEGRATOR_DISCHARGED (R274): After 32 consecutive HCK edges the stillness guard's integrator is fully discharged and GUARD.CHARGED reads 0. -/
  | integratorDischarged
  deriving DecidableEq, Repr

end Sys2Proof
end

