-- ==== Sys2Proof/Decode.lean ====
section
/-! DEFINITION. Words and commands: the rows of spec/opcode_table.json carry no bits, so no word of the table spells a command;
a Facet thread's instruction words are decoded and encoded here by the formats of R233 and the opcodes of R234. -/

namespace Sys2Proof

/-- The command a word spells by the bits of spec/opcode_table.json. The table gives no row any bits. -/
def decodeTableWord (_nbits _w : Nat) : Option Instr := none

/-! ## Facet instruction fields (R233) -/

/-- Bits [25:22]: RD, or RA of format C. -/
def fA (w : Word) : RegNo := (w.extractLsb' 22 4).toFin

/-- Bits [21:18]: RA, or RB of format C. -/
def fB (w : Word) : RegNo := (w.extractLsb' 18 4).toFin

/-- Bits [17:14]: RB of format A. -/
def fC (w : Word) : RegNo := (w.extractLsb' 14 4).toFin

/-- Bits [13:0]: FN. -/
def f14 (w : Word) : BitVec 14 := w.extractLsb' 0 14

/-- Bits [17:0]: IMM18 or OFF18. -/
def f18 (w : Word) : BitVec 18 := w.extractLsb' 0 18

/-- Bits [21:0]: IMM22. -/
def f22 (w : Word) : BitVec 22 := w.extractLsb' 0 22

/-- The instruction that context t issues for a word; none where the OP is not in the opcode table (R234). -/
def facetDecode (t : CtxNo) (w : Word) : Option Instr :=
  match (w.extractLsb' 26 6).toNat with
  | 0x01 => some (.add t (fA w) (fB w) (fC w))
  | 0x02 => some (.sub t (fA w) (fB w) (fC w))
  | 0x03 => some (.and t (fA w) (fB w) (fC w))
  | 0x04 => some (.or t (fA w) (fB w) (fC w))
  | 0x05 => some (.xor t (fA w) (fB w) (fC w))
  | 0x06 => some (.sll t (fA w) (fB w) (fC w))
  | 0x07 => some (.srl t (fA w) (fB w) (fC w))
  | 0x08 => some (.sra t (fA w) (fB w) (fC w))
  | 0x09 => some (.slt t (fA w) (fB w) (fC w))
  | 0x0A => some (.sltu t (fA w) (fB w) (fC w))
  | 0x0B => some (.mul t (fA w) (fB w) (fC w))
  | 0x0C => some (.mulh t (fA w) (fB w) (fC w))
  | 0x0D => some (.div t (fA w) (fB w) (fC w))
  | 0x0E => some (.rem t (fA w) (fB w) (fC w))
  | 0x0F => some (.min t (fA w) (fB w) (fC w))
  | 0x10 => some (.max t (fA w) (fB w) (fC w))
  | 0x11 => some (.addi t (fA w) (fB w) (f18 w))
  | 0x12 => some (.andi t (fA w) (fB w) (f18 w))
  | 0x13 => some (.ori t (fA w) (fB w) (f18 w))
  | 0x14 => some (.xori t (fA w) (fB w) (f18 w))
  | 0x15 => some (.slli t (fA w) (fB w) (f18 w))
  | 0x16 => some (.srli t (fA w) (fB w) (f18 w))
  | 0x17 => some (.srai t (fA w) (fB w) (f18 w))
  | 0x18 => some (.slti t (fA w) (fB w) (f18 w))
  | 0x19 => some (.sltiu t (fA w) (fB w) (f18 w))
  | 0x1A => some (.ldw t (fA w) (fB w) (f18 w))
  | 0x1B => some (.ldh t (fA w) (fB w) (f18 w))
  | 0x1C => some (.ldhu t (fA w) (fB w) (f18 w))
  | 0x1D => some (.ldb t (fA w) (fB w) (f18 w))
  | 0x1E => some (.ldbu t (fA w) (fB w) (f18 w))
  | 0x20 => some (.stw t (fA w) (fB w) (f18 w))
  | 0x21 => some (.sth t (fA w) (fB w) (f18 w))
  | 0x22 => some (.stb t (fA w) (fB w) (f18 w))
  | 0x24 => some (.beq t (fA w) (fB w) (f18 w))
  | 0x25 => some (.bne t (fA w) (fB w) (f18 w))
  | 0x26 => some (.blt t (fA w) (fB w) (f18 w))
  | 0x27 => some (.bge t (fA w) (fB w) (f18 w))
  | 0x28 => some (.bltu t (fA w) (fB w) (f18 w))
  | 0x29 => some (.bgeu t (fA w) (fB w) (f18 w))
  | 0x2A => some (.jalr t (fA w) (fB w) (f18 w))
  | 0x30 => some (.jal t (fA w) (f22 w))
  | 0x31 => some (.lui t (fA w) (f22 w))
  | 0x32 => some (.fork t (fA w) (fB w) (fC w) (f14 w))
  | 0x33 => some (.join t (fB w))
  | 0x34 => some (.wfe t (fA w) (fB w))
  | 0x35 => some (.watch t (f18 w))
  | 0x36 => some (.lock t (fA w) (f18 w))
  | 0x37 => some (.unlk t (fA w) (f18 w))
  | 0x38 => some (.clrp t (fA w) (f18 w))
  | 0x39 => some (.rdtk t (fA w) (f18 w))
  | 0x3A => some (.outc t (fA w) (fB w) (f18 w))
  | 0x3B => some (.imgr t (fA w) (f18 w))
  | 0x3C => some (.fence t (fA w))
  | _ => none

/-! ## Encoding -/

/-- A word of format A (R233). -/
def encA (op : BitVec 6) (rd ra rb : RegNo) (fn : BitVec 14) : Word :=
  (op ++ (BitVec.ofFin rd : BitVec 4) ++ (BitVec.ofFin ra : BitVec 4) ++ (BitVec.ofFin rb : BitVec 4) ++ fn : BitVec (6 + 4 + 4 + 4 + 14))

/-- A word of format B or C (R233). -/
def encB (op : BitVec 6) (rd ra : RegNo) (imm : BitVec 18) : Word :=
  (op ++ (BitVec.ofFin rd : BitVec 4) ++ (BitVec.ofFin ra : BitVec 4) ++ imm : BitVec (6 + 4 + 4 + 18))

/-- A word of format D (R233). -/
def encD (op : BitVec 6) (rd : RegNo) (imm : BitVec 22) : Word :=
  (op ++ (BitVec.ofFin rd : BitVec 4) ++ imm : BitVec (6 + 4 + 22))

/-- The word of a Facet instruction, unused fields 0; none for a command that is no Facet instruction. -/
def facetEncode : Instr → Option Word
  | .add _ rd ra rb => some (encA 0x01 rd ra rb 0)
  | .sub _ rd ra rb => some (encA 0x02 rd ra rb 0)
  | .and _ rd ra rb => some (encA 0x03 rd ra rb 0)
  | .or _ rd ra rb => some (encA 0x04 rd ra rb 0)
  | .xor _ rd ra rb => some (encA 0x05 rd ra rb 0)
  | .sll _ rd ra rb => some (encA 0x06 rd ra rb 0)
  | .srl _ rd ra rb => some (encA 0x07 rd ra rb 0)
  | .sra _ rd ra rb => some (encA 0x08 rd ra rb 0)
  | .slt _ rd ra rb => some (encA 0x09 rd ra rb 0)
  | .sltu _ rd ra rb => some (encA 0x0A rd ra rb 0)
  | .mul _ rd ra rb => some (encA 0x0B rd ra rb 0)
  | .mulh _ rd ra rb => some (encA 0x0C rd ra rb 0)
  | .div _ rd ra rb => some (encA 0x0D rd ra rb 0)
  | .rem _ rd ra rb => some (encA 0x0E rd ra rb 0)
  | .min _ rd ra rb => some (encA 0x0F rd ra rb 0)
  | .max _ rd ra rb => some (encA 0x10 rd ra rb 0)
  | .addi _ rd ra imm => some (encB 0x11 rd ra imm)
  | .andi _ rd ra imm => some (encB 0x12 rd ra imm)
  | .ori _ rd ra imm => some (encB 0x13 rd ra imm)
  | .xori _ rd ra imm => some (encB 0x14 rd ra imm)
  | .slli _ rd ra imm => some (encB 0x15 rd ra imm)
  | .srli _ rd ra imm => some (encB 0x16 rd ra imm)
  | .srai _ rd ra imm => some (encB 0x17 rd ra imm)
  | .slti _ rd ra imm => some (encB 0x18 rd ra imm)
  | .sltiu _ rd ra imm => some (encB 0x19 rd ra imm)
  | .ldw _ rd ra imm => some (encB 0x1A rd ra imm)
  | .ldh _ rd ra imm => some (encB 0x1B rd ra imm)
  | .ldhu _ rd ra imm => some (encB 0x1C rd ra imm)
  | .ldb _ rd ra imm => some (encB 0x1D rd ra imm)
  | .ldbu _ rd ra imm => some (encB 0x1E rd ra imm)
  | .stw _ ra rb off => some (encB 0x20 ra rb off)
  | .sth _ ra rb off => some (encB 0x21 ra rb off)
  | .stb _ ra rb off => some (encB 0x22 ra rb off)
  | .beq _ ra rb off => some (encB 0x24 ra rb off)
  | .bne _ ra rb off => some (encB 0x25 ra rb off)
  | .blt _ ra rb off => some (encB 0x26 ra rb off)
  | .bge _ ra rb off => some (encB 0x27 ra rb off)
  | .bltu _ ra rb off => some (encB 0x28 ra rb off)
  | .bgeu _ ra rb off => some (encB 0x29 ra rb off)
  | .jalr _ rd ra imm => some (encB 0x2A rd ra imm)
  | .jal _ rd imm => some (encD 0x30 rd imm)
  | .lui _ rd imm => some (encD 0x31 rd imm)
  | .fork _ rd ra rb fn => some (encA 0x32 rd ra rb fn)
  | .join _ ra => some (encA 0x33 0 ra 0 0)
  | .wfe _ rd ra => some (encA 0x34 rd ra 0 0)
  | .watch _ imm => some (encB 0x35 0 0 imm)
  | .lock _ rd imm => some (encB 0x36 rd 0 imm)
  | .unlk _ rd imm => some (encB 0x37 rd 0 imm)
  | .clrp _ rd imm => some (encB 0x38 rd 0 imm)
  | .rdtk _ rd imm => some (encB 0x39 rd 0 imm)
  | .outc _ rd ra imm => some (encB 0x3A rd ra imm)
  | .imgr _ rd imm => some (encB 0x3B rd 0 imm)
  | .fence _ rd => some (encA 0x3C rd 0 0 0)
  | _ => none

/-- The context that issues a Facet instruction. -/
def facetCtx : Instr → CtxNo
  | .add t _ _ _ => t
  | .sub t _ _ _ => t
  | .and t _ _ _ => t
  | .or t _ _ _ => t
  | .xor t _ _ _ => t
  | .sll t _ _ _ => t
  | .srl t _ _ _ => t
  | .sra t _ _ _ => t
  | .slt t _ _ _ => t
  | .sltu t _ _ _ => t
  | .mul t _ _ _ => t
  | .mulh t _ _ _ => t
  | .div t _ _ _ => t
  | .rem t _ _ _ => t
  | .min t _ _ _ => t
  | .max t _ _ _ => t
  | .addi t _ _ _ => t
  | .andi t _ _ _ => t
  | .ori t _ _ _ => t
  | .xori t _ _ _ => t
  | .slli t _ _ _ => t
  | .srli t _ _ _ => t
  | .srai t _ _ _ => t
  | .slti t _ _ _ => t
  | .sltiu t _ _ _ => t
  | .ldw t _ _ _ => t
  | .ldh t _ _ _ => t
  | .ldhu t _ _ _ => t
  | .ldb t _ _ _ => t
  | .ldbu t _ _ _ => t
  | .stw t _ _ _ => t
  | .sth t _ _ _ => t
  | .stb t _ _ _ => t
  | .beq t _ _ _ => t
  | .bne t _ _ _ => t
  | .blt t _ _ _ => t
  | .bge t _ _ _ => t
  | .bltu t _ _ _ => t
  | .bgeu t _ _ _ => t
  | .jalr t _ _ _ => t
  | .jal t _ _ => t
  | .lui t _ _ => t
  | .fork t _ _ _ _ => t
  | .join t _ => t
  | .wfe t _ _ => t
  | .watch t _ => t
  | .lock t _ _ => t
  | .unlk t _ _ => t
  | .clrp t _ _ => t
  | .rdtk t _ _ => t
  | .outc t _ _ _ => t
  | .imgr t _ _ => t
  | .fence t _ => t
  | _ => 0

end Sys2Proof
end

