-- ==== Sys2Proof/Machine/State.lean ====
section
/-! DEFINITION. The state of the SH16: every register, queue, buffer, counter, mode and pin its spec gives, and the queue of
waiting commands. Plain data throughout. -/

namespace Sys2Proof.Machine

/-! ## Stops -/

/-- Reasons a step can stop with a fault. The spec gives the block no error that stops it: every error goes to the fault
collector (R288) and the block goes on, so no row raises a fault and the type has no constructor. -/
inductive Fault where
  deriving DecidableEq, Repr

/-- Reasons a step is refused. -/
inductive Refusal where
  /-- Raised by exec's arm of a row that has no meaning yet. Safe: the machine stops. -/
  | notModelled (mnemonic : String)
  deriving DecidableEq, Repr

/-- A sparse store of register words: byte address and word, addresses rising, no entry equal to the reset word. -/
abbrev Words := List (Nat × Word)

/-! ## Islands -/

/-- Island power states of HOST.ISLAND_STATE (R59, R362). -/
inductive IslPower where
  | bedrock | charging | running | lost
  deriving DecidableEq, Repr

/-- Commands that travel in CMD cells (R35, R118, R146, R207, R290, R302, R335, R401). -/
inductive IslCmd where
  | prep | apply | shadow | unshadow
  | echo (w : Word)
  | chanFault | clear
  | output (w : Word)
  /-- The test cell of a loopback of depth 2-4 (R402). -/
  | test (depth : Fin 5)
  | adc (op entry : BitVec 4)
  deriving DecidableEq, Repr

/-- What a downstream cell carries (R35). -/
inductive DownData where
  | outword (w : Word)
  | sync (seq : BitVec 2)
  | rung (r : Rungs)
  | waddr (a : Word)
  | wdata (w : Word)
  | raddr (a : Word)
  | cmd (c : IslCmd)
  | hart (b : Byte) (last : Bool)
  deriving DecidableEq, Repr

/-- What an upstream cell carries (R35). -/
inductive UpData where
  | fatal
  | sync (seq : BitVec 2)
  | rdata (w : Word)
  | rungAct
  | result (w : Word)
  | status (m : StatusMsg)
  | hart (b : Byte) (start perr : Bool)
  deriving DecidableEq, Repr

/-- A cell in the queue of its sender, with where it stands (R35-R40). -/
structure Cell (α : Type) where
  data : α
  /-- It is a SYNC cell (R40). -/
  sync : Bool
  /-- The requester; of an RDATA cell, the requester of the read. -/
  req : Master
  /-- The address that the requester accessed. -/
  addr : Word
  /-- SEQ, TYPE and payload word of the link frame that asked, for LINK_XERR (R88); of a thread's narrow store, its byte lanes
  (R234). -/
  xref : BitVec 19
  /-- The tick from which it may leave (R36, R38). -/
  since : Tick
  /-- It has left in a slot and its acknowledgement has not come (R39). -/
  sent : Bool
  /-- The tick on which that slot started, and the SEQ it left with. -/
  slot : Tick
  seq : BitVec 2
  /-- This sending fails: the cell is corrupted on its way, or its acknowledgement is. -/
  bad : Bool
  /-- The receiver has accepted it. -/
  got : Bool
  /-- It has failed once (R40). -/
  failed : Bool
  /-- It waits to be sent again, with the SEQ it had, before every cell that has not left yet (R39). -/
  again : Bool
  deriving DecidableEq, Repr

/-- A downstream cell. -/
abbrev DownCell := Cell DownData

/-- An upstream cell. -/
abbrev UpCell := Cell UpData

/-- Host-side ledger state of an island (R56, R61). -/
structure Ledger where
  reqRung : BitVec 2
  reqHart : BitVec 2
  reqChar : Bool
  admRung : BitVec 2
  admHart : BitVec 2
  admChar : Bool
  /-- Grains charged to the island: of a fall in progress, still the old total (R56). -/
  admGr : Nat
  /-- Grains of the admitted rungs. -/
  nextGr : Nat
  /-- Grains that stand once the RUNG_ACT that is due arrives (R56). -/
  sentGr : Nat
  /-- A RUNG cell is out and RUNG_ACT has not come. -/
  pending : Bool
  /-- The admitted rungs wait for a RUNG cell: for grains of a rise, or for the RUNG_ACT of an earlier change (R56). -/
  waitGr : Bool
  clamped : Bool
  deriving DecidableEq, Repr

/-- Requests that wait for the arbiter, in order of arrival (R56). -/
inductive LedgerReq where
  | write (n : IslandNo) (w : Word) (m : Master)
  | resOk (n : IslandNo)
  | readmit (m : Master)
  | unpark (m : Master)
  /-- Park lowers every RUNNING island to rung 0 (R366). -/
  | park (m : Master)
  deriving DecidableEq, Repr

/-- The request that Park makes. -/
def LedgerReq.isPark : LedgerReq → Bool
  | .park _ => true | _ => false

/-- The output command in force in the island (R146, R172, R248, R268). raw: value is a raw code that was kept when a hold or
safe state ended and does not pass the characteristic engine again. -/
structure OutCmd where
  en : Bool
  alm : Bool
  value : BitVec 16
  raw : Bool
  /-- Who sent the word: a clamp of its VALUE counts to it (R172). -/
  req : Master := .link
  deriving DecidableEq, Repr

/-- The digital input stage (R131-R145, R17). -/
structure DigIn where
  /-- Where the terminal stands, before CFG.INV (R134). -/
  lvl : TermLevel
  raw : Bool
  qual : Bool
  indet : Bool
  /-- The comparator has left its biased state since the stage started (R134). -/
  crossed : Bool
  /-- The itk from which the qualifier counts the raw level (R132), and the tick from which the long-hold supervisor counts (R137). -/
  since : Tick
  longSince : Tick
  rise : Bool
  fall : Bool
  stillEdge : Bool
  gap : Bool
  cmp : Bool
  long : Bool
  brk : Bool
  curr : Byte
  riseSeen : Bool
  fallSeen : Bool
  /-- Latched edges that the counter is to count, behind the cells that land on the first itk after a stop (R144). -/
  riseDue : Bool
  fallDue : Bool
  /-- The next qualified change was already reported by the clockless latches (R138). -/
  reported : Bool
  count : Word
  span : Word
  edges : BitVec 16
  fValid : Bool
  fStop : Bool
  gEdges : Nat
  gFirst : Tick
  gLast : Tick
  gStop : Bool
  deriving DecidableEq, Repr

/-- The output stage of DO and DO_PWM (R146-R153). -/
structure DigOut where
  /-- The switch is on. -/
  sw : Bool
  /-- PWM: periods run, and the duty of the current one. -/
  run : Bool
  duty : BitVec 16
  /-- PWMS.EFF_PER. -/
  effPer : BitVec 20
  /-- The ticks of the latest switching edge, of the start of the PWM phase and of the latest check (R152). -/
  swAt : Tick
  phaseAt : Tick
  checkAt : Tick
  inrush : Bool
  short : Bool
  ovl : Bool
  hotSwitch : Bool
  cntOl : Nat
  cntStuck : Nat
  cntOff : Nat
  deriving DecidableEq, Repr

/-- The analog stage (R160-R179). value, valid and new are the host's image of the latest PRIMARY result; for a digital island
value is AV or ILOAD (R154, R188, R204). -/
structure Analog where
  value : BitVec 16
  valid : Bool
  new : Bool
  rawv : Bool
  ne : Fin 5
  neCand : Fin 5
  neCnt : Nat
  ovr : Bool
  opn : Bool
  /-- The latest verdict on the TB terminal of AO_V: left open (R170). -/
  tbOpen : Bool
  /-- The loop-power limiter is engaged, and the limiter in series with the burden conducts (R162, R163). -/
  loopOvl : Bool
  limiter : Bool
  stillCut : Bool
  clip : Bool
  driven : BitVec 16
  vlow : Bool
  vhigh : Bool
  cntLow : Nat
  cntHigh : Nat
  /-- Tick of the last change of the driven code, for VBLANK (R176). -/
  changed : Tick
  hotDriver : Bool
  /-- Code in force when FORCE set, for PSEL 0 (R174). -/
  forceHeld : BitVec 16
  deriving DecidableEq, Repr

/-- HART modem states (R187). -/
inductive HartState where
  | idle | tx | wait | rx
  deriving DecidableEq, Repr

/-- The HART overlay of an island (R181-R187). -/
structure Hart where
  st : HartState
  res : BitVec 4
  rxovr : Bool
  cd : Bool
  txovr : Bool
  rxlen : BitVec 9
  /-- Characters still to send: hardware framing (R185) or the raw queue (R186) with its LAST flags. -/
  txq : List (Byte × Bool)
  /-- Hardware framing is sending (rung 2). -/
  framed : Bool
  /-- LISTEN has armed the receiver (R187). -/
  armed : Bool
  /-- LAST of the byte that is being sent. -/
  lastSent : Bool
  /-- Preamble characters received in a row while hunting (R185). -/
  preamb : Nat
  /-- The delimiter has been stored; in raw mode a character since the last gap has arrived. -/
  storing : Bool
  /-- Bytes stored of the reception in progress. -/
  stored : Nat
  perr : Bool
  cksum : Byte
  /-- The declared rate as read when the transmission started or the receiver was armed (R182); of a transmission the tick of its start
  and the characters it has ended. -/
  rate : BitVec 18
  txAt : Tick
  txN : Nat
  /-- Host-side receive queue: byte, start flag, parity error (R186). -/
  rxq : List (Byte × Bool × Bool)
  deriving DecidableEq, Repr

/-- ADCSTAT.STATE (R207). -/
inductive AdcState where
  | off | idle | regular | injected
  deriving DecidableEq, Repr

/-- A result on its way to its slot (R190); last: it ends a round (1) or an injected group (2). -/
structure AdcReady where
  slot : Fin 20
  code : BitVec 18
  ovr : Bool
  redo : Bool
  last : Fin 3
  deriving DecidableEq, Repr

/-- The island converter and its sequencer (R190-R207). -/
structure Adc where
  st : AdcState
  cal : Bool
  refBad : Bool
  ipend : Bool
  rpend : Bool
  cur : BitVec 4
  /-- ADCSTAT.CUR: the entry that converts, or that converted last (R207). -/
  shown : BitVec 4
  round : BitVec 4
  tovr : Byte
  redo : Byte
  drop : Byte
  cskip : Byte
  /-- RSLT[0-15] at 0-15, ISLT[0-3] at 16-19. -/
  slots : Vector Word 20
  /-- A conversion is in progress. -/
  conv : Bool
  /-- Conversions done of the entry in progress, and the sum of their codes (R198). -/
  done : Nat
  sum : Int
  ovr : Bool
  /-- The entry in progress was restarted after a stop (R205). -/
  redone : Bool
  /-- Regular work pre-empted by a group: entry, conversions, sum, over-range and REDO kept (R200). -/
  saved : Option (BitVec 4 × Nat × Int × Bool × Bool)
  /-- A regular round is in progress. -/
  inRound : Bool
  /-- Host-assisted: the entry of a pending CONVERT (R202). -/
  convPend : Option (BitVec 4)
  /-- A calibration waits for the gap between two entries (R193). -/
  calPend : Bool
  calDone : Nat
  calSum : Int
  /-- Offset found by the last calibration (R193). -/
  zero : Int
  refFails : Nat
  /-- An entry whose result is to be written 2 itk after its conversion. -/
  ready : Option AdcReady
  /-- Ticks of the latest conversion start (R192) and round start (R195). -/
  convAt : Tick
  roundAt : Option Tick
  /-- A round that was due waits for a group or a calibration to end (R201). -/
  roundNew : Bool
  started : Bool
  /-- The latest LEAD and PRIMARY results as raw codes (R161, R203). -/
  lead : Option Int
  prim : Option Int
  deriving DecidableEq, Repr

/-- State-lane bits that go down to an island (R32). -/
structure DLane where
  out : Bool
  force : Bool
  psel : BitVec 2
  safe : Bool
  deriving DecidableEq, Repr

/-- State-lane levels that come up from an island (R32). -/
structure ULane where
  raw : Bool
  qual : Bool
  indet : Bool
  deriving DecidableEq, Repr

/-- State-lane changes on their way (R33, R245). -/
inductive Transit where
  /-- Levels of island n reach the host side. -/
  | up (n : IslandNo) (l : ULane)
  /-- An indication of island n reaches the host side and its event source pulses (R237), stamped with the tick given where the
  edge was latched in a stop (R17, R139); left: how many of its four symbols are still to come (R34). -/
  | ind (n : IslandNo) (src : BitVec 9) (stamp : Option Tick) (left : Fin 4)
  /-- Island n reports edges latched over a stop, for DI_CNT with a gap in its count (R138, R143). -/
  | still (n : IslandNo) (gap : Bool)
  /-- The reflex table's demand on island n enters the downstream lane (R245). -/
  | rfx (n : IslandNo) (d : DLane)
  /-- Downstream bits reach island n. -/
  | down (n : IslandNo) (d : DLane)
  /-- Image bits of island n reach the host image (R14, R26). -/
  | img (n : IslandNo) (w : Word)
  /-- From PREP to APPLY the image of island n repeats its last value (R121). -/
  | freeze (n : IslandNo)
  | thaw (n : IslandNo)
  /-- A VALUE of island n was limited (R172). -/
  | clip (n : IslandNo)
  /-- The characteristic engine of island n has mapped an output word (R178). -/
  | word (n : IslandNo) (c : OutCmd)
  /-- A test cell lands in island n (R402); it is a cell and no level, and has no row of its own. -/
  | test (n : IslandNo) (depth : Fin 5)
  deriving DecidableEq, Repr

/-- Safe-state logic of an island (R265, R266, R286). The state-lane SAFE bit as landed is the lane's. -/
structure SafeLogic where
  /-- SAFE mark detected by the controller. -/
  mark : Bool
  /-- The carrier stopped without a KILL mark (R46, R352). -/
  noCarrier : Bool
  /-- Channel fault of this channel. -/
  chFault : Bool
  /-- Island die protection (R391). -/
  therm : Bool
  held : BitVec 16
  /-- The tick of the entry that captured held: what row 5 or 6 gives on that tick counts (R147, R265). Of a held value that a promotion
  has copied, the last tick on which an entry keeps it (R344). -/
  heldAt : Option Tick
  /-- The controller's copy of CODE and PRESET (R266). -/
  ctlCode : BitVec 3
  ctlPreset : BitVec 16
  deriving DecidableEq, Repr

/-- TEST.ILOOP[n] and TEST.IRES[n] (R410). -/
structure Loopback where
  pattern : BitVec 16
  term : BitVec 2
  peer : Bool
  depth : Fin 5
  st : BitVec 2
  pass : Bool
  reason : BitVec 4
  code : BitVec 18
  /-- Tick on which the ECHO cell's slot starts, or the request tick until it leaves (R401). -/
  start : Tick
  /-- The tick on which the island writes the result of a measurement in service hold (R404), once its test cell has landed. -/
  doneAt : Option Tick
  /-- It drives a cross loop and holds its peer (R405). -/
  cross : Bool
  deriving DecidableEq, Repr

/-- One island with the host-side state that serves it. -/
structure Island where
  power : IslPower
  en : Bool
  cvOk : Bool
  /-- The passive discharge path connects CV to GF (R45). -/
  discharge : Bool
  /-- LEDGER_RSV.CHARGING, the reserve grant, and whether the island waits for a charging place (R48). -/
  charging : Bool
  rsv : Nat
  waitCharge : Bool
  /-- Grains and reserve grants of earlier kills or losses, the oldest first: each returns 512 tk after its kill (R43, R415). -/
  held : List (Nat × Nat)
  led : Ledger
  /-- The arbiter's registers as they cross to the register file: what it held at its latest edge of HCK/4, and at the one before,
  which is what a read shows (R20, R21). -/
  ledOut : Ledger
  ledSeen : Ledger
  /-- HOST.ISLAND_POWER.EN has been written 0, or the island was lost, and EN has not been written 1 since (R269). -/
  down0 : Bool
  cellDrop : Byte
  cellRetry : Byte
  symErr : Byte
  /-- How many of its next upstream symbols fail parity at the host side: a condition of the coupler, which no row sets (R34, R61,
  log entry 51), and how many in a row have failed (R42). -/
  noise : Nat
  symBad : Nat
  /-- Queues and sequence numbers of the data coupler (R35-R40). -/
  down : List DownCell
  up : List UpCell
  /-- Reads whose RADDR has landed, oldest first: requester and address. -/
  reads : List (Master × Word)
  dnTx : BitVec 2
  dnRx : BitVec 2
  upTx : BitVec 2
  upRx : BitVec 2
  /-- OUT as the host side holds it without FORCE (R146, R248). -/
  outBit : Bool
  /-- The reflex demand in the downstream lane, and orphaned holds (R245, R246, R122). -/
  rfx : DLane
  orphForce : Bool
  orphOut : Bool
  orphPsel : BitVec 2
  orphSafe : Bool
  /-- The downstream lane at the host side, as delivered to the island, and the upstream lane at the host side (R33). -/
  laneDn : DLane
  lane : DLane
  host : ULane
  /-- The last OUTWORD was dropped (R84). -/
  stale : Bool
  /-- EVENTS bits since the last CYCLE sample point (R83). -/
  cos : Bool
  diagEv : Bool
  imgFrozen : Option Word
  /-- The image bits that the island holds, as last sent and as the host side has them, 12 tk later (R14, R26). -/
  imgSent : Word
  img : Word
  rstream : List Word
  rsOvr : Byte
  /-- The write whose WADDR cell went last into the queue: its master, and the byte address of the WDATA that follows (R35, R255). -/
  wrun : Option (Master × Nat)
  /-- The power window that runs: the island has been powered all through it, and the largest grains plus grant in force (R58). -/
  winWhole : Bool
  winMax : Nat
  /-- The window that has ended: still to be judged, its largest grains plus grant, and how many judged windows in a row have
  exceeded. -/
  winJudge : Bool
  winPrev : Nat
  winBad : Nat
  slateFail : Bool
  /-- Rungs in force in the island, and a switch in progress (R56). -/
  rungs : Rungs
  rungNext : Option Rungs
  /-- Record cells are on their way to an island that has just entered RUNNING (R120). -/
  recOut : Bool
  /-- The island's copy of its record, its shadow until APPLY, and island SRAM words until APPLY (R118, R120). -/
  recd : Words
  recShadow : Option Words
  mem : List Host.Cell
  waddr : Word
  prep : Bool
  shadow : Bool
  /-- Service hold of a loopback depth 2-4 (R402). -/
  hold : Bool
  safe : SafeLogic
  cmd : OutCmd
  /-- The last output word or command that landed (R338). -/
  lastOut : Word
  /-- After a SOLO commit an island keeps its shadow stage until the first word lands (R334). -/
  shadowUntilCmd : Bool
  din : DigIn
  dout : DigOut
  ana : Analog
  hart : Hart
  /-- HSTAT as it crosses from the modem: at the latest edge of HCK/4, and at the one before, which a read shows (R20, R21). -/
  hstatOut : Word
  hstatSeen : Word
  adc : Adc
  diag : BitVec 11
  adiag : Byte
  vfLow : Bool
  loop : Loopback
  deriving DecidableEq, Repr

/-! ## The Igwin link -/

/-- Link states (R66). -/
inductive LinkState where
  | untrained | lock | echo | ready
  deriving DecidableEq, Repr

/-- A downstream frame whose header has been recognised. -/
structure CurFrame where
  hdr : Word
  shortTail : Bool
  tick : Tick
  /-- ISLMAP, EVENTS and IMG words on the header tick (R75). -/
  snap : List Word
  /-- A reset of level K2 or K3 came since its header: it is discarded (R355). -/
  void : Bool
  /-- The command queue had no place for it at its CRC check (R78). -/
  busy : Bool
  deriving DecidableEq, Repr

/-- A command frame in the command queue (R78). -/
structure CmdFrame where
  type : BitVec 4
  seq : BitVec 4
  payload : List Word
  /-- Payload index of the next word to execute, and whether a word of the frame has failed. -/
  idx : Nat
  stop : Bool
  /-- The tick on which its header was complete (R25). -/
  seen : Tick
  deriving DecidableEq, Repr

/-- A word of the read queue; wait names the island whose answer is still out (R86). -/
structure ReadWord where
  val : Word
  err : Bool
  wait : Option IslandNo
  deriving DecidableEq, Repr

/-- The link interface (R62-R101). -/
structure Link where
  st : LinkState
  lmode : Bool
  tap0 : BitVec 4
  tap1 : BitVec 4
  expSeq : BitVec 4
  eFree : Bool
  queue : List CmdFrame
  readq : List ReadWord
  last : List ReadWord
  replay : Bool
  downLimit : Byte
  bad : Nat
  loopReq : BitVec 3
  loopAct : BitVec 3
  retrain : Bool
  errCrc : Byte
  errSeq : Byte
  errSync : Byte
  errFormat : Byte
  evDup : Byte
  evBusy : Byte
  evDown : Byte
  evShort : Byte
  xseq : BitVec 4
  xtype : BitVec 4
  xword : BitVec 11
  xerr : Bool
  pseq : BitVec 4
  pres : BitVec 4
  cur : Option CurFrame
  /-- The deframer does not hunt: a SYNC or FORMAT error has come, and no 16 idle ticks since (R65). -/
  deaf : Bool
  /-- Upstream words of the current twin, and the tick on which the first starts (R72, R83). -/
  twin : List Word
  twinAt : Tick
  /-- The tick of the lock on TP, a boundary of the locked words, which keeps their offset; and the tick of ECHO, from whose next word
  boundary on TP goes upstream (R66, R67). -/
  lockAt : Tick
  echoAt : Tick
  /-- The slot grid of the cells is aligned to this tick, and the ticks of the last slot starts (R36). -/
  grid : Tick
  slotDn : Option Tick
  slotUp : Option Tick
  /-- The first tick after the tail of the latest transaction (R14). -/
  tail : Tick
  /-- In bring-up mode, the first tick on which CS_N is high again (R99, R100). -/
  csEnd : Tick
  /-- The tick of the latest access of a link word, and the SRAM bank or register that it took (R80, R210). -/
  touch : Option (Tick × Nat)
  deriving DecidableEq, Repr

/-! ## The slate engine -/

/-- SLATE.STAT.STATE (R114). -/
inductive SlateState where
  | empty | loading | loaded | verifying | verified | failed | committing
  deriving DecidableEq, Repr

/-- A key slot (R110). -/
inductive KeySlot where
  | empty
  | set (key : List Word)
  | revoked
  deriving DecidableEq, Repr

/-- The slate engine (R103-R127). -/
structure Slate where
  st : SlateState
  owner : Option Master
  /-- Staged words, the first one first. -/
  staged : List Word
  fromNvm : Bool
  total : Nat
  err : Byte
  errSec : Byte
  badcmd : Bool
  sections : BitVec 16
  clamps : BitVec 16
  committed : Bool
  authed : Bool
  rateMatch : Bool
  id : Word
  schema : BitVec 16
  ctick : Tick
  /-- T_C of the commit that runs. -/
  tc : Tick
  nvmaddr : BitVec 19
  /-- LOAD_NVM: the word address it reads from, and its tick (R114). -/
  nvmFrom : BitVec 19
  loadAt : Tick
  /-- T_C has passed in the commit that runs (R118). -/
  switched : Bool
  /-- The commit's full pass has run. -/
  passed : Bool
  keydata : Vector Word 8
  keys : Vector KeySlot 8
  authReq : Bool
  kbusy : Bool
  kres : BitVec 3
  /-- The ISLMEM words of the committed slate: island, byte offset and word (R120). -/
  islmem : List (IslandNo × Nat × Word)
  deriving DecidableEq, Repr

/-! ## Events, DMA -/

/-- The event fabric, timers and reflex table (R236-R249). -/
structure Events where
  div : Vector Byte 256
  active : BitVec 64
  /-- The tick of each timer's next pulse, if it runs (R241, R242). -/
  tmr : Vector (Option Tick) 16
  drop : Vector Byte 16
  /-- The tick of each reflex entry's latest trigger (R247). -/
  trig : Vector (Option Tick) 64
  /-- Lines whose pulse on this tick carries an earlier stamp (R17, R139). -/
  stamp : List (BitVec 8 × Tick)
  /-- Lines that have pulsed on this tick: each carries at most one pulse (R239). -/
  pulsed : List (BitVec 8)
  /-- ADC commands that the trigger map queues on the next tick (R243). -/
  trigs : List (IslandNo × BitVec 4)
  deriving DecidableEq, Repr

/-- DMA channel states (R250). -/
inductive DmaState where
  | idle | fetch | wait | move | done | error
  deriving DecidableEq, Repr

/-- One DMA channel (R250-R263). -/
structure Channel where
  st : DmaState
  err : BitVec 3
  ares : BitVec 2
  ppend : Bool
  povr : Byte
  head : Word
  tail : Word
  cur : Word
  remain : BitVec 16
  words : Word
  src : Word
  dst : Word
  lenf : Word
  link : Word
  /-- Descriptors whose LINK word has been read since the channel was last started (R257). -/
  seen : List Word
  /-- The channel works on its template. -/
  tpl : Bool
  /-- A word read and not yet written; scaled tells whether the scaler has done its part (R256). -/
  buf : Option Word
  scaled : Bool
  /-- Words of island SRAM that have come behind it, and the number of reads that are out (R255). -/
  more : List Word
  reading : Nat
  /-- Movement starts on this tick (R254). -/
  goAt : Tick
  /-- Descriptor words read so far of the fetch in progress (R253). -/
  fetched : Nat
  deriving DecidableEq, Repr

/-! ## The Facet core -/

/-- TSTAT.STATE (R213). -/
inductive CtxState where
  | free | run | wait | stall | faulted
  deriving DecidableEq, Repr

/-- How a loaded value is narrowed (R234). -/
inductive LoadKind where
  | word | half | halfU | byte | byteU
  deriving DecidableEq, Repr

/-- Why a context is stalled (R209, R229-R232). -/
inductive Stall where
  | none
  /-- A multi-slot instruction whose result is ready at its end. -/
  | multi (rd : RegNo) (v : Word)
  /-- An island load: register, kind, byte address; the answer once it is back, or its failure. -/
  | load (rd : RegNo) (k : LoadKind) (n : IslandNo) (addr : Word) (ans : Option Word) (failed : Bool)
  /-- A load that found the island's queue full. -/
  | loadq (rd : RegNo) (k : LoadKind) (n : IslandNo) (addr : Word)
  /-- A store that found the island's queue full. -/
  | store (n : IslandNo) (addr : Word) (v : Word) (lanes : BitVec 4)
  /-- An OUTC that found the island's queue full. -/
  | outc (rd : RegNo) (n : IslandNo) (v : Word)
  | fence (rd : RegNo)
  deriving DecidableEq, Repr

/-- An instruction that accesses host-die memory, registers, a lock or the image has issued and its access is still to come, on s + 3,
or on s + 4 behind one of the link (R210, R225, R228). -/
inductive Flight where
  | none | issued | late
  deriving DecidableEq, Repr

/-- One context of the Facet core (R208-R235). -/
structure Ctx where
  st : CtxState
  regs : Vector Word 16
  pc : Word
  killed : Bool
  eovr : Bool
  ierr : Bool
  pwerr : Bool
  el : Bool
  elTick : Tick
  w : Byte
  warm : Bool
  cause : BitVec 3
  exit : Word
  cnt : Word
  snap : Word
  stall : Stall
  /-- WFE's destination register while parked. -/
  wrd : RegNo
  /-- Island writes that failed since the last FENCE (R232). -/
  fails : Nat
  /-- After a JOIN or a kill the context may be taken again from this tick (R215, R217). -/
  freeAt : Tick
  /-- It has been started and has not issued yet; the tick of its first issue (R217). -/
  starting : Bool
  startAt : Tick
  /-- The access of the instruction that has issued (R210). -/
  flight : Flight
  /-- Registers and PC of an instruction in flight whose context has been reset or started again: it completes with them (R215). -/
  old : Option (Vector Word 16 × Word)
  /-- Stores and output commands that had issued and waited for a full queue when the context ended (R215). -/
  left : List Stall
  /-- What the context was when it ended: STATE shows it until the context is FREE (R213). -/
  wasSt : CtxState
  /-- The tick of the latest WATCH: pulses count from the next one on (R221). -/
  watchAt : Option Tick
  /-- The tick on which a stall or a wait ended: it issues in its first own slot behind it (R213, R222). -/
  wokeAt : Option Tick
  deriving DecidableEq, Repr

/-- A lock of the lock unit (R224). -/
structure Lock where
  owner : Option CtxNo
  poison : Bool
  deriving DecidableEq, Repr

/-- The Facet core. -/
structure Facet where
  ctx : Vector Ctx 8
  locks : Vector Lock 64
  launchPc : Word
  launchArg : Word
  lfail : Bool
  lreason : BitVec 2
  lctx : BitVec 3
  hslots : Word
  /-- The tick of the latest thread access and the SRAM bank that it took (R210, R255). -/
  touch : Option (Tick × Nat)
  deriving DecidableEq, Repr

/-! ## Protection -/

/-- Reasons of a Flint expiry (R287). -/
inductive ExpReason where
  | none | early | badkey | late | boot
  deriving DecidableEq, Repr

/-- FLINT channel STAT.STATE; CLOSED and OPEN follow from the elapsed count (R278, R287). -/
inductive FlintState where
  | off | running | expired
  deriving DecidableEq, Repr

/-- One Flint channel (R277-R281). -/
structure FlintCh where
  st : FlintState
  /-- Tick of the last accepted kick or of the start: elapsed is the ticks since then. -/
  start : Tick
  /-- Elapsed count of an expired channel, which stands (R281). -/
  stood : Tick
  q : BitVec 16
  qstale : Bool
  /-- A question that is on its way to Q, and the tick on which it is ready (R278, R280). -/
  qnew : Option (Tick × BitVec 16)
  deriving DecidableEq, Repr

/-- Flint (R277-R287). -/
structure Flint where
  host : FlintCh
  core : FlintCh
  lastTick : BitVec 16
  hostReason : ExpReason
  coreReason : ExpReason
  chan : BitVec 2
  pend : BitVec 2
  armed : Bool
  /-- A K3 reset is due (R281). -/
  resetDue : Bool
  deriving DecidableEq, Repr

/-- Safe-state latches and demands of the host die (R269-R276, R285, R407). -/
structure Safety where
  still : Bool
  safeN : Bool
  flint : Bool
  cmd : BitVec 16
  charged : Bool
  scanMark : Bool
  safePin : Bool
  /-- SAFE_N has been high for at least 0.5 us (R276). -/
  safeHigh : Bool
  /-- A latch that set while HCK stood still, to be captured on the first tick after it (R270). -/
  recStill : Bool
  recSafeN : Bool
  deriving DecidableEq, Repr

/-- A fault as the collector holds it (R293, R295). -/
structure FaultRec where
  seq : BitVec 16
  src : Byte
  mid : Byte
  typ : BitVec 4
  cls : BitVec 2
  dec : BitVec 2
  inj : Bool
  capt : Bool
  kind : Byte
  addr : Word
  /-- The tick stamp, which for a link fault is its header tick (R95), and the tick on which the fault reached the collector. -/
  tick : Tick
  came : Tick
  detail : Word
  /-- The tag of a fault in the decision queue (R292). -/
  dtag : Byte
  /-- The tick on which its class acts: of a queued fault, the end of its grace time (R290, R292). -/
  act : Tick
  /-- ALERT, RECLAIM, HA and CLASS of its source's matrix word when it was captured (R121, R291). Log entry 16. -/
  mtx : BitVec 5
  deriving DecidableEq, Repr

/-- The fault collector (R288-R304). -/
structure Collector where
  lockout : Bool
  halt : Bool
  feValid : Bool
  fe : FaultRec
  feMore : Byte
  dlate : Bool
  chFault : BitVec 16
  dq : List FaultRec
  dtag : Byte
  /-- Faults whose class acts on their tick (R290). -/
  react : List FaultRec
  /-- Records waiting for the writer (R296), and how many words of the first are written, at which address. -/
  logq : List FaultRec
  logWord : Nat
  logAddr : Nat
  /-- The ring has changed since that record was begun (R296). -/
  logMoved : Bool
  seq : BitVec 16
  index : BitVec 16
  lost : BitVec 16
  /-- The tick of the latest restart of the quiet period (R297). -/
  restart : Tick
  hist : List Tick
  rpend : BitVec 2
  injSrc : Byte
  injMid : Byte
  escalating : Bool
  deriving DecidableEq, Repr

/-! ## Non-volatile store -/

/-- NVM.STAT.STATE (R327). -/
inductive NvmState where
  | idle | busy | stepWait | recovering | scan
  deriving DecidableEq, Repr

/-- OP codes of the intent journal (R312). -/
inductive NvmKind where
  | erase | program | mark | key | keyErase
  deriving DecidableEq, Repr

/-- What an operation does when it ends, beside its flash. -/
inductive NvmAfter where
  | plain
  | keySet (k : Fin 8) (key : List Word)
  | keyRevoke (k : Fin 8)
  | keyEraseAll
  | authReq
  | count (id : Fin 7)
  | trial
  | confirmed
  | append
  /-- The torn sector of the intent journal is erased, without an intent (R314). -/
  | journal
  deriving DecidableEq, Repr

/-- One erase or program under its own intent (R312). -/
structure NvmJob where
  kind : NvmKind
  target : Nat
  data : List Byte
  after : NvmAfter
  deriving DecidableEq, Repr

/-- Where the job in progress stands. -/
inductive NvmPhase where
  /-- A sector of the intent journal is erased, before an INTENT or a DONE record (R314). -/
  | journalErase (forDone : Bool)
  | intent
  /-- An erase verifies its sector before its first slice (R308). -/
  | check
  | body | done
  /-- The image of a bank is checked before its WRITTEN mark (R319). -/
  | image (b : Bank)
  deriving DecidableEq, Repr

/-- An open intent (R313). -/
structure Intent where
  seq : Word
  kind : NvmKind
  target : Nat
  /-- Bytes of the data, which DCRC covers. -/
  len : Nat
  dcrc : Word
  mid : Byte
  /-- The tick on which its operation started (R312). -/
  began : Tick
  after : NvmAfter
  /-- The effect of its body has taken place: only its DONE record is missing (R312, R313). -/
  applied : Bool
  /-- A reset cut it (R317). -/
  cut : Bool
  deriving DecidableEq, Repr

/-- The NVM controller and its store (R305-R327). -/
structure Nvm where
  mem : List Host.Cell
  st : NvmState
  res : BitVec 5
  active : Bank
  booted : Bool
  bootw : Bool
  steps : BitVec 16
  pulses : Nat
  units : Nat
  phase : NvmPhase
  /-- The tick on which the step in progress ends: a slice, the first verify of an erase, or the check of an image (R308, R319). -/
  sliceAt : Tick
  /-- The next slice does not start, since a reset waits for the end of the last one (R281, R354). -/
  held : Bool
  jobs : List NvmJob
  stopAfter : Option (BitVec 5)
  isKey : Bool
  /-- RATE as the operation holds it (R308). -/
  rate : BitVec 18
  /-- SEQ of the intent in progress, and the STATUS that its DONE record gets (R312). -/
  cur : Word
  status : Byte
  /-- The tick on which the operation of that intent started (R312). -/
  began : Tick
  /-- The job in progress closes an open intent (R313). -/
  redo : Bool
  addr : BitVec 19
  skey : BitVec 16
  slen : BitVec 6
  hwstep : Word
  owner : Byte
  erraddr : BitVec 21
  smin : Word
  sseq : Word
  spos : Nat
  badA : Bool
  badB : Bool
  rejectA : Bool
  rejectB : Bool
  rcnt : Vector Word 7
  cpend : BitVec 7
  cseq : Word
  cpos : Nat
  jpos : Nat
  iseq : Word
  /-- The next sector of the intent journal is neither blank nor valid: its erase was cut (R314). -/
  jtorn : Bool
  /-- The store has been scanned since the last K4 reset, and the fields that a scan finds show it (R313, R327, R411). -/
  scanned : Bool
  intents : List Intent
  pbuf : Vector Word 64
  /-- Counter 5 waits for the first declaration of a rate of 50 000 or more since the last K4 reset (R315). -/
  bootDue : Bool
  deriving DecidableEq, Repr

/-! ## Tandem pairs -/

/-- Tandem roles (R334). -/
inductive Role where
  | solo | active | standby
  deriving DecidableEq, Repr

/-- TANDEM.STAT.LINK (R348). -/
inductive TLink where
  | off | training | ready | lost
  deriving DecidableEq, Repr

/-- Steps of a switch-over (R342). -/
inductive Handover where
  | none
  /-- Promoting device: waits for ACK. -/
  | awaitAck
  /-- Waits for GAP x 64 tk. -/
  | gap
  deriving DecidableEq, Repr

/-- The tandem interface (R328-R348). -/
structure Tandem where
  role : Role
  link : TLink
  stale : Bool
  mismatch : Bool
  nocopy : Bool
  pbusy : Bool
  /-- A former active owes its partner an ACK, 64 tk after its SHADOW cells have been acknowledged (R342). -/
  ackDue : Bool
  /-- The payload of that ACK: EPOCH of the final record, or 0xFFFF_FFFF for none (R332). -/
  final : Word
  cres : BitVec 4
  prole : Role
  epochTx : Word
  epochRx : Word
  rxtick : Tick
  perr : Byte
  partials : Byte
  defer : Byte
  hskip : Byte
  hrdy : Bool
  hbuf : Vector Word 36
  /-- Payload of the copy the standby holds (R339). -/
  copy : List Word
  /-- Recognised CYCLE frames since the previous boundary; none before the first boundary (R337). -/
  frames : Option Nat
  deferred : Bool
  hand : Handover
  /-- Frames sent, the latest last: the tick on which the header starts, and the words with the CRC (R329). -/
  sent : List (Tick × List Word)
  /-- Tick until which the transmitter is busy, and until which it sends the latest record (R333, R337). -/
  txBusy : Tick
  recEnd : Tick
  /-- The receiver has locked, and the partner sends TPL or idle (R330). -/
  locked : Bool
  peerTpl : Bool
  /-- The link was lost and has not been restored (R333). -/
  lostOnce : Bool
  /-- The role row of a commit that waits for PBUSY (R334). -/
  commitWait : Bool
  dual : Bool
  deriving DecidableEq, Repr

/-! ## Power, reset, test -/

/-- HOST.PSTATE.STATE, with the way into DORMANT (R366). -/
inductive PState where
  | run | parking | park | toDormant | dormant
  deriving DecidableEq, Repr

/-- A K4 reset cause and what HOST.RCAUSE records (R353, R372). -/
inductive Cause where
  | powerOn | brownOut | prsnt | rstN | thermal | flint | soft
  deriving DecidableEq, Repr

/-- TAP instructions (R406). -/
inductive TapInstr where
  | extest | idcode | sample | highz | clamp | bypass
  deriving DecidableEq, Repr

/-- Power, reset, boot and test state (R349-R372, R406-R410). -/
structure Power where
  hck : Bool
  /-- A K4 reset is asserted. -/
  k4 : Bool
  /-- The cause of the K4 reset that is asserted or deferred. -/
  k4cause : Cause
  /-- A K4 reset is deferred until RELEASE has left (R350). -/
  deferral : Bool
  /-- VH was taken away since the last release (R371). -/
  vhLost : Bool
  k2due : Bool
  rcause : Cause
  k1cnt : Byte
  k0cnt : Byte
  phase : BitVec 4
  bank : Bool
  skipped : Bool
  berr : Byte
  ps : PState
  /-- STATE as it reads on the way into DORMANT: the state that was left (R366). -/
  psWas : BitVec 2
  refused : Bool
  resume : BitVec 16
  vmicaOk : Bool
  prsntLow : Bool
  hot : Bool
  above115 : Bool
  /-- LMODE is high: the level of the land, which is static (R388). -/
  lmodeHigh : Bool
  almh0 : Bool
  almh1 : Bool
  testLow : Bool
  ftm : Bool
  ustep : BitVec 2
  /-- The TAP's instruction register (R406). -/
  ir : BitVec 4
  /-- The phase that the boot ROM is in, which a K0 or K1 reset does not change (R357). -/
  bootStep : BitVec 4
  /-- The bank that SELECT has picked. -/
  bootSel : Option (Bank × Bool)
  /-- The boot ROM's next action in its phase, and its tick (R357). -/
  bootAt : Option Tick
  /-- The first tick after the latest stop of HCK, until what the stop kept has been dealt with (R17, R138). -/
  resumeAt : Option Tick
  deriving DecidableEq, Repr

/-! ## The whole machine -/

/-- What of a tick has passed: the cells, lanes and rows that come on it, or also the block's own work (log entry 34). -/
inductive TickPart where
  | rows | work
  deriving DecidableEq, Repr

/-- The SH16. -/
structure State where
  /-- Commands waiting, the first one in front. -/
  pending : List Instr
  /-- The calendar: commands the block owes itself, with the tick on which each joins the queue (log entry 2). -/
  due : List (Tick × Instr)
  /-- State-lane changes on their way, with the tick on which each arrives (R33). -/
  transit : List (Tick × Transit)
  /-- The member of the family; no command changes it (R2). Log entry 4. -/
  member : Member
  /-- The tick counter and the TICK_HI snapshot (R25). -/
  tick : Tick
  part : TickPart
  snapHi : Word
  rate : BitVec 18
  /-- Slate-written register words of the committed configuration (R102). -/
  cfg : Words
  isl : Vector Island 16
  /-- LEDGER_STAT.BUSY (R60). -/
  busy : Bool
  /-- BUSY as it crosses to the register file (R20, R21). -/
  busyOut : Bool
  busySeen : Bool
  rsvOut : Word
  rsvSeen : Word
  /-- Requests to the ledger arbiter, each with the tick from which the arbiter has it (R21). -/
  ledq : List (Tick × LedgerReq)
  clampLink : BitVec 16
  clampT : Vector (BitVec 16) 8
  clampSlate : BitVec 16
  clampDma : BitVec 16
  link : Link
  slate : Slate
  evt : Events
  dma : Vector Channel 16
  /-- The channel the data mover served last (R255). -/
  moved : ChNo
  /-- The tick on which the last write of APPEND is served: they are served one per tick (R257). -/
  appendAt : Option Tick
  /-- A read of the NVM window that the data mover works on, and its last tick (R255). -/
  nvmRd : Option (ChNo × Tick)
  facet : Facet
  flint : Flint
  safe : Safety
  fault : Collector
  nvm : Nvm
  tan : Tandem
  pow : Power
  /-- Main SRAM in canonical form. -/
  mem : List Host.Cell
  /-- Counts the free values the machine has taken (log entry 6). -/
  free : Nat
  deriving DecidableEq, Repr

/-! ## Reset -/

/-- No rung admitted. -/
def Rungs.zero : Rungs := { rung := 0, hart := 0, char := 0 }

def Ledger.reset : Ledger :=
  { reqRung := 0, reqHart := 0, reqChar := false, admRung := 0, admHart := 0, admChar := false, admGr := 0, nextGr := 0,
    sentGr := 0, pending := false, waitGr := false, clamped := false }

def OutCmd.reset : OutCmd := { en := false, alm := false, value := 0, raw := false }

def DigIn.reset : DigIn :=
  { lvl := .band, raw := false, qual := false, indet := true, crossed := false, since := 0, longSince := 0, rise := false, fall := false, stillEdge := false, gap := false,
    cmp := false, long := false, brk := false, curr := 0, riseSeen := false, fallSeen := false, riseDue := false, fallDue := false, reported := false,
    count := 0, span := 0, edges := 0, fValid := false, fStop := false, gEdges := 0, gFirst := 0, gLast := 0,
    gStop := false }

def DigOut.reset : DigOut :=
  { sw := false, run := false, duty := 0, effPer := 0, swAt := 0, phaseAt := 0, checkAt := 0, inrush := false, short := false, ovl := false,
    hotSwitch := false, cntOl := 0, cntStuck := 0, cntOff := 0 }

def Analog.reset : Analog :=
  { value := 0, valid := false, new := false, rawv := false, ne := 0, neCand := 0, neCnt := 0, ovr := false,
    opn := false, tbOpen := false, loopOvl := false, limiter := false, stillCut := false, clip := false, driven := 0, vlow := false, vhigh := false, cntLow := 0,
    cntHigh := 0, changed := 0, hotDriver := false, forceHeld := 0 }

def Hart.reset : Hart :=
  { st := .idle, res := 0, rxovr := false, cd := false, txovr := false, rxlen := 0, txq := [], framed := false,
    armed := false, lastSent := false, preamb := 0, storing := false, stored := 0, perr := false, cksum := 0, rate := 0, txAt := 0, txN := 0, rxq := [] }

def Adc.reset : Adc :=
  { st := .off, cal := false, refBad := false, ipend := false, rpend := false, cur := 0, shown := 0, round := 0, tovr := 0,
    redo := 0, drop := 0, cskip := 0, slots := Vector.replicate 20 0, conv := false, done := 0, sum := 0, ovr := false,
    redone := false, saved := none, inRound := false, convPend := none, calPend := false, calDone := 0, calSum := 0,
    zero := 0, refFails := 0, ready := none,
    convAt := 0, roundAt := none, roundNew := false, started := false, lead := none, prim := none }

def DLane.zero : DLane := { out := false, force := false, psel := 0, safe := false }

def SafeLogic.reset : SafeLogic :=
  { mark := false, noCarrier := false, chFault := false, therm := false, held := 0, heldAt := none, ctlCode := 0,
    ctlPreset := 0 }

def Loopback.reset : Loopback :=
  { pattern := 0, term := 0, peer := false, depth := 0, st := 0, pass := false, reason := 0, code := 0, start := 0, doneAt := none, cross := false }

def Island.reset : Island :=
  { power := .bedrock, en := false, cvOk := false, discharge := true, charging := false, rsv := 0, waitCharge := false, held := [],
    led := Ledger.reset, ledOut := Ledger.reset, ledSeen := Ledger.reset, down0 := false, cellDrop := 0, cellRetry := 0, symErr := 0, noise := 0, symBad := 0, down := [], up := [], reads := [], dnTx := 0, dnRx := 0,
    upTx := 0, upRx := 0, outBit := false, rfx := DLane.zero, orphForce := false, orphOut := false, orphPsel := 0,
    orphSafe := false, laneDn := DLane.zero, lane := DLane.zero, host := { raw := false, qual := false, indet := true }, stale := false, cos := false, diagEv := false, imgFrozen := none, imgSent := 0, img := 0, rstream := [], rsOvr := 0, wrun := none,
    winWhole := false, winMax := 0, winJudge := false, winPrev := 0, winBad := 0, slateFail := false, rungs := Rungs.zero, rungNext := none, recOut := false, recd := [],
    recShadow := none, mem := [], waddr := 0, prep := false, shadow := false, hold := false, safe := SafeLogic.reset,
    cmd := OutCmd.reset, lastOut := 0, shadowUntilCmd := false, din := DigIn.reset, dout := DigOut.reset, ana := Analog.reset,
    hart := Hart.reset, hstatOut := 0, hstatSeen := 0, adc := Adc.reset, diag := 0, adiag := 0, vfLow := false, loop := Loopback.reset }

/-- The link after a K4 release; PRES is NONE (R66, R85). -/
def Link.reset : Link :=
  { st := .untrained, lmode := false, tap0 := 0, tap1 := 0, expSeq := 0, eFree := true, queue := [], readq := [],
    last := [], replay := false, downLimit := 16, bad := 0, loopReq := 0, loopAct := 0, retrain := false, errCrc := 0,
    errSeq := 0, errSync := 0, errFormat := 0, evDup := 0, evBusy := 0, evDown := 0, evShort := 0, xseq := 0,
    xtype := 0, xword := 0, xerr := false, pseq := 0, pres := 15, cur := none, deaf := false, twin := [], twinAt := 0,
    lockAt := 0, echoAt := 0, grid := 0, slotDn := none, slotUp := none, tail := 0, csEnd := 0, touch := none }

def Slate.reset : Slate :=
  { st := .empty, owner := none, staged := [], fromNvm := false, total := 0, err := 0, errSec := 0, badcmd := false,
    sections := 0, clamps := 0, committed := false, authed := false, rateMatch := false, id := 0, schema := 0,
    ctick := 0, tc := 0, nvmaddr := 0, nvmFrom := 0, loadAt := 0, switched := false, passed := false, keydata := Vector.replicate 8 0,
    keys := Vector.replicate 8 .empty, authReq := false, kbusy := false, kres := 0, islmem := [] }

def Events.reset : Events :=
  { div := Vector.replicate 256 0, active := 0, tmr := Vector.replicate 16 none, drop := Vector.replicate 16 0,
    trig := Vector.replicate 64 none, stamp := [], pulsed := [], trigs := [] }

def Channel.reset : Channel :=
  { st := .idle, err := 0, ares := 0, ppend := false, povr := 0, head := 0, tail := 0, cur := 0, remain := 0,
    words := 0, src := 0, dst := 0, lenf := 0, link := 0, seen := [], tpl := false, buf := none, scaled := false,
    more := [], reading := 0, goAt := 0, fetched := 0 }

def Ctx.reset : Ctx :=
  { st := .free, regs := Vector.replicate 16 0, pc := 0, killed := false, eovr := false, ierr := false, pwerr := false,
    el := false, elTick := 0, w := 0, warm := false, cause := 0, exit := 0, cnt := 0, snap := 0, stall := .none,
    wrd := 0, fails := 0, freeAt := 0, starting := false, startAt := 0, flight := .none, old := none, left := [],
    wasSt := .free, watchAt := none, wokeAt := none }

/-- Context 0 after a K2, K3 or K4 reset: at the boot ROM entry (R214, R235). -/
def Ctx.boot : Ctx := { Ctx.reset with st := .run, pc := 0x3F00_0000 }

def Facet.reset : Facet :=
  { ctx := (Vector.replicate 8 Ctx.reset).set 0 Ctx.boot, locks := Vector.replicate 64 { owner := none, poison := false },
    launchPc := 0, launchArg := 0, lfail := false, lreason := 0, lctx := 0, hslots := 0, touch := none }

def FlintCh.reset : FlintCh := { st := .off, start := 0, stood := 0, q := 0, qstale := false, qnew := none }

def Flint.reset : Flint :=
  { host := FlintCh.reset, core := FlintCh.reset, lastTick := 0, hostReason := .none, coreReason := .none, chan := 0,
    pend := 0, armed := false, resetDue := false }

def Safety.reset : Safety :=
  { still := false, safeN := false, flint := false, cmd := 0, charged := false, scanMark := false, safePin := false,
    safeHigh := true, recStill := false, recSafeN := false }

def FaultRec.reset : FaultRec :=
  { seq := 0, src := 0, mid := 0, typ := 0, cls := 0, dec := 0, inj := false, capt := false, kind := 0, addr := 0,
    tick := 0, came := 0, detail := 0, dtag := 0, act := 0, mtx := 0 }

def Collector.reset : Collector :=
  { lockout := false, halt := false, feValid := false, fe := FaultRec.reset, feMore := 0, dlate := false, chFault := 0,
    dq := [], dtag := 0, react := [], logq := [], logWord := 0, logAddr := 0, logMoved := false, seq := 0, index := 0, lost := 0,
    restart := 0, hist := [], rpend := 0, injSrc := 0, injMid := 0, escalating := false }

/-- An erased part (R305). Log entry 10. -/
def Nvm.reset : Nvm :=
  { mem := [], st := .scan, res := 0, active := .bankA, booted := false, bootw := false, steps := 0, pulses := 0,
    units := 0, phase := .intent, sliceAt := 0, held := false, jobs := [], stopAfter := none, isKey := false, rate := 0, cur := 0, status := 0, began := 0, redo := false, addr := 0, skey := 0, slen := 0,
    hwstep := 0, owner := 0, erraddr := 0, smin := 0, sseq := 0, spos := 0, badA := false, badB := false,
    rejectA := false, rejectB := false, rcnt := Vector.replicate 7 0, cpend := 0, cseq := 0, cpos := 0, jpos := 0,
    iseq := 0, jtorn := false, scanned := false, intents := [], pbuf := Vector.replicate 64 0, bootDue := true }

def Tandem.reset : Tandem :=
  { role := .solo, link := .off, stale := false, mismatch := false, nocopy := false, pbusy := false, ackDue := false, final := 0, cres := 0,
    prole := .solo, epochTx := 0, epochRx := 0, rxtick := 0, perr := 0, partials := 0, defer := 0, hskip := 0,
    hrdy := false, hbuf := Vector.replicate 36 0, copy := [], frames := none, deferred := false, hand := .none,
    sent := [], txBusy := 0, recEnd := 0, locked := false, peerTpl := false, lostOnce := false, commitWait := false, dual := false }

/-- Power state at the release edge of a power-on: HCK runs, VH and VMICA are up, the card is present (R350). Log entry 5. -/
def Power.reset : Power :=
  { hck := true, k4 := false, k4cause := .powerOn, deferral := false, vhLost := false, k2due := false,
    rcause := .powerOn, k1cnt := 0, k0cnt := 0, phase := 0, bank := false, skipped := false, berr := 0, ps := .run, psWas := 0,
    refused := false, resume := 0, vmicaOk := true, prsntLow := true, hot := false, above115 := false, lmodeHigh := false, almh0 := false,
    almh1 := false, testLow := false, ftm := false, ustep := 0, ir := 1,
    bootStep := 0, bootSel := none, bootAt := none, resumeAt := none }

/-- The SH16 right after the release of a power-on K4 reset (R350, R351, R411): context 0 will start at tick 8 (R357), and
the journal scan ends within 40 960 tk (R313, log entry 2). -/
def State.reset : State :=
  { pending := [], due := [(8, .bootStart), (40960, .scanDone)], transit := [], member := .sh16, tick := 0, part := .rows, snapHi := 0, rate := 0,
    cfg := [], isl := Vector.replicate 16 Island.reset, busy := false, busyOut := false, busySeen := false, rsvOut := 0, rsvSeen := 0, ledq := [],
    clampLink := 0,
    clampT := Vector.replicate 8 0, clampSlate := 0, clampDma := 0, link := Link.reset, slate := Slate.reset,
    evt := Events.reset, dma := Vector.replicate 16 Channel.reset, moved := 15, appendAt := none, nvmRd := none, facet := Facet.reset,
    flint := Flint.reset, safe := Safety.reset, fault := Collector.reset, nvm := Nvm.reset, tan := Tandem.reset,
    pow := Power.reset, mem := [], free := 0 }

end Sys2Proof.Machine
end

