-- ==== Sys2Proof/Machine/Ops.lean ====
section
/-! DEFINITION. Named operations that the meanings share: sparse stores and memory, bit fields, the calendar, clamp counters,
event sources, raising a fault, island cells. -/

namespace Sys2Proof.Machine

/-! ## Sparse stores

One form serves SRAM, NVM, island SRAM and the register words of a slate: keys strictly rising, no entry equal to what an
unlisted key reads as. -/

/-- The value at a key; an unlisted key reads as d key. -/
def sget {α : Type} (d : Nat → α) : List (Nat × α) → Nat → α
  | [], a => d a
  | (x, v) :: r, a => if a = x then v else sget d r a

/-- Writes a key, keeping the canonical form: writing what an unlisted key reads as removes the entry. -/
def sput {α : Type} [DecidableEq α] (d : Nat → α) : List (Nat × α) → Nat → α → List (Nat × α)
  | [], a, v => if v = d a then [] else [(a, v)]
  | (x, y) :: r, a, v =>
    if a < x then (if v = d a then (x, y) :: r else (a, v) :: (x, y) :: r)
    else if a = x then (if v = d a then r else (a, v) :: r)
    else (x, y) :: sput d r a v

/-- The canonical form: strictly rising keys above the bound, no entry that reads as unlisted. -/
def swfFrom {α : Type} [DecidableEq α] (d : Nat → α) : Option Nat → List (Nat × α) → Bool
  | _, [] => true
  | lo, (x, v) :: r => (match lo with | none => true | some b => decide (b < x)) && decide (v ≠ d x) && swfFrom d (some x) r

/-- A sparse store is in canonical form. -/
def swf {α : Type} [DecidableEq α] (d : Nat → α) (m : List (Nat × α)) : Bool := swfFrom d none m

/-- SRAM, island SRAM: a memory of bytes of which an unlisted one reads 0 (log entry 7) is in canonical form. -/
def Memory.wf (m : List Host.Cell) : Bool := swf (fun _ => 0) m

/-! ## Bits and bytes -/

/-- Bits [lo + len - 1 : lo] of a word as a number. -/
def fld {w : Nat} (x : BitVec w) (lo len : Nat) : Nat := (x.toNat >>> lo) % 2 ^ len

/-- Byte k of a word, byte 0 the most significant (log entry 9). -/
def wordByte (w : Word) (k : Nat) : Byte := BitVec.ofNat 8 (w.toNat >>> (8 * (3 - k)))

/-- The word of four bytes, the first the most significant. -/
def bytesWord (a b c d : Byte) : Word := (a ++ b ++ c ++ d : BitVec 32)

/-- The bytes of words, the most significant byte of each first (R71). -/
def wordsBytes : List Word → List Byte
  | [] => []
  | w :: r => wordByte w 0 :: wordByte w 1 :: wordByte w 2 :: wordByte w 3 :: wordsBytes r

/-- A counter of w bits that saturates. -/
def satAdd {w : Nat} (x : BitVec w) (k : Nat) : BitVec w := BitVec.ofNat w (min (x.toNat + k) (2 ^ w - 1))

/-- 1 for true, 0 for false. -/
def b2n (b : Bool) : Nat := if b then 1 else 0

/-- A flag at its place in a word. -/
def bit (b : Bool) (k : Nat) : Nat := if b then 2 ^ k else 0

/-- A field value at its place in a register word. -/
def at_ (v lo : Nat) : Nat := v <<< lo

/-- Signed value limited to the range. -/
def clampInt (lo hi v : Int) : Int := max lo (min hi v)

/-! ## CRC -/

/-- One reflected step of CRC-32C (R71). -/
def crcBit (c : Word) : Word := if c.getLsbD 0 then (c >>> 1) ^^^ 0x82F63B78 else c >>> 1

/-- One byte of CRC-32C. -/
def crcByte (c : Word) (b : Byte) : Word :=
  crcBit (crcBit (crcBit (crcBit (crcBit (crcBit (crcBit (crcBit (c ^^^ b.setWidth 32))))))))

/-- CRC-32C over bytes (R71). -/
def crc32cBytes (l : List Byte) : Word := (l.foldl crcByte 0xFFFFFFFF) ^^^ 0xFFFFFFFF

/-- CRC-32C over words, the most significant byte of each first (R71). -/
def crc32c (l : List Word) : Word := crc32cBytes (wordsBytes l)

/-- One step of the cell CHECK, CRC-6 with x^6 + x + 1 (R35); bit 43 goes first (log entry 14). -/
def crc6Bit (c : BitVec 6) (b : Bool) : BitVec 6 := if c.getLsbD 5 != b then (c <<< 1) ^^^ 0x03 else c <<< 1

/-- CHECK over the bits given, most significant first (R35). -/
def crc6 (l : List Bool) : BitVec 6 := l.foldl crc6Bit 0

/-! ## Parts of the state -/

/-- Island n after f. -/
def State.modIsl (s : State) (n : IslandNo) (f : Island → Island) : State := { s with isl := s.isl.set n (f s.isl[n]) }

/-- Context t after f. -/
def State.modCtx (s : State) (t : CtxNo) (f : Ctx → Ctx) : State :=
  { s with facet := { s.facet with ctx := s.facet.ctx.set t (f s.facet.ctx[t]) } }

/-- Channel c after f. -/
def State.modCh (s : State) (c : ChNo) (f : Channel → Channel) : State := { s with dma := s.dma.set c (f s.dma[c]) }

/-- Power state after f. -/
def State.modPow (s : State) (f : Power → Power) : State := { s with pow := f s.pow }

def islands : List IslandNo := [0, 1, 2, 3, 4, 5, 6, 7, 8, 9, 10, 11, 12, 13, 14, 15]
def contexts : List CtxNo := [0, 1, 2, 3, 4, 5, 6, 7]
def channels : List ChNo := [0, 1, 2, 3, 4, 5, 6, 7, 8, 9, 10, 11, 12, 13, 14, 15]

/-- The island exists on the member (R3). -/
def State.present (s : State) (n : IslandNo) : Bool := decide (n.val < s.member.islands)

/-- The island is RUNNING. -/
def State.running (s : State) (n : IslandNo) : Bool := decide (s.isl[n].power = .running)

/-- The island is powered: CHARGING or RUNNING (R275). -/
def Island.powered (i : Island) : Bool := decide (i.power = .charging) || decide (i.power = .running)

/-! ## The calendar -/

/-- The command joins the queue on tick t; an entry that stands already is not doubled. -/
def State.oweAt (s : State) (t : Tick) (c : Instr) : State :=
  if s.due.contains (t, c) then s else { s with due := s.due ++ [(t, c)] }

/-- The command joins the queue k ticks from now. -/
def State.owe (s : State) (k : Nat) (c : Instr) : State := s.oweAt (s.tick + BitVec.ofNat 64 k) c

/-- Takes every owed entry of the command out of the calendar. -/
def State.cancel (s : State) (c : Instr) : State := { s with due := s.due.filter (fun e => e.2 ≠ c) }

/-- The command comes now: an owed entry of it is settled, one that is due if there is one. Log entry 11. -/
def State.settle (s : State) (c : Instr) : State :=
  { s with due :=
      if s.due.any (fun e => decide (e.2 = c) && decide (e.1 ≤ s.tick)) then
        s.due.eraseP (fun e => decide (e.2 = c) && decide (e.1 ≤ s.tick))
      else s.due.eraseP (fun e => decide (e.2 = c)) }

/-- Ticks to the next itk edge, an even tick: this one, if it is an edge that HCK still has (R20, R414). -/
def State.itk (s : State) : Nat :=
  if s.tick.getLsbD 0 then 1 else if s.pow.hck && decide (s.pow.resumeAt ≠ some (s.tick + 1)) then 0 else 2

/-- Ticks to the next edge of the HCK/4 domains, a multiple of 4 (R20). -/
def State.qtk (s : State) : Nat := (4 - s.tick.toNat % 4) % 4

/-- The later of two ticks. -/
def laterTick (a b : Tick) : Tick := if a < b then b else a

/-- The command is owed and its tick has come. -/
def State.isDue (s : State) (c : Instr) : Bool := s.due.any (fun e => decide (e.2 = c) && decide (e.1 ≤ s.tick))

/-- A fresh free value is taken (log entry 6). -/
def State.freed (s : State) : State := { s with free := s.free + 1 }

/-! ## Clocked logic -/

/-- HCK runs and no K4 reset is asserted: ticks pass (R13, R350). -/
def State.ticks (s : State) : Bool := s.pow.hck && !s.pow.k4

/-- Clocked logic acts: ticks pass, and the host die does not wait for the frames of a deferred K4 reset alone (R13, R16, R350). -/
def State.clocked (s : State) : Bool := s.ticks && !s.pow.deferral

/-- The answer of a row of clocked logic: while HCK stands nothing happens (R13, R16). -/
def State.act (s : State) (f : State → State) : Host.Outcome State Fault Refusal := .next (if s.clocked then f s else s)

/-- The answer of an event that needs no clock and that clocked logic takes: in a stop the command c waits for the next edge
(R414). -/
def State.taken (s : State) (c : Instr) (f : State → State) : Host.Outcome State Fault Refusal :=
  .next (if s.clocked then f (s.settle c) else if s.pow.k4 || s.pow.deferral then s else s.owe 1 c)

/-- The answer of a row whose tick the calendar fixes: before that tick nothing happens (log entry 11). -/
def State.timed (s : State) (c : Instr) (f : State → State) : Host.Outcome State Fault Refusal :=
  s.act fun s => if s.isDue c then f (s.settle c) else s

/-! ## The unlock sequence -/

/-- The word that the unlock sequence waits for (R408). -/
def unlockWord (step : BitVec 2) : Word :=
  if step = 0 then 0x7E57 else if step = 1 then 0x81A8 else 0xE75A

/-- A write of TEST.UNLOCK: three right words of the link in a row while TEST_N is low (R408). -/
def State.unlockWrite (s : State) (m : Master) (w : Word) : State :=
  s.modPow (fun p =>
    if m ≠ .link ∨ !p.testLow then { p with ustep := 0 }
    else if w = unlockWord p.ustep then
      (if p.ustep = 2 then { p with ustep := 0, ftm := true } else { p with ustep := p.ustep + 1 })
    else { p with ustep := 0 })

/-! ## Masters and clamp counters -/

/-- Master IDs (R289). -/
def mid : Master → Byte
  | .link => 0x00
  | .thread t => 0x10 + BitVec.ofNat 8 t.val
  | .dma c => 0x20 + BitVec.ofNat 8 c.val
  | .island n => 0x30 + BitVec.ofNat 8 n.val
  | .nvm => 0x40 | .slate => 0x41 | .tandem => 0x42 | .collector => 0x43 | .flint => 0x44 | .guard => 0x45
  | .safeN => 0x46 | .ledger => 0x47 | .thermal => 0x48

/-- Counts k clamps to the requester; a clamp no master caused goes to the slate engine (R124, R125). -/
def State.clamped (s : State) (m : Master) (k : Nat) : State :=
  match m with
  | .link => { s with clampLink := satAdd s.clampLink k }
  | .thread t => { s with clampT := s.clampT.set t (satAdd s.clampT[t] k) }
  | .dma _ => { s with clampDma := satAdd s.clampDma k }
  | _ => { s with clampSlate := satAdd s.clampSlate k }

/-! ## Slate-written register words -/

/-- First address of island n's register window (R61). -/
def islBase (n : IslandNo) : Nat := 0x0010_0000 + n.val * 0x1000

/-- The default matrix word of a fault source: class by the table of R288, ALERT for Lockout, RECLAIM for THREAD_EXC
(R291). -/
def matrixReset (src : Nat) : Word :=
  if src = 0x2B then 0x13
  else if src = 0x18 then 0x08
  else if src = 0x12 ∨ src = 0x31 ∨ src = 0x40 ∨ src = 0x41 ∨ src = 0x42 ∨ src = 0x4B then 0x01
  else 0

/-- Reset word of an ISL[n] register by its offset: CNT_CFG alone is not 0 (R155). -/
def islReset (off : Nat) : Word := if off = 0x48 then 0x101 else 0

/-- Reset words of the slate-written registers (R411 and the chapters' tables). -/
def cfgReset (m : Member) (a : Nat) : Word :=
  if a = 0x14C then 0x8000000B
  else if a = 0x4004 then 0xFF
  else if a = 0x5020 then 0x8
  else if a = 0x6024 then 0x100000
  else if a = 0x6028 then 0x10000
  else if a = 0x602C then 0x3
  else if a = 0x6030 then 0x10000
  else if a = 0x6038 then BitVec.ofNat 32 m.sharedBase
  else if a = 0x603C then 0x100
  else if 0x6100 ≤ a ∧ a < 0x6300 then matrixReset ((a - 0x6100) / 4)
  else if 0x3000 ≤ a ∧ a < 0x3400 ∧ a % 0x40 = 0x28 then 1
  else if 0x0010_0000 ≤ a ∧ a < 0x0011_0000 then islReset (a % 0x1000)
  else 0

/-- The slate-written part of the register word at address a, as committed. -/
def State.cfgAt (s : State) (a : Nat) : Word := sget (cfgReset s.member) s.cfg a

/-- The host copy of a record word of island n. -/
def State.recAt (s : State) (n : IslandNo) (off : Nat) : Word := s.cfgAt (islBase n + off)

/-- The word of the island's own record copy that is in force (R118, R120). -/
def Island.reg (i : Island) (off : Nat) : Word := sget islReset i.recd off

/-! ## Personalities -/

/-- The personality codes (R51, R61). -/
inductive Pers where
  | off | di | diWb | diCnt | dO | doPwm | aiI | aiV | aiRtd | aoI | aoV
  deriving DecidableEq, Repr

/-- Codes 0xB-0xF fall back to OFF (R61). -/
def Pers.ofCode (c : Nat) : Pers :=
  match c with
  | 1 => .di | 2 => .diWb | 3 => .diCnt | 4 => .dO | 5 => .doPwm | 6 => .aiI | 7 => .aiV | 8 => .aiRtd | 9 => .aoI
  | 10 => .aoV | _ => .off

def Pers.digIn : Pers → Bool
  | .di | .diWb | .diCnt => true | _ => false
def Pers.digOut : Pers → Bool
  | .dO | .doPwm => true | _ => false
def Pers.anaIn : Pers → Bool
  | .aiI | .aiV | .aiRtd => true | _ => false
def Pers.anaOut : Pers → Bool
  | .aoI | .aoV => true | _ => false
def Pers.output (p : Pers) : Bool := p.digOut || p.anaOut
def Pers.analog (p : Pers) : Bool := p.anaIn || p.anaOut
/-- Personalities that may carry HART (R52, R61). -/
def Pers.hart : Pers → Bool
  | .aiI | .aoI => true | _ => false

/-- Islands that take a shadow stage: outputs, and inputs whose stage would load the terminals (R335). -/
def shadows (p : Pers) : Bool := decide (p ≠ .off) && decide (p ≠ .aiV)

/-- Personality of a CFG word. -/
def persOf (cfg : Word) : Pers := Pers.ofCode (fld cfg 0 4)

/-- Personality in force in the island. -/
def Island.pers (i : Island) : Pers := persOf (i.reg 0)

/-- Personality of the island in the committed slate. -/
def State.pers (s : State) (n : IslandNo) : Pers := persOf (s.recAt n 0)

/-! ## Event sources -/

/-- The lines whose slate-written SRC field names the source (R236, R237). Line words with a source are not reset words, so
the sparse store lists them all. -/
def linesOf (s : State) (src : Nat) : List (BitVec 8) :=
  (s.cfg.filter (fun e => 0x2000 ≤ e.1 ∧ e.1 < 0x2400 ∧ fld e.2 0 9 = src)).map (fun e => BitVec.ofNat 8 ((e.1 - 0x2000) / 4))

/-- The source pulses k ticks from now: each of its lines takes the pulse on that tick (R236, R237). -/
def State.pulseIn (s : State) (k : Nat) (src : Nat) : State :=
  (linesOf s src).foldl (fun s l => s.owe k (.eventPulse l)) s

/-- The source pulses on this tick. -/
def State.pulse (s : State) (src : Nat) : State := s.pulseIn 0 src

/-! ## Raising a fault -/

/-- The matrix word of a source (R291). -/
def State.matrix (s : State) (src : Byte) : Word := s.cfgAt (0x6100 + 4 * src.toNat)

/-- Of the faults of tick t, those of a higher source number come one later than they were given (R294). -/
def later (t : Tick) (src : Byte) (l : List FaultRec) : List FaultRec :=
  l.map (fun r => if r.came = t ∧ src < r.src then { r with seq := r.seq + 1 } else r)

/-- Faults of this tick that have a higher source number than the one that comes (R294). -/
def Collector.above (f : Collector) (t : Tick) (src : Byte) : Nat :=
  (f.dq ++ f.react).countP (fun r => decide (r.came = t) && decide (src < r.src))

/-- A fault takes its number among those of its tick, which are numbered in ascending source order (R294, R295). -/
def Collector.number (f : Collector) (t : Tick) (src : Byte) : Collector × BitVec 16 :=
  ({ f with dq := later t src f.dq, react := later t src f.react, logq := later t src f.logq,
            fe := if f.feValid ∧ f.fe.came = t ∧ src < f.fe.src then { f.fe with seq := f.fe.seq + 1 } else f.fe, seq := f.seq + 1 },
   f.seq - BitVec.ofNat 16 (f.above t src))

/-- Puts a record among those that wait for the writer: behind those of earlier ticks and, on one tick, in ascending source
order (R294); the record that is being written keeps its place. -/
def logInsert (busy : Bool) (r : FaultRec) : List FaultRec → List FaultRec
  | [] => [r]
  | x :: l => if busy = false ∧ x.came = r.came ∧ r.src < x.src then r :: x :: l else x :: logInsert false r l

/-- A record goes to the log queue; where 16 wait, the last in the order of R294 is lost (R296). -/
def Collector.log (f : Collector) (r : FaultRec) : Collector :=
  { f with logq := (logInsert (decide (f.logWord ≠ 0)) r f.logq).take 16,
           lost := if f.logq.length < 16 then f.lost else satAdd f.lost 1 }

/-- Marks every held copy of fault number q as not captured (R294). -/
def uncapture (q : BitVec 16) (l : List FaultRec) : List FaultRec :=
  l.map (fun r => if r.seq = q then { r with capt := false } else r)

/-- First-error capture of R293 and, for several faults of one tick, R294: the lowest source is captured. -/
def Collector.capture (f : Collector) (r : FaultRec) : Collector × FaultRec :=
  if f.feValid = false then
    ({ f with feValid := true, fe := { r with capt := true } }, { r with capt := true })
  else if f.fe.came = r.came ∧ r.src < f.fe.src then
    ({ f with fe := { r with capt := true }, feMore := satAdd f.feMore 1, dq := uncapture f.fe.seq f.dq,
              react := uncapture f.fe.seq f.react, logq := uncapture f.fe.seq f.logq }, { r with capt := true })
  else ({ f with feMore := satAdd f.feMore 1 }, r)

/-- A fault reaches the collector on this tick with a stamp: it is captured or counted (R293), takes a number (R295), and its
reaction is owed on c + 4 (R290), or it waits for a decision (R292). -/
def State.raiseAt (s : State) (stamp : Tick) (src midv : Byte) (typ : BitVec 4) (kind : Byte) (addr detail : Word) (inj : Bool) :
    State :=
  let m := s.matrix src
  let ha := m.getLsbD 2
  let queued := ha && decide (s.fault.dq.length < 4)
  let grace := (s.cfgAt 0x6024).toNat
  let (f, q) := s.fault.number s.tick src
  let r : FaultRec :=
    { FaultRec.reset with
      seq := q, src := src, mid := midv, typ := typ, cls := if queued then 0 else m.extractLsb' 0 2,
      dec := if ha && !queued then 3 else 0, inj := inj, kind := kind, addr := addr, tick := stamp, came := s.tick,
      detail := detail, dtag := s.fault.dtag, act := s.tick + BitVec.ofNat 64 (if queued then grace else 4),
      mtx := m.extractLsb' 0 5 }
  let first := !s.fault.feValid
  let (f, r) := f.capture r
  let s := if first then s.pulse 0x123 else s
  if queued then
    ({ s with fault := { f with dq := f.dq ++ [r], dtag := f.dtag + 1 } }).owe grace (.graceExpiry r.dtag)
  else
    ({ s with fault := ({ f with react := f.react ++ [r] }).log r }).owe 4 .faultReaction

/-- A fault reaches the collector, stamped with this tick. -/
def State.raise (s : State) (src midv : Byte) (typ : BitVec 4) (kind : Byte) (addr detail : Word) (inj : Bool) : State :=
  s.raiseAt s.tick src midv typ kind addr detail inj

/-- A fault of a block of the host die that names no address or detail. -/
def State.raiseBy (s : State) (src : Byte) (m : Master) (typ : BitVec 4) (kind : Byte) (addr : Word) : State :=
  s.raise src (mid m) typ kind addr 0 false

/-- Kinds of access error (R288). -/
inductive AccErr where
  | addr | master | type | island
  deriving DecidableEq, Repr

def AccErr.src : AccErr → Byte
  | .addr => 0x08 | .master => 0x09 | .type => 0x0A | .island => 0x0B

/-- An access error of master m at an address; typ 1 read, 2 write, 3 fetch (R288, R289, R293). -/
def State.accFault (s : State) (e : AccErr) (m : Master) (typ : BitVec 4) (a : Nat) : State :=
  s.raiseBy e.src m typ 0 (BitVec.ofNat 32 a)

/-! ## The modem's status -/

def HartState.code : HartState → Nat
  | .idle => 0 | .tx => 1 | .wait => 2 | .rx => 3

/-- ISL[n].HSTAT as the modem holds it (R189). -/
def Hart.stat (h : Hart) : Word :=
  BitVec.ofNat 32 (h.st.code * 2 ^ 28 + h.res.toNat * 2 ^ 24 + bit h.rxovr 23 + bit h.cd 22 + bit h.txovr 21 + h.rxlen.toNat)

/-! ## Island cells -/

/-- Order of the cell types in one slot (R37). -/
def DownData.rank : DownData → Nat
  | .outword _ => 0 | .sync _ => 1 | .rung _ => 2 | .waddr _ => 3 | .wdata _ => 3 | .raddr _ => 4 | .cmd _ => 5
  | .hart _ _ => 6

/-- Requester ranks within a type (R37). -/
def reqRank : Master → Nat
  | .link => 0 | .thread _ => 2 | .dma _ => 2 | _ => 1

def DownData.isWdata : DownData → Bool
  | .wdata _ => true | _ => false

/-- The cell is of an island write or an output command (R232); a byte for HRAW is an island write (R186). -/
def DownData.isWrite : DownData → Bool
  | .waddr _ => true
  | .wdata _ => true
  | .cmd _ => true
  | .hart _ _ => true
  | _ => false

/-- The place of a thread or channel among those of one tick: contexts first, then channels (R37). -/
def reqNo : Master → Nat
  | .thread t => t.val | .dma c => 8 + c.val | _ => 0

/-- A cell goes before one that waits: type, then requester rank, then, of threads and channels on one tick, their order (R37).
k, l are the places of the two types. -/
def goesBefore {α : Type} (k l : Nat) (c x : Cell α) : Bool :=
  decide (k < l) ||
  (decide (k = l) &&
    (decide (reqRank c.req < reqRank x.req) ||
      (decide (c.since = x.since) && decide (reqRank c.req = 2) && decide (reqRank x.req = 2) && decide (reqNo c.req < reqNo x.req))))

/-- Puts a cell into the queue: behind cells that have left, behind the rest of a write in progress, and before cells of a
later type or rank (R37). -/
def insertDown (c : DownCell) : List DownCell → List DownCell
  | [] => [c]
  | x :: l =>
    if !x.sent && !x.again && goesBefore c.data.rank x.data.rank c x && (!x.data.isWdata || decide (c.data.rank < 3)) then c :: x :: l
    else x :: insertDown c l

/-- A cell that is ready from tick t and has not left. -/
def newCell {α : Type} (d : α) (req : Master) (a : Word) (x : BitVec 19) (t : Tick) : Cell α :=
  { data := d, sync := false, req := req, addr := a, xref := x, since := t, sent := false, slot := 0, seq := 0, bad := false, got := false,
    failed := false, again := false }

/-- The write that goes on behind a cell: its WADDR begins one, and each WDATA steps the address (R35). -/
def nextRun (d : DownData) (req : Master) (a : Word) (r : Option (Master × Nat)) : Option (Master × Nat) :=
  match d with
  | .waddr _ => some (req, a.toNat)
  | .wdata _ => r.map (fun x => (x.1, x.2 + 4))
  | _ => r

/-- Queues a downstream cell for island n that is ready from tick t on. -/
def State.sendFrom (s : State) (t : Tick) (n : IslandNo) (req : Master) (d : DownData) (a : Word := 0) (x : BitVec 19 := 0) : State :=
  s.modIsl n (fun i => { i with down := insertDown (newCell d req a x t) i.down, wrun := nextRun d req a i.wrun })

/-- Queues a downstream cell for island n: it is ready from the next tick on (R230, R255; log entry 34). -/
def State.send (s : State) (n : IslandNo) (req : Master) (d : DownData) (a : Word := 0) (x : BitVec 19 := 0) : State :=
  s.sendFrom (s.tick + 1) n req d a x

/-- The queue holds 8 cells that have not left, and is full for a thread, a channel or the fabric (R37). -/
def State.queueFull (s : State) (n : IslandNo) : Bool := decide (8 ≤ s.isl[n].down.countP (fun c => !c.sent))

/-- Order of the upstream types (R37). -/
def UpData.rank : UpData → Nat
  | .fatal => 0 | .sync _ => 1 | .rdata _ => 2 | .rungAct => 3 | .result _ => 4 | .status _ => 5 | .hart _ _ _ => 6

/-- The same upstream. -/
def insertUp (c : UpCell) : List UpCell → List UpCell
  | [] => [c]
  | x :: l => if !x.sent && !x.again && goesBefore c.data.rank x.data.rank c x then c :: x :: l else x :: insertUp c l

/-- The island queues an upstream cell of requester m that is ready k ticks from now. -/
def State.sendUpAs (s : State) (n : IslandNo) (d : UpData) (m : Master) (a : Word) (k : Nat) (x : BitVec 19 := 0) : State :=
  s.modIsl n (fun i => { i with up := insertUp (newCell d m a x (s.tick + BitVec.ofNat 64 k)) i.up })

/-- The island queues an upstream cell. -/
def State.sendUp (s : State) (n : IslandNo) (d : UpData) : State := s.sendUpAs n d (.island n) 0 0

/-- The cell with this content that is on its way: it has left and its receiver has not accepted it. -/
def flying {α : Type} [DecidableEq α] (d : α) (l : List (Cell α)) : Option (Cell α) :=
  l.find? (fun c => c.sent && !c.got && decide (c.data = d))

/-- The receiver accepts the first cell with this content that is on its way (R39). -/
def accept {α : Type} [DecidableEq α] (d : α) : List (Cell α) → List (Cell α)
  | [] => []
  | c :: l => if c.sent && !c.got && decide (c.data = d) then { c with got := true } :: l else c :: accept d l

/-- An upstream cell arrives: the host side accepts it and expects the next SEQ (R39). -/
def State.arrived (s : State) (n : IslandNo) (d : UpData) : State :=
  if (flying d s.isl[n].up).isSome then s.modIsl n (fun i => { i with up := accept d i.up, upRx := i.upRx + 1 }) else s

/-- The requester of the first cell with this content that has left; the host link when there is none. -/
def State.requester (s : State) (n : IslandNo) (d : DownData) : Master :=
  match flying d s.isl[n].down with
  | some c => c.req
  | none => .link

/-- An island reports a fault in a STATUS cell (R288). The detail is its DIAG or ADIAG word (R295). -/
def State.islandFault (s : State) (n : IslandNo) (src kind : Byte) : State :=
  let i := s.isl[n]
  let d : Word := if i.pers.analog then i.adiag.setWidth 32 else i.diag.setWidth 32
  s.sendUp n (.status (.fault src kind d))

/-! ## Safe demands of the host side -/

/-- A SAFE mark is issued to every powered island (R269, R407). -/
def State.markAll (s : State) : Bool := s.safe.still || s.safe.safeN || s.fault.halt || s.safe.scanMark

/-- The reflex entries that are active and whose action targets island n (R246): entry numbers, rising. -/
def State.holdersOf (s : State) (n : IslandNo) (safeAct : Bool) : List Nat :=
  (List.range 64).filter (fun i =>
    s.evt.active.getLsbD i &&
    (let a := s.cfgAt (0x2404 + 8 * i); a.getLsbD (16 + n.val) && (a.getLsbD 15 == safeAct)))

/-- What the active entries and the orphaned holds demand of island n: OUT is the AND of OUTLVL, PSEL that of the
lowest-numbered entry (R246, R122). Where both an active entry and an orphaned hold force the island, PSEL is the entry's and OUT the
AND of both (DESIGN CHOICE, log entry 57). -/
def State.rfxDemand (s : State) (n : IslandNo) : DLane :=
  let i := s.isl[n]
  let h := s.holdersOf n false
  { out := h.all (fun k => (s.cfgAt (0x2404 + 8 * k)).getLsbD 14) && (if i.orphForce then i.orphOut else true),
    force := !h.isEmpty || i.orphForce,
    psel := match h with
      | k :: _ => (s.cfgAt (0x2404 + 8 * k)).extractLsb' 12 2
      | [] => if i.orphForce then i.orphPsel else 0,
    safe := !(s.holdersOf n true).isEmpty || i.orphSafe }

/-- Something is put on its way: it arrives k ticks from now. -/
def State.sendLane (s : State) (k : Nat) (x : Transit) : State :=
  { s with transit := s.transit ++ [(s.tick + BitVec.ofNat 64 k, x)] }

/-- The state-lane SAFE bit: the OR of every logic demand that targets n (R269). -/
def State.safeBit (s : State) (n : IslandNo) : Bool :=
  s.safe.still || s.safe.safeN || s.fault.halt || s.safe.flint || s.safe.cmd.getLsbD n.val || s.isl[n].rfx.safe

/-- The downstream lane of island n takes the bits that stand now; a RUNNING island receives a change 12 tk after the next
itk edge (R32, R33, R246, R248). -/
def State.laneUpdate (s : State) (n : IslandNo) : State :=
  let i := s.isl[n]
  let d : DLane := { out := if i.rfx.force then i.rfx.out else i.outBit, force := i.rfx.force, psel := i.rfx.psel,
                     safe := s.safeBit n }
  if d = i.laneDn then s
  else
    let s := s.modIsl n (fun i => { i with laneDn := d })
    if s.running n then s.sendLane (12 + s.itk) (.down n d) else s

/-- Every lane after a change of a demand. -/
def State.lanesUpdate (s : State) : State := islands.foldl (fun s n => s.laneUpdate n) s

end Sys2Proof.Machine
end

