-- ==== Sys2Proof/Machine/Engine.lean ====
section
/-! DEFINITION. The characteristic engine, exactly as R179 gives it, over the island's CH registers and its table in island
SRAM (R178-R180). -/

namespace Sys2Proof.Machine

/-- rdiv of R179: division rounded half away from zero, b > 0. -/
def rdiv (a : Int) (b : Nat) : Int :=
  let q := (a.natAbs + b / 2) / b
  if 0 ≤ a then (q : Int) else -(q : Int)

/-- sat16 of R179. -/
def sat16 (v : Int) : Int := clampInt (-32768) 32767 v

/-- One step of the integer square root: bit k of the root is set if its square still fits. -/
def isqrtBit (n r k : Nat) : Nat := if (r + 2 ^ k) * (r + 2 ^ k) ≤ n then r + 2 ^ k else r

/-- Bits k - 1 to 0 of the root, on top of r. -/
def isqrtFrom (n : Nat) : Nat → Nat → Nat
  | 0, r => r
  | k + 1, r => isqrtFrom n k (isqrtBit n r k)

/-- The largest integer whose square does not exceed n, for n below 2^64 (R179). -/
def isqrt (n : Nat) : Nat := isqrtFrom n 32 0

/-- A byte of island SRAM; a byte that nothing has written reads 0 (log entry 7). -/
def Island.byte (i : Island) (a : Nat) : Byte := sget (fun _ => 0) i.mem a

/-- A word of island SRAM (log entry 9). -/
def Island.word (i : Island) (a : Nat) : Word := bytesWord (i.byte a) (i.byte (a + 1)) (i.byte (a + 2)) (i.byte (a + 3))

/-- Table entry k: t[2j] in the upper, t[2j + 1] in the lower half of word j (R180). -/
def Island.tbl (i : Island) (k : Nat) : Int :=
  let w := i.word (fld (i.reg 0x90) 0 14 + 4 * (k / 2))
  if k % 2 = 0 then (w.extractLsb' 16 16).toInt else (w.extractLsb' 0 16).toInt

/-- Linear mode (R179). -/
def mapLinear (x0 x1 y0 y1 x : Int) : Int := y0 + rdiv ((y1 - y0) * (x - x0)) (x1 - x0).toNat

/-- Square-root mode (R179). -/
def mapSqrt (x0 x1 y0 y1 : Int) (cut : Nat) (x : Int) : Int :=
  if x - x0 ≤ 0 then y0
  else
    let f := (x - x0).toNat * 65536 / (x1 - x0).toNat
    if f < cut then y0 else y0 + rdiv ((y1 - y0) * (isqrt (f * 65536) : Int)) 65536

/-- Table mode (R179). -/
def mapTable (x0 x1 : Int) (t : Nat → Int) (x : Int) : Int :=
  let d := x - x0
  let s := x1 - x0
  if d ≤ 0 then t 0
  else if s ≤ d then t 32
  else
    let i := 32 * d.toNat / s.toNat
    t i + rdiv ((t (i + 1) - t i) * ((32 * d.toNat - i * s.toNat : Nat) : Int)) s.toNat

/-- The engine maps x by CHMODE (R179). X1 counts as at least X0 + 32, also where no slate word set it (log entry 24). -/
def Island.charMap (i : Island) (x : Int) : Int :=
  let x0 := (i.reg 0x84).toInt
  let x1 := max (i.reg 0x88).toInt (x0 + 32)
  let y0 := ((i.reg 0x8C).extractLsb' 16 16).toInt
  let y1 := ((i.reg 0x8C).extractLsb' 0 16).toInt
  sat16 (match fld (i.reg 0) 28 2 with
    | 1 => mapLinear x0 x1 y0 y1 x
    | 2 => mapSqrt x0 x1 y0 y1 (fld (i.reg 0x90) 16 16) x
    | 3 => mapTable x0 x1 i.tbl x
    | _ => x)

/-- Ticks of the engine's work on one result: linear, square root, table (R29, R178). -/
def engineTk : Nat → Nat
  | 1 => 8 | 2 => 16 | 3 => 12 | _ => 0

end Sys2Proof.Machine
end

