-- ==== Sys2Proof/Machine/Cells.lean ====
section
/-! DEFINITION. What becomes of island cells at the host side: answers and failures to their requesters, landing, loss of a
whole queue. -/

namespace Sys2Proof.Machine

/-! ## Requesters -/

/-- A word that channel h has read comes: the one to write next, or one behind it (R255). -/
def Channel.take (h : Channel) (w : Word) : Channel :=
  if h.buf.isNone then { h with buf := some w, scaled := false, reading := h.reading - 1 }
  else { h with more := h.more ++ [w], reading := h.reading - 1 }

/-- Answers to reads of channel c that are still out find no reader: what a stopped channel read does not reach it when it starts again
(R258, R259). -/
def Island.orphanDma (c : ChNo) (i : Island) : Island :=
  { i with down := i.down.map (fun x => if x.req = .dma c ∧ x.data.rank = 4 then { x with req := .island 0 } else x),
           up := i.up.map (fun x => if x.req = .dma c then { x with req := .island 0 } else x),
           reads := i.reads.map (fun r => if r.1 = .dma c then (.island 0, r.2) else r) }

/-- Cells of channel c that have not left are discarded as well, as at a disable (R258). -/
def Island.dropDma (c : ChNo) (i : Island) : Island :=
  { i with down := i.down.filter (fun x => decide (x.req ≠ Master.dma c) || x.sent || x.again) }.orphanDma c

/-- A DMA access fails: the channel stops in ERROR, with the reads that are out, and DMA_ERR goes to the collector (R259). -/
def State.dmaFail (s : State) (c : ChNo) (err : BitVec 3) (a : Word) (typ : BitVec 4) : State :=
  if s.dma[c].st = .idle ∨ s.dma[c].st = .error then s
  else (({ s with isl := s.isl.map (Island.orphanDma c), nvmRd := s.nvmRd.filter (fun r => decide (r.1 ≠ c)) } : State).modCh c (fun h => { h with st := .error, err := err, buf := none, more := [], reading := 0 })).raiseBy 0x1A (.dma c) typ 0 a

/-- The cell writes a later word of the link frame of which word x has failed (R88). -/
def behind (x : BitVec 19) (c : DownCell) : Bool :=
  decide (c.req = .link) && c.data.isWrite && decide (c.xref.extractLsb' 11 8 = x.extractLsb' 11 8) &&
  decide (x.extractLsb' 0 11 < c.xref.extractLsb' 0 11)

/-- Cells of such words that have not left are not sent (R88). -/
def Island.stopFrame (x : BitVec 19) (i : Island) : Island :=
  if i.down.any (fun c => behind x c && !c.sent && !c.again) then
    { i with down := i.down.filter (fun c => !(behind x c) || c.sent || c.again), wrun := none }
  else i

/-- LINK_XERR takes the frame and word of a failed access, XERR is set, and the frame stops: later words of it are not written (R88). -/
def State.linkXerr (s : State) (x : BitVec 19) : State :=
  { s with isl := s.isl.map (Island.stopFrame x), link := { s.link with
      xerr := true, xseq := x.extractLsb' 15 4, xtype := x.extractLsb' 11 4, xword := x.extractLsb' 0 11,
      queue := s.link.queue.map (fun (f : CmdFrame) =>
        if f.seq = x.extractLsb' 15 4 ∧ f.type = x.extractLsb' 11 4 then { f with stop := true } else f) } }

/-- The first word of the read queue that waits for island n takes the answer (R86). -/
def fillRead (n : IslandNo) (v : Option Word) : List ReadWord → List ReadWord
  | [] => []
  | r :: l => if r.wait = some n then { val := v.getD 0, err := v.isNone, wait := none } :: l else r :: fillRead n v l

/-- The answer of an island read reaches its requester; none where the read failed (R86, R229, R255). -/
def State.answer (s : State) (n : IslandNo) (req : Master) (a : Word) (v : Option Word) : State :=
  match req with
  | .link =>
    let s := { s with link := { s.link with readq := fillRead n v s.link.readq } }
    if v.isNone then s.accFault .island .link 1 a.toNat else s
  | .thread t =>
    match s.facet.ctx[t].stall with
    | .load rd k m ad none _ =>
      if m = n then
        let s := (s.modCtx t (fun x => { x with stall := .load rd k m ad (some (v.getD 0)) v.isNone })).owe 0 (.islandLoadReturn t)
        if v.isNone then s.accFault .island (.thread t) 1 a.toNat else s
      else s
    | _ => s
  | .dma c =>
    match v with
    | some w => if s.dma[c].st = .move ∧ s.dma[c].reading ≠ 0 then s.modCh c (fun h => h.take w) else s
    | none => s.dmaFail c 4 a 1
  | _ => s

/-- A write to an island fails for its requester (R40, R88, R230, R259). -/
def State.writeFailed (s : State) (req : Master) (a : Word) (x : BitVec 19) : State :=
  match req with
  | .link => (s.linkXerr x).accFault .island .link 2 a.toNat
  | .thread t =>
    (s.modCtx t (fun c => { c with pwerr := true, fails := min 255 (c.fails + 1) })).accFault .island (.thread t) 2 a.toNat
  | .dma c => s.dmaFail c 4 a 2
  | _ => s

/-- An output command fails for its requester: a thread's FENCE counts it (R232), a channel stops (R259), a link frame
reports it (R88). -/
def State.cmdFailed (s : State) (req : Master) (a : Word) (x : BitVec 19) : State :=
  match req with
  | .link => (s.linkXerr x).accFault .island .link 2 a.toNat
  | .thread t => s.modCtx t (fun c => { c with fails := min 255 (c.fails + 1) })
  | .dma c => s.dmaFail c 4 a 2
  | _ => s

/-- A cell is dropped or discarded: its requester gets an error status (R40, R43). A read whose RADDR cell has landed fails with
its answer. -/
def State.cellFailed (s : State) (n : IslandNo) (c : DownCell) : State :=
  match c.data with
  | .raddr _ => if c.got then s else s.answer n c.req c.addr none
  | .wdata _ => s.writeFailed c.req c.addr c.xref
  | .hart _ _ => s.writeFailed c.req c.addr c.xref
  | .cmd (.adc _ _) => s.writeFailed c.req c.addr c.xref
  | .cmd (.output _) => s.cmdFailed c.req c.addr c.xref
  | _ => s

/-! ## FENCE -/

/-- Thread t has an island write or output command that is neither acknowledged nor dropped (R232). -/
def State.outstanding (s : State) (t : CtxNo) : Bool :=
  islands.any (fun n => s.isl[n].down.any (fun c => decide (c.req = .thread t) && c.data.isWrite))

/-- A context stalled in FENCE completes once nothing is outstanding (R232). -/
def State.fenceCheck (s : State) (t : CtxNo) : State :=
  match s.facet.ctx[t].stall with
  | .fence _ => if s.outstanding t then s else s.owe 0 (.fenceComplete t)
  | _ => s

def State.fenceChecks (s : State) : State := contexts.foldl (fun s t => s.fenceCheck t) s

/-! ## What waits for cells -/

/-- The full pass is due once every APPLY of a commit has been acknowledged and the arbiter has been told (R21, R39, R118). -/
def State.commitCheck (s : State) : State :=
  if decide (s.slate.st = .committing) && s.slate.switched && !s.slate.passed && !s.due.any (fun e => decide (e.2 = .fullPass)) &&
      islands.all (fun n => !s.isl[n].down.any (fun c => decide (c.req = .slate))) then
    s.owe (s.qtk + 4) .fullPass
  else s

/-- ACK is due 64 tk after every SHADOW cell has been acknowledged, and after what is being sent (R342). -/
def State.shadowCheck (s : State) : State :=
  if s.tan.ackDue && !s.due.any (fun e => decide (e.2 = .ackSend)) &&
      islands.all (fun n => !s.isl[n].down.any (fun c => decide (c.data = .cmd .shadow))) then
    s.oweAt (laterTick (s.tick + 64) s.tan.txBusy) .ackSend
  else s

/-- What waits for acknowledgements goes on where they have come. -/
def State.ackChecks (s : State) : State := s.fenceChecks.commitCheck.shadowCheck

/-! ## Landing and loss -/

/-- A downstream cell that is on its way lands: the island accepts it and expects the next SEQ (R39). -/
def State.landed (s : State) (n : IslandNo) (d : DownData) : State :=
  if (flying d s.isl[n].down).isSome then s.modIsl n (fun i => { i with down := accept d i.down, dnRx := i.dnRx + 1 }) else s

/-- The words of a link frame that fail together fail with the first of them: a frame stops there (R88). -/
def firstWords : List (BitVec 8) → List DownCell → List DownCell
  | _, [] => []
  | seen, c :: l =>
    if c.req = .link ∧ c.data.isWdata then
      (if seen.contains (c.xref.extractLsb' 11 8) then firstWords seen l else c :: firstWords (c.xref.extractLsb' 11 8 :: seen) l)
    else c :: firstWords seen l

/-- Every cell of island n is discarded, and the requesters of reads and writes get an error status (R43, R415). -/
def State.discardCells (s : State) (n : IslandNo) : State :=
  let cells := s.isl[n].down
  let reads := s.isl[n].reads
  let s := s.modIsl n (fun i => { i with down := [], up := [], reads := [] })
  let s := (firstWords [] cells).foldl (fun s c => s.cellFailed n c) s
  let s := reads.foldl (fun s r => s.answer n r.1 r.2 none) s
  let s := if contexts.any (fun t => match s.facet.ctx[t].stall with
      | .loadq _ _ m _ => decide (m = n) | .store m _ _ _ => decide (m = n) | .outc _ m _ => decide (m = n) | _ => false) then s.owe 0 (.islandQueueFree n) else s
  s.fenceChecks

end Sys2Proof.Machine
end

