-- ==== Sys2Proof/Machine/Events.lean ====
section
/-! DEFINITION. The event fabric, tick timers, the island trigger map and the reflex table (R236-R249). -/

namespace Sys2Proof.Machine

/-- The reflex entries. -/
def entries : List (Fin 64) := (List.range 64).map (Fin.ofNat 64)

/-- The tick timers. -/
def timers : List (Fin 16) := islands

/-! ## Reflex table -/

/-- Trigger word of entry i (R244, R262). -/
def State.rfxTrig (s : State) (i : Nat) : Word := s.cfgAt (0x2400 + 8 * i)

/-- Action word of entry i (R244, R262). -/
def State.rfxAct (s : State) (i : Nat) : Word := s.cfgAt (0x2404 + 8 * i)

/-- Entry i is enabled (R244). -/
def State.rfxEn (s : State) (i : Nat) : Bool := (s.rfxTrig i).getLsbD 31

/-- Entry i is a LINE entry (R244). -/
def State.rfxLine (s : State) (i : Nat) : Bool := (s.rfxTrig i).getLsbD 30

/-- Release rule of entry i: 3, and 1 of a LINE entry, fall back to LATCH (R247). -/
def State.rfxRel (s : State) (i : Nat) : Nat :=
  match fld (s.rfxAct i) 10 2 with
  | 1 => if s.rfxLine i then 0 else 1
  | 2 => 2
  | _ => 0

/-- The state-lane bit a TAP condition reads: 0 while the island is not RUNNING or its input is INDET (R249). -/
def State.tapBit (s : State) (n : IslandNo) (qual : Bool) : Bool :=
  let h := s.isl[n].host
  s.running n && !h.indet && (if qual then h.qual else h.raw)

/-- The condition of TAP entry i holds (R244). -/
def State.tapCond (s : State) (i : Nat) : Bool :=
  let w := s.rfxTrig i
  s.tapBit (w.extractLsb' 24 4).toFin (w.getLsbD 29) == w.getLsbD 28

/-- An evaluation of the TAP entries, k ticks from now: entries whose condition holds fire, and FOLLOW entries whose condition
does not hold are released (R245, R247). -/
def State.tapEval (s : State) (k : Nat) : State :=
  entries.foldl (fun (s : State) (i : Fin 64) =>
    if s.rfxEn i && !s.rfxLine i then
      if s.tapCond i then (if s.evt.active.getLsbD i then s else s.owe k (.reflexFire i))
      else if s.evt.active.getLsbD i ∧ s.rfxRel i = 1 then s.owe k (.reflexRelease i) else s
    else s) s

/-- The demand of the active entries enters the downstream lane of the islands in the mask after the 8 tk of an evaluation
(R245, R247). -/
def State.rfxApply (s : State) (mask : BitVec 16) : State :=
  islands.foldl (fun (s : State) (n : IslandNo) => if mask.getLsbD n then s.sendLane 8 (.rfx n (s.rfxDemand n)) else s) s

/-- A trigger of entry i that still holds when it is taken: a LINE entry's pulse, a TAP entry's condition (R247). -/
def State.rfxHolds (s : State) (i : Nat) : Bool := s.rfxEn i && (s.rfxLine i || s.tapCond i)

/-- Entry i becomes active, RFX_FIRE pulses and its hold is placed (R247). -/
def State.rfxFire (s : State) (i : Fin 64) : State :=
  let s := { s with evt := { s.evt with trig := s.evt.trig.set i (some s.tick) } }
  if s.rfxHolds i && !s.evt.active.getLsbD i then
    ({ s with evt := { s.evt with active := s.evt.active ||| (1#64 <<< i.val) } }.pulse (0x140 + i.val)).rfxApply
      ((s.rfxAct i).extractLsb' 16 16)
  else s

/-- Entry i is released; a TAP entry whose condition still holds fires at the next evaluation (R247). -/
def State.rfxRelease (s : State) (i : Fin 64) : State :=
  if s.evt.active.getLsbD i then
    let s := ({ s with evt := { s.evt with active := s.evt.active &&& ~~~(1#64 <<< i.val) } }).rfxApply
      ((s.rfxAct i).extractLsb' 16 16)
    if s.rfxEn i && !s.rfxLine i && s.tapCond i then s.owe (2 - s.itk) (.reflexFire i) else s
  else s

/-- REFLEX_FIRE (R247). -/
def execReflexFire (i : Fin 64) (s : State) : Host.Outcome State Fault Refusal :=
  s.act fun s => (s.settle (.reflexFire i)).rfxFire i

/-- The release rule of entry i lets it go: FOLLOW once its condition no longer holds, LINE unless a trigger pulse falls on the same
tick, which prevails; LATCH never, for it waits for RFXCLR (R247). -/
def State.rfxMayGo (s : State) (i : Fin 64) : Bool :=
  match s.rfxRel i with
  | 1 => !s.tapCond i
  | 2 => decide (s.evt.trig[i] ≠ some s.tick)
  | _ => false

/-- REFLEX_RELEASE (R247). -/
def execReflexRelease (i : Fin 64) (s : State) : Host.Outcome State Fault Refusal :=
  s.act fun s =>
    let s := s.settle (.reflexRelease i)
    if s.rfxMayGo i then s.rfxRelease i else s

/-- RFXCLR (R247): releases every entry of the half whose bit is written 1, under every rule. -/
def execRfxclr (_m : Master) (hi : Bool) (w : Word) (s : State) : Host.Outcome State Fault Refusal :=
  s.act fun s => entries.foldl (fun (s : State) (i : Fin 64) =>
    if (decide (32 ≤ i.val) == hi) && w.getLsbD (i.val % 32) then s.rfxRelease i else s) s

/-! ## Tick timers -/

/-- Register word of timer k at offset o (R262). -/
def State.tmrWord (s : State) (k : Fin 16) (o : Nat) : Word := s.cfgAt (0x2600 + 0x10 * k.val + o)

/-- MODE of timer k (R241). -/
def State.tmrMode (s : State) (k : Fin 16) : Nat := fld (s.tmrWord k 0) 30 2

/-- PER of timer k: 0 takes 8 (R262); the first commit sets it. -/
def State.tmrPer (s : State) (k : Fin 16) : Nat := max 8 (s.tmrWord k 4).toNat

/-- Ticks from tick t to the first tick from it on whose count c satisfies c mod PER = PHASE (R241). -/
def freeFrom (t per phase : Nat) : Nat := (phase + per - t % per) % per

/-- The same from the tick after t on. -/
def freeWait (t per phase : Nat) : Nat := if freeFrom t per phase = 0 then per else freeFrom t per phase

/-- Timer k's next pulse falls w ticks from now; an earlier count ends. -/
def State.tmrSet (s : State) (k : Fin 16) (w : Nat) : State :=
  ({ (s.cancel (.timerPulse k)) with
      evt := { s.evt with tmr := s.evt.tmr.set k (some (s.tick + BitVec.ofNat 64 w)) } }).owe w (.timerPulse k)

/-- Timer k stands without a count. -/
def State.tmrStop (s : State) (k : Fin 16) : State :=
  { (s.cancel (.timerPulse k)) with evt := { s.evt with tmr := s.evt.tmr.set k none } }

/-- Timer k starts, at T_C of a commit that changes it or on the first tick after a reset (R241): FREE runs, WATCH counts from
its start, ONESHOT waits for its line. -/
def State.tmrStart (s : State) (k : Fin 16) : State :=
  let s := s.tmrStop k
  match s.tmrMode k with
  | 1 => s.tmrSet k (freeFrom s.tick.toNat (s.tmrPer k) ((s.tmrWord k 8).toNat % s.tmrPer k))
  | 3 => s.tmrSet k (s.tmrPer k)
  | _ => s

/-- Timers start again after a reset that the slate survives (R241). -/
def State.tmrRestart (s : State) : State := timers.foldl (fun (s : State) (k : Fin 16) => s.tmrStart k) s

/-- A pulse on timer k's start line (R241, R242). -/
def State.tmrLine (s : State) (k : Fin 16) : State :=
  match s.tmrMode k with
  | 2 =>
    match s.evt.tmr[k] with
    | none => s.tmrSet k (s.tmrPer k)
    | some t => if t = s.tick then s.owe (s.tmrPer k) (.timerPulse k) else s
  | 3 => s.tmrSet k (s.tmrPer k)
  | _ => s

/-- The tick of the first owed pulse of timer k. -/
def State.tmrOwed (s : State) (k : Fin 16) : Option Tick := (s.due.find? (fun e => e.2 = .timerPulse k)).map (·.1)

/-- Timer k's count ends on this tick: it pulses; FREE goes on, the others wait for their line. A ONESHOT timer whose line pulsed on
this tick has its new count owed already (R241, R242). -/
def State.tmrPulse (s : State) (k : Fin 16) : State :=
  let s := s.pulse (0x0B0 + k.val)
  if s.tmrMode k = 1 then s.tmrSet k (freeWait s.tick.toNat (s.tmrPer k) ((s.tmrWord k 8).toNat % s.tmrPer k))
  else { s with evt := { s.evt with tmr := s.evt.tmr.set k (s.tmrOwed k) } }

/-- TIMER_PULSE (R241): a timer pulses on the tick on which its count ends, not where its line has started the count again (R242). -/
def execTimerPulse (k : Fin 16) (s : State) : Host.Outcome State Fault Refusal :=
  s.act fun s =>
    let s := s.settle (.timerPulse k)
    if s.tmrMode k ≠ 0 ∧ s.evt.tmr[k] = some s.tick then s.tmrPulse k else s

/-- CNT of timer k: ticks to the next pulse, 0 while it waits or is OFF (R242). -/
def State.tmrCnt (s : State) (k : Fin 16) : Word :=
  match s.evt.tmr[k] with
  | some t => (t - s.tick).setWidth 32
  | none => 0

/-! ## Island trigger map -/

/-- The map queues an ADC command to island n, or drops it (R243). op: 2 RTRIG, 3 INJECT (R207). -/
def State.itrig (s : State) (n : IslandNo) (op : BitVec 4) : State :=
  if s.running n && !s.queueFull n then s.send n .ledger (.cmd (.adc op 0))
  else { s with evt := { s.evt with drop := s.evt.drop.set n (satAdd s.evt.drop[n] 1) } }

/-- The command is for the tick after the pulse (R243). -/
def State.itrigNext (s : State) (n : IslandNo) (op : BitVec 4) : State := { s with evt := { s.evt with trigs := s.evt.trigs ++ [(n, op)] } }

/-- The commands of the last tick's pulses go into the queues on this one (R243). -/
def State.trigsGo (s : State) : State :=
  s.evt.trigs.foldl (fun (s : State) (x : IslandNo × BitVec 4) => s.itrig x.1 x.2) { s with evt := { s.evt with trigs := [] } }

/-! ## Lines -/

/-- LINE[l] (R262). -/
def State.lineWord (s : State) (l : BitVec 8) : Word := s.cfgAt (0x2000 + 4 * l.toNat)

/-- The tick that stamps a pulse on line l: an earlier one where the edge was latched in a stop (R17, R139). -/
def State.lineStamp (s : State) (l : BitVec 8) : Tick :=
  match s.evt.stamp.find? (fun x => x.1 = l) with
  | some x => x.2
  | none => s.tick

/-- A pulse reaches the watched line of a context, from the tick after its WATCH on: EL is set, and a parked context wakes (R221,
R222). -/
def State.watchPulse (s : State) (t : CtxNo) (l : BitVec 8) : State :=
  let c := s.facet.ctx[t]
  let e := s.lineStamp l
  if c.warm ∧ c.w = l ∧ c.watchAt ≠ some s.tick then
    if c.st = .wait then
      (s.modCtx t (fun c =>
        { c with st := .run, el := false, elTick := e, wokeAt := some s.tick,
                 regs := if c.wrd = 0 then c.regs else c.regs.set c.wrd (e.setWidth 32 &&& 0x7FFFFFFF) })).cancel (.wfeTimeout t)
    else if c.el then s.modCtx t (fun c => { c with eovr := true })
    else s.modCtx t (fun c => { c with el := true, elTick := e })
  else s

/-- A pulse reaches the pace line of a channel: a waiting channel moves, another keeps the pulse or counts it (R254). -/
def State.pacePulse (s : State) (c : ChNo) (l : BitVec 8) : State :=
  let w := s.cfgAt (0x3020 + 0x40 * c.val)
  if w.getLsbD 0 ∧ w.extractLsb' 8 8 = l then
    s.modCh c (fun h =>
      if h.st = .wait then { h with st := .move, goAt := s.tick + 1 }
      else if h.ppend then { h with povr := satAdd h.povr 1 }
      else { h with ppend := true })
  else s

/-- Every consumer of a line acts on its pulse (R236, R239). -/
def State.consumers (s : State) (l : BitVec 8) : State :=
  let s := contexts.foldl (fun (s : State) (t : CtxNo) => s.watchPulse t l) s
  let s := entries.foldl (fun (s : State) (i : Fin 64) =>
    if s.rfxEn i && s.rfxLine i && decide ((s.rfxTrig i).extractLsb' 0 8 = l) then s.owe 0 (.reflexFire i) else s) s
  let s := entries.foldl (fun (s : State) (i : Fin 64) =>
    if s.evt.active.getLsbD i ∧ s.rfxRel i = 2 ∧ (s.rfxAct i).extractLsb' 0 8 = l then s.owe 0 (.reflexRelease i) else s) s
  let s := timers.foldl (fun (s : State) (k : Fin 16) =>
    if (s.tmrWord k 0).extractLsb' 8 8 = l then s.tmrLine k else s) s
  let s := channels.foldl (fun (s : State) (c : ChNo) => s.pacePulse c l) s
  islands.foldl (fun (s : State) (n : IslandNo) =>
    let w := s.cfgAt (0x2700 + 4 * n.val)
    let s := if w.getLsbD 31 ∧ w.extractLsb' 8 8 = l then s.itrigNext n 3 else s
    if w.getLsbD 30 ∧ w.extractLsb' 0 8 = l then s.itrigNext n 2 else s) s

/-- The line's source pulses: the divider passes every (D + 1)th pulse to the consumers (R236, R238). -/
def State.linePulse (s : State) (line : BitVec 8) : State :=
  let w := s.lineWord line
  let k : Fin 256 := line.toFin
  let s := { s with evt := { s.evt with pulsed := line :: s.evt.pulsed } }
  if s.evt.div[k].toNat < fld w 24 8 then { s with evt := { s.evt with div := s.evt.div.set k (s.evt.div[k] + 1) } }
  else ({ s with evt := { s.evt with div := s.evt.div.set k 0 } }).consumers line

/-- EVENT_PULSE (R236, R238): a line without a source never pulses, and a line carries at most one pulse per tick (R239). -/
def execEventPulse (line : BitVec 8) (s : State) : Host.Outcome State Fault Refusal :=
  s.act fun s =>
    let s := s.settle (.eventPulse line)
    if fld (s.lineWord line) 0 9 = 0 ∨ line ∈ s.evt.pulsed then s else s.linePulse line

/-- SW_WRITE (R240): each bit written 1 pulses its SW source on this tick. -/
def execSwWrite (_m : Master) (w : Word) (s : State) : Host.Outcome State Fault Refusal :=
  s.act fun s => (List.range 32).foldl (fun (s : State) (k : Nat) => if w.getLsbD k then s.pulse (0x100 + k) else s) s

/-- Island n leaves RUNNING or its levels change: TAP conditions are evaluated (R245, R249). -/
def State.tapChanged (s : State) : State := s.tapEval s.itk

end Sys2Proof.Machine
end

