-- ==== Sys2Proof/Machine/Output.lean ====
section
/-! DEFINITION. Output stages: safe states, priority of demands, the PWM, diagnostics and their reports (R146-R153, R156,
R168-R177, R248, R264-R268, R271). -/

namespace Sys2Proof.Machine

/-! ## Diagnostics -/

/-- A digital diagnostic: its DIAG bit is set and its fault goes to the host side (R156). -/
def State.digDiag (s : State) (n : IslandNo) (bit : Nat) (src kind : Byte) : State :=
  (s.modIsl n (fun i => { i with diag := i.diag ||| (1#11 <<< bit) })).islandFault n src kind

/-- An analog diagnostic: its ADIAG bit is set and its fault goes to the host side (R189). -/
def State.anaDiag (s : State) (n : IslandNo) (bit : Nat) (src kind : Byte) : State :=
  (s.modIsl n (fun i => { i with adiag := i.adiag ||| (1#8 <<< bit) })).islandFault n src kind

/-! ## Safe states -/

/-- A logic demand for the programmed safe state stands in the island: SAFE bit, Channel fault, or die protection (R265, R266,
R391). -/
def Island.safeLogic (i : Island) : Bool := i.lane.safe || i.safe.chFault || i.safe.therm

/-- The controller holds the safe state: a SAFE mark, or the carrier stopped (R45, R46, R266). -/
def Island.safeCtl (i : Island) : Bool := i.safe.mark || i.safe.noCarrier

/-- At least one safe demand stands (R265). -/
def Island.inSafe (i : Island) : Bool := i.safeLogic || i.safeCtl

/-- CODE of a SAFE register word; 5-7 fall back to de-energise (R264). -/
def safeCode (w : Word) : Nat := if fld w 16 3 ≤ 4 then fld w 16 3 else 0

/-- Rank of a safe state where two are candidates, the stronger one lower (R271). -/
def safeRank : Nat → Nat
  | 0 => 0 | 3 => 1 | 2 => 2 | 4 => 3 | _ => 4

/-- The safe state in force and its preset: the stronger of the logic's and the controller's, of those that are demanded
(R266, R271). -/
def Island.safeState (i : Island) : Nat × BitVec 16 :=
  let l := (safeCode (i.reg 0x30), (i.reg 0x30).extractLsb' 0 16)
  let c := (i.safe.ctlCode.toNat, i.safe.ctlPreset)
  if i.safeLogic && i.safeCtl then (if safeRank c.1 < safeRank l.1 then c else l)
  else if i.safeCtl then c else l

/-- The sensor supply or loop power on TB is on: configured, powered, not in a shadow stage, and no de-energise state in force
(R128, R148, R163, R168, R335). -/
def Island.tbOn (i : Island) : Bool :=
  let cfg := i.reg 0
  (if i.pers.digIn then cfg.getLsbD 9 else decide (i.pers = .aiI) && cfg.getLsbD 18) &&
  decide (i.rungs.rung ≠ 0) && !i.shadow && !i.prep && !i.hold && !(i.inSafe && decide (i.safeState.1 = 0))

/-- Every field stage is de-energised: no power, PREP, service hold or a shadow stage (R118, R335, R402). -/
def Island.dead (i : Island) : Bool := !i.powered || i.prep || i.hold || i.shadow

/-! ## Digital outputs -/

/-- Latches and thermal shutdown of the switch: row 3 of R147. -/
def Island.digLatched (i : Island) : Bool := i.dout.short || i.dout.ovl || i.dout.hotSwitch

/-- Row 5 of R147: OUT of the reflex, for DO_PWM at FDUTY; for DO a level 1 or 0. -/
def Island.digForce (i : Island) : BitVec 16 :=
  if i.lane.out then (if i.pers = .doPwm then (i.reg 0x64).extractLsb' 0 16 else 1) else 0

/-- Row 6 of R147: the last command that the island has accepted (R40, R146; DESIGN CHOICE, log entry 72). -/
def Island.digCmd (i : Island) : BitVec 16 := if i.cmd.en then (if i.pers = .doPwm then i.cmd.value else 1) else 0

/-- Rows 5 and 6 of R147. -/
def Island.digBase (i : Island) : BitVec 16 := if i.lane.force then i.digForce else i.digCmd

/-- Row 4 of R147: the level or duty of the programmed safe state (R264). -/
def Island.digSafe (i : Island) : BitVec 16 :=
  let (c, p) := i.safeState
  match c with
  | 1 => i.safe.held
  | 2 => if i.pers = .doPwm then p else p &&& 1
  | _ => 0

/-- The level (DO) or duty (DO_PWM) that R147 gives. -/
def Island.digTarget (i : Island) : BitVec 16 :=
  if i.dead then 0
  else if i.rungs.rung = 0 then 0
  else if i.digLatched then 0
  else if i.inSafe then i.digSafe
  else i.digBase

/-- P: the larger of PWM.PER, where 0 counts as 5 000, and the minimum of the rung (R149). -/
def Island.pwmPeriod (i : Island) : Nat :=
  max (if i.rungs.rung = 1 then 100000 else 5000) (max 5000 (fld (i.reg 0x60) 0 20))

/-- Itk of the on-phase of a duty in a period of P itk: floor(DUTY P / 65 536), an on-phase under 32 itk omitted, an off-phase
under 32 itk replaced by on (R149). -/
def onPhase (d : BitVec 16) (p : Nat) : Nat :=
  if d = 0xFFFF then p
  else
    let k := d.toNat * p / 65536
    if k < 32 then 0 else if p - k < 32 then p else k

/-- INRUSH window in ticks: 0 selects 976 (R150). -/
def Island.inrushTk (i : Island) : Nat := (if fld (i.reg 0) 16 10 = 0 then 976 else min 976 (fld (i.reg 0) 16 10)) * 2048

/-- The switch takes a level; every switch-on opens the inrush window, which a switch-off does not end (R150). -/
def State.setSwitch (s : State) (n : IslandNo) (b : Bool) : State :=
  let i := s.isl[n]
  if i.dout.sw = b then s
  else if b then
    ((s.cancel (.inrushEnd n)).modIsl n (fun i => { i with dout := { i.dout with sw := true, inrush := true, swAt := s.tick } })).owe
      i.inrushTk (.inrushEnd n)
  else s.modIsl n (fun i => { i with dout := { i.dout with sw := false, swAt := s.tick } })

/-- PWM periods stop with the switch off. -/
def State.pwmStop (s : State) (n : IslandNo) : State :=
  (((s.cancel (.pwmPeriodStart n)).cancel (.pwmPhaseEnd n)).modIsl n (fun i =>
    { i with dout := { i.dout with run := false, duty := 0 } })).setSwitch n false

/-- A PWM period starts with its on-phase (R149). EFF_PER shows its P, also when no period follows it, and 0 before the first (DESIGN
CHOICE, log entry 72). -/
def State.pwmStart (s : State) (n : IslandNo) : State :=
  let i := s.isl[n]
  let d := i.digTarget
  let p := i.pwmPeriod
  let k := onPhase d p
  let s := (s.cancel (.pwmPeriodStart n)).cancel (.pwmPhaseEnd n)
  let s := s.modIsl n (fun i => { i with dout := { i.dout with run := true, duty := d, effPer := BitVec.ofNat 20 p, phaseAt := s.tick } })
  let s := (s.setSwitch n (decide (k ≠ 0))).owe (2 * p) (.pwmPeriodStart n)
  if k = 0 ∨ k = p then s else s.owe (2 * k) (.pwmPhaseEnd n)

/-- The switch is off at once while its periods run on (R149). -/
def State.pwmOff (s : State) (n : IslandNo) : State :=
  ((s.cancel (.pwmPhaseEnd n)).modIsl n (fun i => { i with dout := { i.dout with duty := 0, phaseAt := s.tick } })).setSwitch n false

/-- ICK has no edge: HCK stands, or the first itk after a stop is still to come (R267). -/
def State.ickStands (s : State) : Bool :=
  !s.pow.hck || (match s.pow.resumeAt with | some t => decide (s.tick < t) || s.tick.getLsbD 0 | none => false)

/-- A hold or a safe state governs the switch: rows 4 and 5 of R147. -/
def Island.digHeld (i : Island) : Bool := i.inSafe || i.lane.force

/-- Periods may run: rows 1 to 3 of R147 do not hold the switch off, and EN is 1 where the last word governs (R147, R149). -/
def Island.pwmMay (i : Island) : Bool :=
  !i.dead && decide (i.rungs.rung ≠ 0) && !i.digLatched && (i.digHeld || i.cmd.en)

/-- The output stage of a digital island follows its demands. later: a new duty waits for the next period start, as after an
output word; where a hold or a safe state changes the duty, it takes effect at once, and a duty of 0 turns the switch off while the
periods run on (R149). Without ICK only 0xFFFF drives a PWM on (R267). -/
def State.digOutputs (s : State) (n : IslandNo) (later : Bool) : State :=
  let i := s.isl[n]
  let d := i.digTarget
  if i.pers = .doPwm then
    if !i.pwmMay then s.pwmStop n
    else if s.ickStands then (if i.inSafe ∨ !i.dout.run then (s.pwmStop n).setSwitch n (decide (d = 0xFFFF)) else s)
    else if !i.dout.run then s.pwmStart n
    else if later || decide (d = i.dout.duty) then s
    else if d = 0 then s.pwmOff n
    else s.pwmStart n
  else s.setSwitch n (decide (d ≠ 0))

/-! ## Analog outputs -/

/-- The top of the raw-code range of an output (R160). -/
def aoTop (p : Pers) : Nat := if p = .aoI then 48000 else 25000

/-- Limits a raw code to its range, and with NE43 to 7 600-41 000 (R172). -/
def Island.aoLimit (i : Island) (v : Int) : BitVec 16 :=
  if i.pers = .aoI ∧ (i.reg 0).getLsbD 23 then BitVec.ofInt 16 (clampInt 7600 41000 v)
  else BitVec.ofInt 16 (clampInt 0 (aoTop i.pers) v)

/-- CHMODE of the island (R178). -/
def Island.chMode (i : Island) : Nat := fld (i.reg 0) 28 2

/-- The characteristic engine runs: CHMODE ≠ 0 and ADM_CHAR = 1 (R178). -/
def Island.engineOn (i : Island) : Bool := decide (i.chMode ≠ 0) && decide (i.rungs.char = 1)

/-- The ticks that the engine adds to a result or a VALUE (R178). -/
def Island.engineTk (i : Island) : Nat := if i.engineOn then Sys2Proof.Machine.engineTk i.chMode else 0

/-- The raw code that a VALUE asks for, before its limits: mapped when the characteristic engine runs (R172, R178). -/
def Island.aoRaw (i : Island) (v : BitVec 16) : Int := if i.engineOn then i.charMap v.toInt else v.toNat

/-- Row 10 of R174: the last VALUE. -/
def Island.aoValue (i : Island) : BitVec 16 := i.aoLimit (i.aoRaw i.cmd.value)

/-- High alarm direction of an AO_I island: the group strap, or ALMH with ALMSRC = 1 (R173). -/
def State.almHigh (s : State) (n : IslandNo) : Bool :=
  let c := s.isl[n].reg 0
  if c.getLsbD 22 then c.getLsbD 21 else if n.val < 8 then s.pow.almh0 else s.pow.almh1

/-- The raw code of a safe state, and whether the driver is on (R264, R174): NE 43 low is 3.5 mA, high 21.5 mA. -/
def Island.aoSafe (i : Island) : BitVec 16 × Bool :=
  let (c, p) := i.safeState
  match c with
  | 1 => (i.safe.held, true)
  | 2 => (p, true)
  | 3 => if i.pers = .aoI then (7000, true) else (0, false)
  | 4 => if i.pers = .aoI then (43000, true) else (0, false)
  | _ => (0, false)

/-- Rows 6 to 10 of R174; a value kept from a hold or a safe state stays in their place until the next output word (R248, R268). -/
def State.aoPlain (s : State) (n : IslandNo) : BitVec 16 :=
  let i := s.isl[n]
  let c := i.reg 0
  if i.cmd.raw then (if i.cmd.en then i.cmd.value else 0)
  else if i.pers = .aoI ∧ c.getLsbD 20 then 8000
  else if i.chMode ≠ 0 ∧ i.rungs.char = 0 then (i.reg 0xA0).extractLsb' 0 16
  else if i.pers = .aoI ∧ c.getLsbD 23 ∧ i.cmd.alm then (if s.almHigh n then 43000 else 7000)
  else if !i.cmd.en then 0
  else i.aoValue

/-- Row 5 of R174: the preset that PSEL names, or the value in force when FORCE set. -/
def Island.aoForce (i : Island) : BitVec 16 :=
  match i.lane.psel.toNat with
  | 1 => (i.reg 0xA8).extractLsb' 16 16
  | 2 => (i.reg 0xA8).extractLsb' 0 16
  | 3 => (i.reg 0xAC).extractLsb' 0 16
  | _ => i.ana.forceHeld

/-- Rows 5 to 10 of R174. -/
def State.aoBase (s : State) (n : IslandNo) : BitVec 16 := if s.isl[n].lane.force then s.isl[n].aoForce else s.aoPlain n

/-- The raw code that R174 drives, and whether the driver is on. -/
def State.aoTarget (s : State) (n : IslandNo) : BitVec 16 × Bool :=
  let i := s.isl[n]
  if i.dead then (0, false)
  else if i.rungs.rung = 0 then ((i.reg 0xA0).extractLsb' 0 16, true)
  else if i.ana.hotDriver then (0, false)
  else if i.inSafe then i.aoSafe
  else (s.aoBase n, i.lane.force || !i.cmd.raw || i.cmd.en)

/-- The DAC takes the code that R174 gives; a change restarts the blanking of verification (R176). -/
def State.anaOutputs (s : State) (n : IslandNo) : State :=
  let d := (s.aoTarget n).1
  if d = s.isl[n].ana.driven then s
  else s.modIsl n (fun i => { i with ana := { i.ana with driven := d, changed := s.tick } })

/-- The output stage of an island follows its demands. -/
def State.outputs (s : State) (n : IslandNo) (later : Bool) : State :=
  let p := s.isl[n].pers
  if p.digOut then s.digOutputs n later else if p.anaOut then s.anaOutputs n else s

/-! ## Output words -/

/-- The limit of R172 acts on a VALUE: its raw code is outside the range, or enters an alarm band. Where the engine is selected and not
admitted, VALUE is not interpreted (log entry 28). -/
def Island.clips (i : Island) (c : OutCmd) : Bool :=
  i.pers.anaOut && !c.raw && !(decide (i.chMode ≠ 0) && decide (i.rungs.char = 0)) &&
  decide (i.aoRaw c.value ≠ ((i.aoLimit (i.aoRaw c.value)).toNat : Int))

/-- A VALUE was limited: one clamp to its requester, and CLIP in the image (R172). -/
def State.clip (s : State) (n : IslandNo) (m : Master) : State := (s.clamped m 1).sendLane (12 + s.itk) (.clip n)

/-- The VALUE in force is mapped anew, after an APPLY or a rung change: a limit that this brings is one more (R121, R172). -/
def State.reclip (s : State) (n : IslandNo) (old : Island) : State :=
  let i := s.isl[n]
  if i.clips i.cmd && (!old.clips i.cmd || decide (old.aoRaw i.cmd.value ≠ i.aoRaw i.cmd.value)) then s.clip n i.cmd.req else s

/-! ## Changes of demands -/

/-- The value that an output keeps for row 6 or row 10 when a hold or a safe state ends; the periods of a PWM run on (R149, R248,
R268). Log entry 40. -/
def Island.keep (i : Island) (v : BitVec 16) (on : Bool) : Island :=
  { i with cmd := if i.pers.anaOut then { en := on, alm := false, value := v, raw := true }
                  else { en := decide (v ≠ 0) || i.dout.run, alm := false, value := v, raw := true } }

/-- The value of rows 5 and below now: the held value of an entry (R265). -/
def State.baseValue (s : State) (n : IslandNo) : BitVec 16 :=
  if s.isl[n].pers.anaOut then s.aoBase n else s.isl[n].digBase

/-- What rows 5 and below give on the tick of an entry counts, also where it changes later on that tick (R147, R265). -/
def State.recapture (s : State) (n : IslandNo) : State :=
  if s.isl[n].inSafe && decide (s.isl[n].safe.heldAt = some s.tick) then
    s.modIsl n (fun i => { i with safe := { i.safe with held := s.baseValue n } })
  else s

/-- An output word takes effect at the output stage (R146, R172). -/
def State.wordTakes (s : State) (n : IslandNo) (c : OutCmd) : State :=
  if s.isl[n].lane.force then s
  else ((s.modIsl n (fun i => { i with cmd := c })).recapture n).outputs n true

/-- The value of rows 6 and below now. -/
def State.plainValue (s : State) (n : IslandNo) : BitVec 16 :=
  if s.isl[n].pers.anaOut then s.aoPlain n else s.isl[n].digCmd

/-- The value that FORCE gives now. -/
def Island.forceValue (i : Island) : BitVec 16 := if i.pers.anaOut then i.aoForce else i.digForce

/-- The value that the safe state gives now, and whether it drives. -/
def Island.safeValue (i : Island) : BitVec 16 × Bool :=
  if i.pers.anaOut then i.aoSafe else (i.digSafe, decide (i.digSafe ≠ 0))

/-- An entry captures the held value and loads the controller's copy (R265, R266); one that a promotion has copied stays (R344). b: what
rows 5 and below give. -/
def Island.enter (i : Island) (now : Tick) (b : BitVec 16) : Island :=
  let copied := match i.safe.heldAt with | some t => decide (now ≤ t) | none => false
  { i with safe := { i.safe with held := if copied then i.safe.held else b, heldAt := if copied || i.safeCtl then none else some now,
                                 ctlCode := BitVec.ofNat 3 (safeCode (i.reg 0x30)), ctlPreset := (i.reg 0x30).extractLsb' 0 16 } }

/-- Demands on island n change by f: FORCE keeps the value in force when it set, whatever row of R174 gave it, an entry captures what
the rows below give under the new lane, and the end of a hold or of the last safe demand keeps what it drove (R147, R248, R265, R268). -/
def State.demands (s : State) (n : IslandNo) (f : Island → Island) : State :=
  let i := s.isl[n]
  let j := f i
  let j := if !i.lane.force && j.lane.force then { j with ana := { j.ana with forceHeld := (s.aoTarget n).1 } } else j
  let j := if i.lane.force && !j.lane.force then j.keep i.forceValue true else j
  let j := if !i.inSafe && j.inSafe then j.enter s.tick ((s.modIsl n (fun _ => j)).baseValue n) else j
  let j := if i.inSafe && !j.inSafe then
      { j.keep i.safeValue.1 i.safeValue.2 with safe := { j.safe with heldAt := none } }
    else j
  ((s.modIsl n (fun _ => j)).recapture n).outputs n (decide (i.digTarget = j.digTarget))

/-- Downstream lane bits reach island n (R33). -/
def State.laneLand (s : State) (n : IslandNo) (d : DLane) : State := s.demands n (fun i => { i with lane := d })

end Sys2Proof.Machine
end

