-- ==== Sys2Proof/Machine/Input.lean ====
section
/-! DEFINITION. The input stage of an island: levels, the qualifier, the long-hold supervisor and the frequency gate (R131-R137, R145,
R402). -/

namespace Sys2Proof.Machine

/-! ## The input stage -/

/-- The input stage runs: above rung 0, and not in PREP or service hold (R121, R134, R136, R402). -/
def Island.inputOn (i : Island) : Bool :=
  i.pers.digIn && decide (i.rungs.rung ≠ 0) && decide (i.power = .running) && !i.prep && !i.hold

/-- F: 1 in host-assisted mode, else FILT + 1 (R132). -/
def Island.filterF (i : Island) : Nat := if (i.reg 0).getLsbD 10 then 1 else fld (i.reg 0) 16 12 + 1

/-- Island n's input stage after f. -/
def State.modDin (s : State) (n : IslandNo) (f : DigIn → DigIn) : State := s.modIsl n (fun i => { i with din := f i.din })

/-- The levels that the island sends: RAW and QUAL read 0 while INDET is set (R134). -/
def DigIn.levels (d : DigIn) : ULane := { raw := d.raw && !d.indet, qual := d.qual && !d.indet, indet := d.indet }

/-- The island's levels enter the upstream lane on the next itk (R33). -/
def State.upLane (s : State) (n : IslandNo) : State := s.sendLane (12 + s.itk) (.up n s.isl[n].din.levels)

/-- The raw state of a terminal level, after CFG.INV (R131). -/
def Island.rawOf (i : Island) : TermLevel → Bool
  | .above => !(i.reg 0).getLsbD 6
  | .below => (i.reg 0).getLsbD 6
  | .band => false

/-- Comparator thresholds in 0.1 V, by CFG.ITYPE: the range of the rising and of the falling one (R131). A terminal is above once it
has risen through its island's V_TH+ and below once it has fallen through its V_TH-; INPUT_TRANSITION reports that. -/
def Island.thresholds (i : Island) : (Nat × Nat) × (Nat × Nat) :=
  if (i.reg 0).getLsbD 5 then ((85, 100), (65, 80)) else ((110, 130), (90, 110))

/-- A level is to be qualified: the first one, or one that differs from QUAL (R132, R134). -/
def DigIn.open (d : DigIn) : Bool := if d.indet then d.crossed else d.raw != d.qual

/-- The qualified edge is owed once the raw level has been held for F itk, by the F in force (R132). -/
def State.requalify (s : State) (n : IslandNo) : State :=
  let s := s.cancel (.qualifiedEdge n)
  let i := s.isl[n]
  if i.inputOn && i.din.open then
    s.oweAt (laterTick (s.tick + BitVec.ofNat 64 s.itk) (i.din.since + BitVec.ofNat 64 (2 * i.filterF))) (.qualifiedEdge n)
  else s

/-- The qualifier counts the raw level from this itk (R132). -/
def State.qualify (s : State) (n : IslandNo) : State :=
  (s.modDin n (fun d => { d with since := s.tick + BitVec.ofNat 64 s.itk })).requalify n

/-- An input stage that stands: its comparator is biased to the inactive side (R134, R136). -/
def DigIn.biased (d : DigIn) : DigIn :=
  { d with raw := false, qual := false, indet := true, crossed := false, long := false, brk := false, curr := 0, riseSeen := false,
           fallSeen := false, riseDue := false, fallDue := false, reported := false }

/-- A frequency gate starts afresh (R145). -/
def State.gateStart (s : State) (n : IslandNo) : State :=
  let i := s.isl[n]
  let s := (s.cancel (.gateEnd n)).modDin n (fun d => { d with gEdges := 0, gFirst := 0, gLast := 0, gStop := false })
  if i.pers = .diCnt ∧ i.rungs.rung = 2 then s.owe (fld (i.reg 0x48) 8 24 * 512) (.gateEnd n) else s

/-- The input stage starts or ends: INDET is set, and a terminal beyond a threshold crosses it at once (R134, R136). -/
def State.inputStart (s : State) (n : IslandNo) : State :=
  let s := ((s.cancel (.longHold n)).cancel (.qualifiedEdge n)).modDin n DigIn.biased
  let i := s.isl[n]
  let s := if i.inputOn then s.modDin n (fun d => { d with raw := i.rawOf d.lvl, crossed := decide (d.lvl ≠ .band) }) else s
  (s.qualify n).upLane n

/-- CFG.INV changed while the stage runs: the raw state is the comparator's under the new CFG (R121, R131). -/
def State.inputInvert (s : State) (n : IslandNo) : State :=
  if s.isl[n].inputOn && s.isl[n].din.crossed then
    ((s.modDin n (fun d => { d with raw := !d.raw, reported := d.reported && (!d.raw != d.qual) })).qualify n).upLane n
  else s

/-- The long-hold limit is due LIMIT x 4096 tk after the count began; one that a new LIMIT has passed already is due now (R137; log
entry 58). -/
def State.longDue (s : State) (n : IslandNo) : State :=
  let s := s.cancel (.longHold n)
  let i := s.isl[n]
  let lim := (i.reg 0x40).toNat
  if i.inputOn && i.din.qual && !i.din.indet && !i.din.long && decide (lim ≠ 0) then
    s.oweAt (laterTick s.tick (i.din.longSince + BitVec.ofNat 64 (lim * 4096))) (.longHold n)
  else s

/-- The long-hold supervisor counts while QUAL is 1 and INDET is 0; LONG clears and the count returns to 0 with QUAL (R137). -/
def State.longWatch (s : State) (n : IslandNo) : State :=
  (s.modDin n (fun d => { d with longSince := s.tick, long := d.long && d.qual && !d.indet })).longDue n

/-- LIMIT changes: the count goes on, and begins where the supervisor was off (R137). -/
def State.longLimit (s : State) (n : IslandNo) (old : Word) : State :=
  (if old = 0 then s.modDin n (fun d => { d with longSince := s.tick }) else s).longDue n

end Sys2Proof.Machine
end

