-- ==== Sys2Proof/Machine/Adc.lean ====
section
/-! DEFINITION. The island converter, its sequencer and what becomes of its results (R161-R167, R176, R177, R190-R207). -/

namespace Sys2Proof.Machine

/-! ## Rates and sequences -/

/-- 0 no converter, 1 sequenced, 2 continuous (R192). -/
def adcMode (p : Pers) (r : Nat) : Nat :=
  match p with
  | .off => 0
  | .diCnt => 0
  | .di => if r = 2 then 2 else 0
  | .dO => if r = 2 then 2 else 0
  | .diWb => if r = 3 then 2 else 0
  | .doPwm => if r = 3 then 2 else 0
  | _ => min r 2

/-- The converter's mode in the island (R192). -/
def Island.adcMode (i : Island) : Nat := Sys2Proof.Machine.adcMode i.pers i.rungs.rung.val

/-- A sequence entry as a register word: ROLE, AVG, ACQ, MUX (R207). -/
def mkEntry (role mux acq avg : Nat) : Word := BitVec.ofNat 32 (role <<< 29 + avg <<< 24 + acq <<< 8 + mux)

/-- The default sequence of a personality (R196). -/
def Island.defaultSeq (i : Island) : List Word :=
  let c := i.reg 0
  let a16 := if i.rungs.rung = 1 then 0 else 4
  let a4 := if i.rungs.rung = 1 then 0 else 2
  match i.pers with
  | .di => [mkEntry 1 6 8 0]
  | .diWb => [mkEntry 1 7 8 0]
  | .dO => [mkEntry 1 5 8 0]
  | .doPwm => [mkEntry 1 5 8 0]
  | .aiI => [mkEntry 1 (if c.getLsbD 17 then 4 else 3) 32 a16]
  | .aiV => [mkEntry 1 0 32 a16]
  | .aiRtd => if c.getLsbD 16 then [mkEntry 1 1 64 a16, mkEntry 2 2 64 2] else [mkEntry 1 0 64 a16]
  | .aoI => [mkEntry 1 5 16 a4]
  | .aoV => [mkEntry 1 1 16 a4]
  | _ => []

/-- RLEN (R195). -/
def Island.rlen (i : Island) : Nat := min 16 (fld (i.reg 0x150) 16 5)

/-- ILEN (R199). -/
def Island.ilen (i : Island) : Nat := min 4 (fld (i.reg 0x150) 12 3)

/-- The regular sequence (R195, R196). -/
def Island.regSeq (i : Island) : List Word :=
  if i.rlen = 0 then i.defaultSeq else (List.range i.rlen).map (fun k => i.reg (0x100 + 4 * k))

/-- The injected sequence (R199). -/
def Island.injSeq (i : Island) : List Word := (List.range i.ilen).map (fun k => i.reg (0x140 + 4 * k))

/-- HASEQ (R202). -/
def Island.haseq (i : Island) : Bool := (i.reg 0x150).getLsbD 31

/-- RMODE = 1: triggered rounds; the default sequence runs freely (R195, R196). -/
def Island.triggered (i : Island) : Bool := (i.reg 0x150).getLsbD 30 && decide (i.rlen ≠ 0)

/-- RPER in ticks; 0 for the default sequence (R195, R196). -/
def Island.rperTk (i : Island) : Nat := if i.rlen = 0 then 0 else 2 * fld (i.reg 0x154) 0 20

/-- The entry that is being converted. -/
def Island.curEntry (i : Island) : Word :=
  if i.adc.st = .injected then i.injSeq.getD i.adc.cur.toNat 0 else i.regSeq.getD i.adc.cur.toNat 0

/-- Precision mode: rung 3 of the analog inputs (R51, R190). -/
def Island.precision (i : Island) : Bool := i.pers.anaIn && decide (i.rungs.rung = 3)

/-- Ticks of a conversion: ACQ + 20 itk, an acquisition of 4 itk in a calibration, and twice that for the chopped pair of precision
mode (R190, R193). -/
def Island.convTk (i : Island) : Nat :=
  let acq := if i.adc.cal && decide (i.adc.st ≠ .injected) then 4 else max 4 (fld i.curEntry 8 8)
  (if i.precision then 4 else 2) * (acq + 20)

/-- Conversions of an entry: 2^AVG, AVG at most 8 (R198). -/
def entryConvs (e : Word) : Nat := 2 ^ min 8 (fld e 24 4)

/-! ## Starting work -/

/-- Island n's converter after f. -/
def State.modAdc (s : State) (n : IslandNo) (f : Adc → Adc) : State := s.modIsl n (fun i => { i with adc := f i.adc })

/-- The converter has an entry, a group or a calibration to convert. -/
def Adc.work (a : Adc) : Bool := a.cal || decide (a.st = .injected) || decide (a.st = .regular)

/-- The next acquisition is owed on itk t or later: at the sequenced rung no sooner than 1024 itk after the last start (R190,
R192). Service hold suspends it (R402). -/
def State.adcKickAt (s : State) (n : IslandNo) (t : Tick) : State :=
  let i := s.isl[n]
  if decide (i.adcMode ≠ 0) && !i.hold && !i.adc.conv && i.adc.work && !(s.due.any (fun e => e.2 = .conversionStart n)) then
    s.oweAt (if i.adcMode = 1 ∧ i.adc.started then laterTick t (i.adc.convAt + 2048) else t) (.conversionStart n)
  else s

/-- The next acquisition is owed on the next itk (R190). -/
def State.adcKick (s : State) (n : IslandNo) : State := s.adcKickAt n (s.tick + BitVec.ofNat 64 (2 - s.itk))

/-- The tick from which the next free-running round may start: RPER after the start of the previous one (R195). -/
def Island.roundFrom (i : Island) : Tick := match i.adc.roundAt with | some u => u + BitVec.ofNat 64 i.rperTk | none => 0

/-- A free-running round is due (R195). -/
def State.roundDue (s : State) (n : IslandNo) : State := s.oweAt (laterTick s.tick s.isl[n].roundFrom) (.roundStart n)

/-- A round that waited for a group or a calibration starts now (R195, R201). -/
def State.roundGo (s : State) (n : IslandNo) : State :=
  s.modAdc n (fun a => if a.roundNew then { a with roundNew := false, roundAt := some s.tick } else a)

/-- Between two regular entries: a calibration that is due goes first (R193, R201), then the next entry, a pending CONVERT
(R202), or the next round (R195). -/
def State.adcNext (s : State) (n : IslandNo) : State :=
  let i := s.isl[n]
  let a := i.adc
  if a.calPend then (s.modAdc n (fun a => { a with calPend := false, cal := true, calDone := 0, calSum := 0 })).adcKick n
  else if a.inRound then ((s.roundGo n).modAdc n (fun a => { a with st := .regular })).adcKick n
  else match a.convPend with
    | some e =>
      (s.modAdc n (fun a => { a with st := .regular, cur := e, done := 0, sum := 0, ovr := false, redone := false, convPend := none })).adcKick n
    | none =>
      let s := s.modAdc n (fun a => { a with st := .idle })
      if i.haseq then s
      else if !i.triggered then s.roundDue n
      else if a.rpend then (s.modAdc n (fun a => { a with rpend := false })).oweAt s.tick (.roundStart n)
      else s

/-- Commands of the sequencer that are owed end. -/
def State.adcCancel (s : State) (n : IslandNo) : State :=
  ((s.cancel (.conversionStart n)).cancel (.roundStart n)).cancel (.calibrationStart n)

/-- CALINT x 65 536 itk in ticks; 0 selects 16 (R193, R207). -/
def Island.calTk (i : Island) : Nat := (if fld (i.reg 0x150) 0 8 = 0 then 16 else fld (i.reg 0x150) 0 8) * 131072

/-- The regular sequence restarts at entry 0: after a rung change, pending triggers kept (R206), and after a service hold
(R403). A triggered round that runs or is about to start starts again, or its trigger is kept while the converter is off. A group
that was running is pending again (log entry 25). -/
def State.adcRestart (s : State) (n : IslandNo) : State :=
  let i := s.isl[n]
  let on := decide (i.adcMode ≠ 0)
  let again := i.triggered && !i.haseq && (i.adc.inRound || s.due.any (fun e => e.2 = .roundStart n))
  let s := (s.adcCancel n).modAdc n (fun a =>
    { a with st := if on then .idle else .off, conv := false, cur := 0, done := 0, sum := 0, ovr := false, redone := false, saved := none,
             inRound := false, roundNew := false, cal := false, ipend := a.ipend || decide (a.st = .injected), rpend := a.rpend || (again && !on) })
  if on && !i.hold then
    let s := if i.haseq then s else s.owe i.calTk (.calibrationStart n)
    let s := if again then s.oweAt s.tick (.roundStart n) else s
    if s.isl[n].adc.ipend then (s.modAdc n (fun a => { a with ipend := false, st := .injected })).adcKick n
    else if again then s else s.adcNext n
  else s

/-- An APPLY that changes an ADC field: conversions, triggers and slots are cleared, and the new sequence starts (R206). -/
def State.adcApply (s : State) (n : IslandNo) : State :=
  (s.modAdc n (fun a => { Adc.reset with convAt := a.convAt, started := a.started, zero := a.zero, refFails := a.refFails,
                                         refBad := a.refBad, tovr := a.tovr, redo := a.redo, drop := a.drop, cskip := a.cskip })).adcRestart n

/-! ## Triggers -/

/-- A trigger or command is dropped (R192, R199, R202). -/
def State.adcDrop (s : State) (n : IslandNo) : State := s.modAdc n (fun a => { a with drop := satAdd a.drop 1 })

/-- A trigger is lost to overrun (R195, R199). -/
def State.adcLost (s : State) (n : IslandNo) : State := s.modAdc n (fun a => { a with tovr := satAdd a.tovr 1 })

/-- An injected trigger: it pre-empts regular work and calibration, or is held as pending, or is lost (R199, R200). A trigger of a
group without entries is dropped and counted (DESIGN CHOICE, log entry 65). -/
def State.injTrigger (s : State) (n : IslandNo) : State :=
  let i := s.isl[n]
  let a := i.adc
  if i.adcMode = 0 ∨ i.ilen = 0 then s.adcDrop n
  else if a.st = .injected ∨ i.hold then
    if a.ipend then s.adcLost n else s.modAdc n (fun a => { a with ipend := true })
  else
    ((s.cancel (.conversionStart n)).modAdc n (fun a =>
      { a with saved := if a.st = .regular ∨ a.inRound then some (a.cur, a.done, a.sum, a.ovr, a.redone) else none, st := .injected, conv := false,
               cur := 0, done := 0, sum := 0, ovr := false, redone := false, calDone := 0, calSum := 0 })).adcKick n

/-- A qualified edge in a direction that EDGE selects: an injected trigger with ITRIG = 2, else dropped (R199). -/
def State.edgeTrigger (s : State) (n : IslandNo) : State :=
  if fld (s.isl[n].reg 0x150) 8 2 = 2 then s.injTrigger n else s.adcDrop n

/-- INJECT (R199): with ITRIG = 1 an injected trigger, else dropped. -/
def State.adcInject (s : State) (n : IslandNo) : State :=
  if fld (s.isl[n].reg 0x150) 8 2 = 1 then s.injTrigger n else s.adcDrop n

/-- RTRIG (R195, R202): a triggered round starts, or the trigger is pending, or lost; dropped where rounds are not
triggered. -/
def State.adcRtrig (s : State) (n : IslandNo) : State :=
  let i := s.isl[n]
  if i.adcMode = 0 ∨ i.haseq ∨ !i.triggered then s.adcDrop n
  else if i.adc.inRound ∨ i.adc.st = .injected ∨ i.adc.cal ∨ i.hold ∨ s.due.any (fun e => e.2 = .roundStart n) then
    if i.adc.rpend then s.adcLost n else s.modAdc n (fun a => { a with rpend := true })
  else s.oweAt s.tick (.roundStart n)

/-- CONVERT of master m (R202): one conversion of the named regular entry, or pending, or dropped. ENTRY is limited to the last
entry, a clamp of the requester (R12). Outside host-assisted sequencing it is dropped and counted (DESIGN CHOICE, log entry 65). -/
def State.adcConvert (s : State) (n : IslandNo) (m : Master) (entry : BitVec 4) : State :=
  let i := s.isl[n]
  let top := i.regSeq.length - 1
  let s := if top < entry.toNat then s.clamped m 1 else s
  let e := BitVec.ofNat 4 (min entry.toNat top)
  if i.adcMode = 0 ∨ !i.haseq ∨ i.regSeq = [] ∨ i.adc.convPend.isSome then s.adcDrop n
  else
    let s := s.modAdc n (fun a => { a with convPend := some e })
    if i.adc.work then s else s.adcNext n

/-- CAL (R202): one calibration in host-assisted sequencing. Outside it, and while a calibration waits or runs, it is dropped and
counted (DESIGN CHOICE, log entry 65). -/
def State.adcCal (s : State) (n : IslandNo) : State :=
  let i := s.isl[n]
  if i.adcMode = 0 ∨ !i.haseq ∨ i.adc.calPend ∨ i.adc.cal then s.adcDrop n
  else
    let s := s.modAdc n (fun a => { a with calPend := true })
    if i.adc.work then s else s.adcNext n

/-- ADC_INJECT (R199). -/
def execAdcInject (n : IslandNo) (s : State) : Host.Outcome State Fault Refusal :=
  s.act fun s => (s.landed n (.cmd (.adc 3 0))).adcInject n

/-- ADC_RTRIG (R195, R202). -/
def execAdcRtrig (n : IslandNo) (s : State) : Host.Outcome State Fault Refusal :=
  s.act fun s => (s.landed n (.cmd (.adc 2 0))).adcRtrig n

/-- ADC_CONVERT (R202). -/
def execAdcConvert (n : IslandNo) (entry : BitVec 4) (s : State) : Host.Outcome State Fault Refusal :=
  s.act fun s => (s.landed n (.cmd (.adc 1 entry))).adcConvert n (s.requester n (.cmd (.adc 1 entry))) entry

/-- ADC_CAL (R202). -/
def execAdcCal (n : IslandNo) (s : State) : Host.Outcome State Fault Refusal :=
  s.act fun s => (s.landed n (.cmd (.adc 4 0))).adcCal n

/-- The converter stands between two entries, before a regular entry that has not started (R193, R201). -/
def Adc.between (a : Adc) : Bool := !a.cal && decide (a.st = .regular) && !a.conv && decide (a.done = 0)

/-- A calibration starts in place of the regular entry that would start next, on this itk or as soon as the rate limit lets it (R192,
R201). -/
def State.calBegin (s : State) (n : IslandNo) : State :=
  ((s.cancel (.conversionStart n)).modAdc n (fun a => { a with calPend := false, cal := true, calDone := 0, calSum := 0 })).adcKickAt n
    (s.tick + BitVec.ofNat 64 s.itk)

/-- CALIBRATION_START (R193): on the tick that is owed the calibration goes in before the next regular entry; the next one is owed.
In host-assisted sequencing none runs by itself (R202). -/
def execCalibrationStart (n : IslandNo) (s : State) : Host.Outcome State Fault Refusal :=
  s.timed (.calibrationStart n) fun s =>
    let i := s.isl[n]
    if i.adcMode = 0 ∨ i.hold ∨ i.haseq then s
    else
      let s := (s.modAdc n (fun a => { a with calPend := !a.cal })).owe i.calTk (.calibrationStart n)
      if i.adc.between then s.calBegin n
      else if i.adc.work then s else s.adcNext n

/-- A round may start now: a free-running one once RPER has passed, a triggered one on its trigger (R195, R202). -/
def State.mayRound (s : State) (n : IslandNo) : Bool :=
  let i := s.isl[n]
  decide (i.adcMode ≠ 0) && !i.hold && !i.haseq && !i.adc.inRound && decide (i.regSeq ≠ []) &&
  (if i.triggered then s.isDue (.roundStart n) else decide (i.roundFrom ≤ s.tick))

/-- ROUND_START (R195): a round begins with entry 0; it waits for a group or a calibration that runs (R201). -/
def execRoundStart (n : IslandNo) (s : State) : Host.Outcome State Fault Refusal :=
  s.act fun s =>
    if !s.mayRound n then s.settle (.roundStart n)
    else
      let s := s.settle (.roundStart n)
      let i := s.isl[n]
      let s := s.modAdc n (fun a =>
        { a with inRound := true, roundNew := true,
                 cur := if a.st = .injected then a.cur else 0, done := if a.st = .injected then a.done else 0,
                 sum := if a.st = .injected then a.sum else 0, ovr := if a.st = .injected then a.ovr else false,
                 saved := if a.st = .injected then some (0, 0, 0, false, false) else a.saved })
      if i.adc.st = .injected ∨ i.adc.cal then s else s.adcNext n

/-- CONVERSION_START (R192): the converter begins the acquisition that is due. -/
def execConversionStart (n : IslandNo) (s : State) : Host.Outcome State Fault Refusal :=
  s.act fun s =>
    if !s.isDue (.conversionStart n) then s
    else
      let s := s.settle (.conversionStart n)
      let i := s.isl[n]
      if i.adcMode = 0 ∨ i.hold ∨ i.adc.conv ∨ !i.adc.work then s
      else
        s.modAdc n (fun a =>
          { a with conv := true, convAt := s.tick, started := true,
                   shown := if a.cal && decide (a.st ≠ .injected) then a.shown else a.cur })

/-! ## Conversions -/

/-- A code limited to 18 bits. -/
def code18 (v : Int) : BitVec 18 := BitVec.ofInt 18 (clampInt (-131072) 131071 v)

/-- The entry that a slot belongs to. -/
def Island.slotEntry (i : Island) (k : Fin 20) : Word :=
  if k.val < 16 then i.regSeq.getD k.val 0 else i.injSeq.getD (k.val - 16) 0

/-- ROLE of an entry; 3, and any role of an injected entry, is SLOT; PRIMARY needs a primary quantity (R197, R207). -/
def Island.role (i : Island) (k : Fin 20) : Nat :=
  let e := fld (i.slotEntry k) 29 2
  if 16 ≤ k.val then 0
  else if e = 1 ∧ i.pers ≠ .diCnt ∧ i.pers ≠ .off then 1
  else if e = 2 ∧ i.pers = .aiRtd ∧ (i.reg 0).getLsbD 16 then 2 else 0

/-- Ticks from a conversion's last itk to the write of its result: 2 itk, and the engine's time for a PRIMARY result of an input (R178,
R190). -/
def Island.trimTk (i : Island) (k : Fin 20) : Nat := 4 + (if i.pers.anaIn && decide (i.role k = 1) then i.engineTk else 0)

/-- A conversion of the entry in progress ends: its code is trimmed by the latest zero result and joins the mean (R193, R198);
the last one makes the result ready, to be written 2 itk later (R190). -/
def State.entryConv (s : State) (n : IslandNo) (code : BitVec 18) (ovr : Bool) : State :=
  let i := s.isl[n]
  let a := i.adc
  let inj := decide (a.st = .injected)
  let k := entryConvs i.curEntry
  let sum := a.sum + (code18 (code.toInt - a.zero)).toInt
  if a.done + 1 < k then (s.modAdc n (fun a => { a with done := a.done + 1, sum := sum, ovr := a.ovr || ovr })).adcKick n
  else
    let len := if inj then i.injSeq.length else i.regSeq.length
    let isLast := decide (len ≤ a.cur.toNat + 1)
    let last : Fin 3 := if inj then (if isLast then 2 else 0) else if a.inRound ∧ isLast then 1 else 0
    let slot : Fin 20 := Fin.ofNat 20 (if inj then 16 + a.cur.toNat % 4 else a.cur.toNat)
    let s := (s.modAdc n (fun a =>
      { a with ready := some { slot := slot, code := code18 (rdiv sum k), ovr := a.ovr || ovr, redo := a.redone, last := last },
               done := 0, sum := 0, ovr := false, redone := false })).owe (i.trimTk slot + s.itk) (.resultWrite n)
    if inj then
      if !isLast then (s.modAdc n (fun a => { a with cur := a.cur + 1 })).adcKick n
      else if a.ipend then (s.modAdc n (fun a => { a with cur := 0, ipend := false })).adcKick n
      else
        match a.saved with
        | some (c, d, m, o, r) =>
          let s := s.modAdc n (fun a => { a with st := .regular, cur := c, done := d, sum := m, ovr := o, redone := r, saved := none })
          let s := if a.cal then s else s.roundGo n
          if !a.cal && a.inRound && decide (d = 0) then s.adcNext n else s.adcKick n
        | none =>
          let s := s.modAdc n (fun a => { a with st := .idle })
          if a.cal then s.adcKick n
          else if s.due.any (fun e => e.2 = .roundStart n) then s else s.adcNext n
    else if a.inRound ∧ !isLast then (s.modAdc n (fun a => { a with cur := a.cur + 1 })).adcNext n
    else (s.modAdc n (fun a => { a with inRound := false, st := .idle })).adcNext n

/-- A calibration conversion ends: 16 of input 11 give the zero, the 17th checks the reference (R193, R194): a code more than
0.1 % of full scale from its trimmed value fails the check, and the second failure in a row raises ADC_REF (log entry 26). The zero
corrects the 17th code as it does every later result. -/
def State.calConv (s : State) (n : IslandNo) (code : BitVec 18) : State :=
  let a := s.isl[n].adc
  if a.calDone < 15 then
    (s.modAdc n (fun a => { a with calDone := a.calDone + 1, calSum := a.calSum + code.toInt })).adcKick n
  else if a.calDone = 15 then
    (s.modAdc n (fun a => { a with calDone := 16, calSum := 0, zero := rdiv (a.calSum + code.toInt) 16 })).adcKick n
  else
    let bad := decide (131 < (code18 (code.toInt - a.zero)).toInt.natAbs)
    let s := s.modAdc n (fun a =>
      { a with cal := false, calDone := 0, refFails := if bad then min 2 (a.refFails + 1) else 0,
               refBad := if bad then a.refBad || decide (1 ≤ a.refFails) else false })
    let s := if bad ∧ a.refFails = 1 then s.islandFault n 0x4D 0 else s
    let b := s.isl[n].adc
    if b.st = .injected ∨ (b.st = .regular ∧ b.done ≠ 0) then s.adcKick n else s.adcNext n

/-- An AO_V island that finds TB open sets ADIAG.LEAD, which has no fault source (R170). Log entry 50. -/
def State.tbCheck (s : State) (n : IslandNo) (tbOpen : Bool) : State :=
  let i := s.isl[n]
  if i.pers ≠ .aoV then s
  else
    let s := s.modIsl n (fun i => { i with ana := { i.ana with tbOpen := tbOpen } })
    if tbOpen && !i.ana.tbOpen then (s.modIsl n (fun i => { i with adiag := i.adiag ||| 2 })).sendUp n (.status .diag) else s

/-- CONVERSION_END (R190): on the last itk of a conversion, code is what the converter gives after the factory trim, and ovr says
whether the limiter in series with the burden of AI_I conducts (R162). A conversion that was discarded meanwhile gives nothing, and none ends
before its time. -/
def execConversionEnd (n : IslandNo) (code : BitVec 18) (ovr : OverRange) (tbOpen : Bool) (s : State) : Host.Outcome State Fault Refusal :=
  s.act fun s =>
    let i := s.isl[n]
    let a := i.adc
    if !a.conv || decide (s.tick + 2 < a.convAt + BitVec.ofNat 64 i.convTk) then s
    else
      let s := ((s.modAdc n (fun a => { a with conv := false })).tbCheck n tbOpen).modIsl n (fun i =>
        { i with ana := { i.ana with limiter := ovr.limiter && decide (i.pers = .aiI) } })
      if a.cal ∧ a.st ≠ .injected then s.calConv n code
      else if a.st = .injected ∨ a.st = .regular then s.entryConv n code ovr.scale
      else s

/-- HCK stopped and runs again: on the first itk the entry or calibration in progress starts again from its first conversion, and its
result carries REDO (R18, R205). It runs on the first tick after the stop. -/
def State.adcResume (s : State) (n : IslandNo) : State :=
  let a := s.isl[n].adc
  let t := s.tick + BitVec.ofNat 64 s.itk
  if a.cal ∧ a.st ≠ .injected then
    if a.conv ∨ a.calDone ≠ 0 then (s.modAdc n (fun a => { a with conv := false, calDone := 0, calSum := 0 })).adcKickAt n t else s
  else if a.conv ∨ a.done ≠ 0 then
    (s.modAdc n (fun a => { a with conv := false, done := 0, sum := 0, ovr := false, redone := true, redo := satAdd a.redo 1 })).adcKickAt n t
  else s

/-! ## Results -/

/-- V(TA - TC) / I of an RTD as a raw code: the PRIMARY result of 2 wires, and with the lead drop that of 3 wires (R165). -/
def Island.rtdTop (i : Island) (c : Int) : Int := rdiv (c * 52500) 131072 + (if (i.reg 0).getLsbD 16 then i.adc.lead.getD 0 else 0)

/-- The mean code as a raw code of an analog input, before its range: each result is rounded to the raw code's LSB (R160-R165). -/
def Island.rawCode (i : Island) (c : Int) : Int :=
  let cfg := i.reg 0
  match i.pers with
  | .aiI =>
    if cfg.getLsbD 17 then rdiv (c * 2100000000) (131072 * max 5000 (fld (i.reg 0x80) 16 16)) else rdiv (c * 15625) 31744
  | .aiRtd =>
    rdiv (c * 52500) 131072 - (if cfg.getLsbD 16 then i.adc.lead.getD 0 else (fld (i.reg 0x80) 0 16 : Int))
  | _ => rdiv (c * 26250) 131072

/-- Limits a raw code to the range of the personality (R160). -/
def rawLimit (p : Pers) (v : Int) : Int :=
  match p with
  | .aiI => clampInt 0 52000 v
  | .aiRtd => clampInt 0 50000 v
  | .aiV => clampInt (-26250) 26250 v
  | .aoI => clampInt 0 48000 v
  | _ => clampInt 0 25000 v

/-- NE 43 zone of a raw code (R167). -/
def neZone (v : Int) : Fin 5 :=
  if v ≤ 7200 then 3 else if v ≤ 7599 then 1 else if v ≤ 41000 then 0 else if v ≤ 41999 then 2 else 4

/-- NE 43 classification runs (R167). -/
def Island.neOn (i : Island) : Bool := decide (i.pers = .aiI) && (i.reg 0).getLsbD 23 && !(i.reg 0).getLsbD 20

/-- Classification of one raw result (R167): a zone takes effect when NQ + 1 results in a row fall in it; entering a fail zone
raises AI_NE43 with the zone as its kind. -/
def State.neClassify (s : State) (n : IslandNo) (v : Int) : State :=
  let i := s.isl[n]
  if i.neOn then
    let z := neZone v
    let a := i.ana
    if z = a.ne then s.modIsl n (fun i => { i with ana := { i.ana with neCnt := 0, neCand := z } })
    else
      let k := if z = a.neCand then a.neCnt + 1 else 1
      if fld (i.reg 0xB4) 0 4 + 1 ≤ k then
        let s := s.modIsl n (fun i => { i with ana := { i.ana with ne := z, neCand := z, neCnt := 0 } })
        if z = 3 ∨ z = 4 then s.anaDiag n 3 0x4A (BitVec.ofNat 8 z.val) else s
      else s.modIsl n (fun i => { i with ana := { i.ana with neCand := z, neCnt := k } })
  else s.modIsl n (fun i => { i with ana := { i.ana with ne := 0, neCand := 0, neCnt := 0 } })

/-- Output verification of one sensed code against the driven one (R176, R177): not in rows 1 to 3 and row 4 under
de-energise, nor while VF is low (R159), nor within VBLANK x 64 itk after a change of the driven code. -/
def State.senseCheck (s : State) (n : IslandNo) (v : Int) : State :=
  let i := s.isl[n]
  let d : Int := i.ana.driven.toNat
  let tol : Int := max 64 (fld (i.reg 0xB0) 0 16)
  let blank := (if fld (i.reg 0xB0) 16 8 = 0 then 16 else fld (i.reg 0xB0) 16 8) * 128
  let nn := fld (i.reg 0) 24 4 + 1
  let off := i.dead || decide (i.rungs.rung = 0) || i.ana.hotDriver || (i.inSafe && !i.aoSafe.2) || i.vfLow
  if off || decide ((s.tick - i.ana.changed).toNat < blank) then s
  else
    let low := decide (v < d - tol)
    let high := decide (d + tol < v)
    let kl := if low then min (nn + 1) (i.ana.cntLow + 1) else 0
    let kh := if high then min (nn + 1) (i.ana.cntHigh + 1) else 0
    let s := s.modIsl n (fun i =>
      { i with ana := { i.ana with cntLow := kl, cntHigh := kh, vlow := decide (nn ≤ kl), vhigh := decide (nn ≤ kh) } })
    if kl = nn then s.anaDiag n 4 0x40 4 else if kh = nn then s.anaDiag n 5 0x40 5 else s

/-- A PRIMARY result of island n: the value it gives (R154, R161-R167, R176, R178, R197). -/
def State.primary (s : State) (n : IslandNo) (r : AdcReady) : State × BitVec 16 :=
  let i := s.isl[n]
  let c := r.code.toInt
  if i.pers.anaIn then
    let top := decide (i.pers = .aiRtd) && (r.ovr || decide (50000 < i.rtdTop c))
    let v := if top then 50000 else rawLimit i.pers (i.rawCode c)
    let s := s.modIsl n (fun i => { i with ana := { i.ana with ovr := r.ovr || top, opn := top }, adc := { i.adc with prim := some v } })
    let s := if top ∧ !i.ana.opn then s.anaDiag n 0 0x49 0 else s
    let s := s.neClassify n v
    (s, BitVec.ofInt 16 (if i.engineOn then i.charMap v else v))
  else if i.pers.anaOut then
    let v := rawLimit i.pers (if i.pers = .aoI then rdiv (c * 60000) 131072 else rdiv (c * 26250) 131072)
    ((s.modAdc n (fun a => { a with prim := some v })).senseCheck n v, BitVec.ofInt 16 v)
  else if i.pers.digOut then (s, BitVec.ofInt 16 (clampInt 0 65535 (rdiv (c * 20000) 131072)))
  else (s, r.code.extractLsb' 2 16)

/-- 50 Ohm as a raw code (R160, R165). -/
def Island.leadTop (i : Island) : Int := if (i.reg 0).getLsbD 15 then 500 else 5000

/-- A LEAD result: the lead drop is kept as a raw code, and more than 50 Ohm sets ADIAG.LEAD, which has no fault source (R165, R197,
R203). -/
def State.leadResult (s : State) (n : IslandNo) (r : AdcReady) : State :=
  let i := s.isl[n]
  let v := rdiv (r.code.toInt * 52500) 131072
  let s := s.modAdc n (fun a => { a with lead := some v })
  if i.leadTop < v ∧ i.adc.lead.getD 0 ≤ i.leadTop then
    (s.modIsl n (fun i => { i with adiag := i.adiag ||| 2 })).sendUp n (.status .diag)
  else s

/-- A result slot's word after a write: OVWR where NEW was set (R207). -/
def slotWord (old : Word) (r : AdcReady) (ref : Bool) (round : BitVec 4) : Word :=
  BitVec.ofNat 32 (2 ^ 31 + b2n (old.getLsbD 31) <<< 30 + b2n r.ovr <<< 29 + b2n r.redo <<< 28 + b2n ref <<< 27 + round.toNat <<< 23 +
    r.code.toNat)

/-- RESULT cell data (R204). -/
def resultWord (r : AdcReady) (ref : Bool) (round : BitVec 4) (v : Option (BitVec 16)) : Word :=
  BitVec.ofNat 32 (r.slot.val <<< 27 + b2n r.ovr <<< 26 + b2n r.redo <<< 25 + b2n ref <<< 24 + round.toNat <<< 20 +
    (match v with | some x => 2 ^ 18 + x.toNat | none => r.code.toNat))

/-- A PRIMARY result of a 3-wire RTD before any LEAD result: its VALUE is not VALID (R197). -/
def Island.noLead (i : Island) : Bool := decide (i.pers = .aiRtd) && (i.reg 0).getLsbD 16 && i.adc.lead.isNone

/-- What the host side learns of a VALUE beside its cell's data: bit 0, it is a raw code; bit 1, it is not VALID (R178, R197). -/
def Island.valueMarks (i : Island) : BitVec 19 := BitVec.ofNat 19 (b2n (!i.engineOn) + 2 * b2n i.noLead)

/-- RESULT_WRITE (R190, R203, R204): on the tick that is owed the slot takes the result; PRIMARY and DMA results leave as a RESULT cell unless 8 cells wait;
ADC_RES, and at the end of a round or group ADC_ROUND or ADC_INJ, are driven. -/
def execResultWrite (n : IslandNo) (s : State) : Host.Outcome State Fault Refusal :=
  s.timed (.resultWrite n) fun s =>
    match s.isl[n].adc.ready with
    | none => s
    | some r =>
      let i := s.isl[n]
      let e := i.slotEntry r.slot
      let role := i.role r.slot
      let s := s.modAdc n (fun a =>
        { a with ready := none, slots := a.slots.set r.slot (slotWord a.slots[r.slot] r a.refBad a.round) })
      let s := if role = 2 then s.leadResult n r else s
      let (s, v) := if role = 1 then (let (s, x) := s.primary n r; (s, some x)) else (s, none)
      let s :=
        if !(decide (role = 1) || e.getLsbD 22) then s
        else if 8 ≤ s.isl[n].up.countP (fun c => !c.sent) then s.modAdc n (fun a => { a with cskip := satAdd a.cskip 1 })
        else s.sendUpAs n (.result (resultWord r i.adc.refBad i.adc.round v)) (.island n) 0 0 i.valueMarks
      let s := if e.getLsbD 23 then s.sendLane (12 + s.itk) (.ind n (BitVec.ofNat 9 (0x070 + n.val)) none 3) else s
      if r.last = 1 then
        (s.modAdc n (fun a => { a with round := a.round + 1 })).sendLane (12 + s.itk) (.ind n (BitVec.ofNat 9 (0x080 + n.val)) none 3)
      else if r.last = 2 then s.sendLane (12 + s.itk) (.ind n (BitVec.ofNat 9 (0x090 + n.val)) none 3)
      else s

/-- RESULT_CELL (R204): a VAL = 1 cell gives the image word its value, and the result of an entry with DMA = 1 goes to the
result stream of 32 entries (R260). -/
def execResultCell (n : IslandNo) (w : Word) (s : State) : Host.Outcome State Fault Refusal :=
  s.act fun s =>
    let x : BitVec 19 := match flying (.result w) s.isl[n].up with | some c => c.xref | none => s.isl[n].valueMarks
    let s := s.arrived n (.result w)
    let k := Fin.ofNat 20 (fld w 27 5)
    if s.running n then
      let i := s.isl[n]
      let s := if w.getLsbD 18 ∧ !i.hold then
          s.modIsl n (fun i => { i with ana := { i.ana with
            value := w.extractLsb' 0 16, valid := !x.getLsbD 1, new := true, rawv := i.pers.anaIn && x.getLsbD 0,
            stillCut := i.ana.stillCut || w.getLsbD 25 } })
        else s
      if (i.slotEntry k).getLsbD 22 then
        if i.rstream.length < 32 then s.modIsl n (fun i => { i with rstream := i.rstream ++ [w] })
        else s.modIsl n (fun i => { i with rsOvr := satAdd i.rsOvr 1 })
      else s
    else s

/-! ## Service hold -/

/-- The peer of a cross loop: n XOR 1 (R400). -/
def peerOf (n : IslandNo) : IslandNo := if n.val % 2 = 0 then n + 1 else n - 1

/-- The hold of a RUNNING island ends: the sequence restarts, and no output is energised before the next word or command, but a
reflex hold or a safe demand that stands governs (R402, R403). VALUE is not VALID before the first result (R405's bench). -/
def State.holdEnd (s : State) (n : IslandNo) : State :=
  if s.isl[n].hold ∧ s.running n then
    (((s.modIsl n (fun i =>
      { i with hold := false, cmd := { OutCmd.reset with raw := true }, ana := { i.ana with valid := false } })).outputs n true).inputStart
        n).adcRestart n
  else s.modIsl n (fun i => { i with hold := false })

/-- The loopback on one island ends; a measurement that runs takes this state and reason (R403, R410). -/
def State.loopEnd (s : State) (n : IslandNo) (st : BitVec 2) (reason : BitVec 4) : State :=
  (s.modIsl n (fun i =>
    { i with loop := { i.loop with depth := 0, peer := false, cross := false, doneAt := none, st := if i.loop.st = 1 then st else i.loop.st,
                                   reason := if i.loop.st = 1 then reason else i.loop.reason } })).holdEnd n

/-- The loopback on an island ends, and with a cross loop its peer's (R405). -/
def State.loopStop (s : State) (n : IslandNo) (st : BitVec 2) (reason : BitVec 4) : State :=
  let l := s.isl[n].loop
  let s' := s.loopEnd n st reason
  if l.peer ∨ l.cross then s'.loopEnd (peerOf n) st reason else s'

/-- Loopback registers of island n after f. -/
def State.modLoop (s : State) (n : IslandNo) (f : Loopback → Loopback) : State := s.modIsl n (fun i => { i with loop := f i.loop })

/-- A service-hold measurement's settling and conversions, in itk (R404): four conversions at the rate of the admitted rung,
where a rung without a converter counts as sequenced, 1024 itk apart (R192, R402). Log entry 58. -/
def State.loopItk (s : State) (n : IslandNo) (depth : Nat) : Nat :=
  let i := if depth = 4 then s.isl[peerOf n] else s.isl[n]
  let conv := ((if depth = 3 then 64 else 32) + 20) * (if i.precision then 2 else 1)
  (if depth = 2 then 512 else 65536) + (if i.adcMode = 2 then 4 * conv else 3 * 1024 + conv)

/-- The measurement starts from its settling; its result is written 2 itk after the last conversion (R404). -/
def State.loopTime (s : State) (n : IslandNo) : State :=
  let t := s.tick + BitVec.ofNat 64 (s.itk + 2 * s.loopItk n s.isl[n].loop.depth.val + 4)
  s.modLoop n (fun l => { l with doneAt := some t })

/-- A measurement that a stop cut starts again from its settling (R404); it runs on the first tick after the stop. -/
def State.loopResume (s : State) (n : IslandNo) : State :=
  if s.isl[n].hold ∧ s.isl[n].loop.st = 1 then s.loopTime n else s

/-- Bits that a read of a slot returns, and the slot after it: NEW and OVWR clear (R203, R207). -/
def clearSlot (w : Word) : Word := w &&& 0x3FFFFFFF

end Sys2Proof.Machine
end

