-- ==== Sys2Proof/Machine/Ledger.lean ====
section
/-! DEFINITION. Island power, kill and loss, the host reserve and the grain ledger (R42-R61, R366, R367, R415). -/

namespace Sys2Proof.Machine

/-! ## Cost ladders -/

/-- Totals of a personality's ladder, rung 0 first (R51). -/
def ladder : Pers → List Nat
  | .off => [0]
  | .di => [8, 9, 15]
  | .diWb => [8, 9, 12, 18]
  | .diCnt => [8, 10, 13]
  | .dO => [8, 11, 17]
  | .doPwm => [8, 11, 14, 20]
  | .aiI => [8, 12, 16, 22]
  | .aiV => [8, 13, 17, 23]
  | .aiRtd => [8, 12, 16, 22]
  | .aoI => [8, 20, 24, 34]
  | .aoV => [8, 20, 24, 34]

/-- The ladder's top rung (R51). -/
def topRung (p : Pers) : Nat := (ladder p).length - 1

/-- Grains of a HART rung (R52). -/
def hartGr : Nat → Nat
  | 0 => 0 | 1 => 4 | _ => 5

/-- Island total: mode and feature costs count at rung 1 or higher only (R50-R52). -/
def islandGr (p : Pers) (mode r h c : Nat) : Nat :=
  (ladder p).getD r 0 + (if r = 0 then 0 else mode + hartGr h + (if c = 0 then 0 else 1))

/-- Lowers a request one step at a time until its total is at most the limit: HART, then characteristic, then personality
(R53). -/
def lowerReq (p : Pers) (mode limit : Nat) : Nat → Nat × Nat × Nat → Nat × Nat × Nat
  | 0, q => q
  | k + 1, (r, h, c) =>
    if islandGr p mode r h c ≤ limit then (r, h, c)
    else if h ≠ 0 then lowerReq p mode limit k (r, h - 1, c)
    else if c ≠ 0 then lowerReq p mode limit k (r, h, c - 1)
    else if r ≠ 0 then lowerReq p mode limit k (r - 1, h, c)
    else (r, h, c)

/-! ## Sums -/

/-- A sum over the islands. -/
def islSum (f : IslandNo → Nat) : Nat := islands.foldl (fun a n => a + f n) 0

/-- Grains of earlier admissions of an island that a kill is still to give back (R43, R415). -/
def Island.heldGr (i : Island) : Nat := (i.held.map (·.1)).sum

/-- Reserve grants that a kill is still to give back. -/
def Island.heldRsv (i : Island) : Nat := (i.held.map (·.2)).sum

/-- LEDGER_STAT.ADMITTED: grains charged to all islands (R60). -/
def State.admitted (s : State) : Nat := islSum (fun n => s.isl[n].led.admGr + s.isl[n].heldGr)

/-- Grains of the reserve granted (R60). -/
def State.rsvUsed (s : State) : Nat := islSum (fun n => s.isl[n].rsv + s.isl[n].heldRsv)

/-- The island holds no admitted grains, and none of an earlier admission that are still to return; nor does it wait for its base. -/
def Island.bare (i : Island) : Bool := decide (i.led.admGr = 0) && decide (i.heldGr = 0) && !i.led.waitGr

/-- Bases kept back for every other non-OFF island that holds no admitted grains (R53). -/
def State.keptBack (s : State) (n : IslandNo) : Nat :=
  islSum (fun m => if m ≠ n ∧ s.present m ∧ s.pers m ≠ .off ∧ s.isl[m].bare then 8 else 0)

/-- Grains that admitted rises of other islands wait for (R56). -/
def State.owedGr (s : State) (n : IslandNo) : Nat :=
  islSum (fun m => if m ≠ n ∧ s.isl[m].led.waitGr then s.isl[m].led.nextGr - s.isl[m].led.admGr else 0)

/-- Mode cost of the committed slate (R61). -/
def State.modeGr (s : State) (n : IslandNo) : Nat := fld (s.recAt n 0x10) 24 6

/-- Priority of the committed slate (R61). -/
def State.prio (s : State) (n : IslandNo) : Nat := fld (s.recAt n 0x10) 30 2

/-- Full-pass order: descending priority, then ascending number (R54). -/
def State.passOrder (s : State) : List IslandNo :=
  ([3, 2, 1, 0] : List Nat).flatMap (fun p => islands.filter (fun n => s.prio n = p))

/-- The device is in or on its way to Park (R367). -/
def State.parked (s : State) : Bool := decide (s.pow.ps = .parking) || decide (s.pow.ps = .park)

/-- The island's reservoir is OK: rungs above 0 may be admitted (R57). -/
def Island.ready (i : Island) : Bool := decide (i.power = .running) || (decide (i.power = .charging) && i.cvOk)

/-- PENDING: from admission until RUNG_ACT (R54, R56). -/
def Ledger.pendingBit (l : Ledger) : Bool := l.pending || l.waitGr

/-- The largest grains plus grant in force during the power window that runs (R58). -/
def Island.trackWin (i : Island) : Island := { i with winMax := max i.winMax (i.led.admGr + i.rsv) }

/-! ## Admission -/

/-- A RUNG cell's content. -/
def mkRungs (r h c : Nat) : Rungs := { rung := Fin.ofNat 4 r, hart := Fin.ofNat 3 h, char := Fin.ofNat 2 c }

/-- The admitted rungs of an island. -/
def Ledger.rungs (l : Ledger) : Rungs := mkRungs l.admRung.toNat l.admHart.toNat (b2n l.admChar)

/-- The grains of an admission that waits are there: a fall needs none, a rise needs them now (R56). -/
def State.rungFits (s : State) (l : Ledger) : Bool :=
  decide (l.nextGr ≤ l.admGr ∨ s.admitted - l.admGr + l.nextGr ≤ s.member.admissible)

/-- What is left of the 60 gr of one island beside the grains of a kill that are still to return (R49). -/
def Island.room (i : Island) : Nat := 60 - i.heldGr - i.heldRsv

/-- The reserve a charging island draws: at most half the reserve, and at most 60 gr with its admitted grains (R48, R49). On the
SH02 half the reserve is 2.5 gr, and RSV_USED counts whole grains: the share is 2 gr there (DESIGN CHOICE, log entry 53). -/
def State.rsvShare (s : State) (n : IslandNo) : Nat := min (s.member.reserveGrains / 2) (s.isl[n].room - s.isl[n].led.admGr)

/-- The reserve grant follows the admitted grains, and the power window takes what is then in force (R49, R58). -/
def State.fitRsv (s : State) (n : IslandNo) : State :=
  let r := s.rsvShare n
  s.modIsl n (fun i => { i with rsv := if i.charging then r else i.rsv }.trackWin)

/-- The island is charged g grains from now on, and its reserve grant follows (R48, R49). -/
def State.charge (s : State) (n : IslandNo) (g : Nat) : State :=
  (s.modIsl n (fun i => { i with led := { i.led with admGr := g } })).fitRsv n

/-- Sends the RUNG cell of an admission that waits, if no change is in progress and the grains are there: a rise takes its
grains now, a fall keeps them until RUNG_ACT, and rungs already in force need no cell (R56). An island gets its record before
its rungs (R120). The cell crosses from the arbiter to the coupler in 4 tk (R21). -/
def State.sendRung (s : State) (n : IslandNo) : State :=
  let i := s.isl[n]
  let l := i.led
  if l.waitGr && !l.pending && s.rungFits l then
    if l.rungs = i.rungs then
      (s.modIsl n (fun i => { i with led := { i.led with waitGr := false } })).charge n l.nextGr
    else if decide (i.power = .running) && !i.recOut then
      ((s.modIsl n (fun i => { i with led := { i.led with waitGr := false, pending := true, sentGr := l.nextGr } })).charge n
        (max l.admGr l.nextGr)).sendFrom (s.tick + BitVec.ofNat 64 (s.qtk + 4)) n .ledger (.rung l.rungs)
    else s.charge n (max l.admGr l.nextGr)
  else s

def State.sendRungs (s : State) : State := islands.foldl (fun s n => s.sendRung n) s

/-- The request fields of an island, as the arbiter takes them: rung 0 takes no features (R53). -/
def Ledger.request (l : Ledger) : Nat × Nat × Nat :=
  if l.reqRung = 0 then (0, 0, 0) else (l.reqRung.toNat, l.reqHart.toNat, b2n l.reqChar)

/-- Island n is admitted within the limit: only rung 0 while its reservoir is not OK or in Park, which is no clamp; a lowered
request sets CLAMPED and counts to the requester (R53, R55, R57, R367). -/
def State.admitWithin (s : State) (n : IslandNo) (m : Master) (limit : Nat) : State :=
  let i := s.isl[n]
  let held := !i.ready || s.parked
  let q := if held then (0, 0, 0) else i.led.request
  let (r, h, c) := lowerReq (s.pers n) (s.modeGr n) (min i.room limit) 7 q
  let cl := !held && decide ((r, h, c) ≠ q)
  let s := s.modIsl n (fun i =>
    { i with led := { i.led with admRung := BitVec.ofNat 2 r, admHart := BitVec.ofNat 2 h, admChar := decide (c ≠ 0),
                                 nextGr := islandGr (s.pers n) (s.modeGr n) r h c, waitGr := true, clamped := cl } })
  let s := if cl then s.clamped m 1 else s
  s.sendRung n

/-- Incremental admission of one island against the free grains (R53, R54). An island that is not powered waits. -/
def State.admitRungs (s : State) (n : IslandNo) (m : Master) : State :=
  if s.isl[n].powered && decide (s.pers n ≠ .off) then
    s.admitWithin n m (s.member.admissible - (s.admitted - s.isl[n].led.admGr) - s.owedGr n - s.keptBack n)
  else s

/-- READMIT: every island admitted below its request, in full-pass order (R54). -/
def State.readmitAll (s : State) (m : Master) : State :=
  (s.passOrder.filter (fun n => s.isl[n].led.clamped)).foldl (fun s n => s.admitRungs n m) s

/-- Leaving Park: every island in full-pass order, against the free grains (R366). -/
def State.unparkAll (s : State) (m : Master) : State := s.passOrder.foldl (fun s n => s.admitRungs n m) s

/-- Grains that the planned rungs take of the budget, in a full pass (R53, R54): the islands of the list are admitted one by
one, each within what the islands before it leave, less 8 gr for every island not admitted yet, or not powered and without grains. -/
def State.passPlan (s : State) : Nat → List IslandNo → State
  | _, [] => s
  | free, n :: l =>
    let back := 8 * l.length + islSum (fun m =>
      if s.present m ∧ s.pers m ≠ .off ∧ !s.isl[m].powered ∧ s.isl[m].bare then 8 else 0)
    let s := s.admitWithin n .slate (free - back)
    s.passPlan (free - s.isl[n].led.nextGr) l

/-- The full pass: every powered island in descending priority and ascending number; grains of a rise are taken when the
falls have released them (R54, R56). -/
def State.fullPass (s : State) : State :=
  let parts := s.passOrder.filter (fun n => s.isl[n].powered && decide (s.pers n ≠ .off))
  let rest := islSum (fun n => s.isl[n].heldGr + if s.isl[n].powered && decide (s.pers n ≠ .off) then 0 else s.isl[n].led.admGr)
  (s.passPlan (s.member.admissible - rest) parts).sendRungs

/-- Writes the request fields, limited to the ladder and, of the characteristic engine, to CHMODE ≠ 0; clamps count to the
requester (R12, R61, R178). -/
def State.setRequest (s : State) (n : IslandNo) (w : Word) (m : Master) : State :=
  let p := s.pers n
  let r := min (fld w 0 2) (topRung p)
  let h := if (s.recAt n 0).getLsbD 4 then min (fld w 2 2) 2 else 0
  let c := w.getLsbD 4 && p.analog && decide (fld (s.recAt n 0) 28 2 ≠ 0)
  let k := b2n (decide (r ≠ fld w 0 2)) + b2n (decide (h ≠ fld w 2 2)) + b2n (c != w.getLsbD 4)
  let s := s.modIsl n (fun i =>
    { i with led := { i.led with reqRung := BitVec.ofNat 2 r, reqHart := BitVec.ofNat 2 h, reqChar := c } })
  s.clamped m k

/-! ## The arbiter's queue -/

/-- The request may be taken now: writes and reservoir admissions wait for PENDING (R56). -/
def State.ledReady (s : State) : LedgerReq → Bool
  | .write n _ _ => !s.isl[n].led.pendingBit
  | .resOk n => !s.isl[n].led.pendingBit
  | _ => true

/-- PARKING ends with the last RUNG_ACT (R366), once the arbiter has lowered the islands. -/
def State.parkCheck (s : State) : State :=
  if s.pow.ps = .parking ∧ islands.all (fun n => !s.isl[n].led.pendingBit) ∧ s.ledq.all (fun q => !q.2.isPark) then
    { s with pow := { s.pow with ps := .park } }
  else s

/-- Every RUNNING island is lowered to rung 0 (R366). -/
def State.parkAll (s : State) (m : Master) : State :=
  (islands.foldl (fun (s : State) (n : IslandNo) =>
    if s.running n && decide (s.pers n ≠ .off) then s.admitWithin n m 60 else s) s).parkCheck

/-- The arbiter takes a request: BUSY is set for 48 tk, or 32 tk plus 16 tk per island re-tried (R54). -/
def State.ledTake (s : State) : LedgerReq → State
  | .write n w m => ({ (s.setRequest n w m).admitRungs n m with busy := true }).owe 48 .admissionComplete
  | .resOk n => ({ s.admitRungs n .ledger with busy := true }).owe 48 .admissionComplete
  | .readmit m =>
    ({ s.readmitAll m with busy := true }).owe (32 + 16 * (islands.filter (fun (n : IslandNo) => s.isl[n].led.clamped)).length) .admissionComplete
  | .unpark m => ({ s.unparkAll m with busy := true }).owe (32 + 16 * islands.length) .admissionComplete
  | .park m => if s.pow.ps = .parking then s.parkAll m else s

/-- The next request that waits is taken, in order of arrival, unless the arbiter is busy or a commit runs (R56). -/
def State.ledNext (s : State) : State :=
  if s.busy || decide (s.slate.st = .committing) then s
  else match s.ledq.find? (fun q => decide (q.1 ≤ s.tick) && s.ledReady q.2) with
    | some q => { s with ledq := s.ledq.eraseP (fun x => decide (x.1 ≤ s.tick) && s.ledReady x.2) }.ledTake q.2
    | none => s

/-- What the arbiter and the modem of an island hold at an edge of HCK/4 sets out for the register file (R20, R21). -/
def Island.shown (i : Island) : Island :=
  { i with ledOut := { i.led with admGr := i.led.admGr + i.heldGr }, hstatOut := i.hart.stat }

/-- What set out on the edge before has crossed, 4 tk later (R21). -/
def Island.shownOn (i : Island) : Island := { i with ledSeen := i.ledOut, hstatSeen := i.hstatOut }

/-- LEDGER_RSV as the arbiter holds it (R60). -/
def State.rsvWord (s : State) : Word := BitVec.ofNat 32 (islSum (fun n => bit s.isl[n].charging (16 + n.val)) + s.rsvUsed)

/-- The arbiter's edge, on every fourth tick (R20): it takes a request, and what it and the modems then hold sets out. -/
def State.ledEdge (s : State) : State :=
  if s.tick.toNat % 4 = 0 then
    let s := s.ledNext
    { s with busyOut := s.busy, rsvOut := s.rsvWord, isl := s.isl.map Island.shown }
  else s

/-- Registers of the HCK/4 domains, as a read shows them, follow 4 tk behind (R21). -/
def State.quarterShown (s : State) : State :=
  if s.tick.toNat % 4 = 0 then { s with busySeen := s.busyOut, rsvSeen := s.rsvOut, isl := s.isl.map Island.shownOn } else s

/-- A request leaves for the arbiter: it enters the crossing on the next edge of HCK/4 and is there 4 tk later (R20, R21). -/
def State.ledPut (s : State) (q : LedgerReq) : State :=
  { s with ledq := s.ledq ++ [(s.tick + BitVec.ofNat 64 (s.qtk + 4), q)] }

/-- LEDGER_WRITE (R54, R61): the request is taken, or waits for BUSY, PENDING or a commit. -/
def execLedgerWrite (m : Master) (n : IslandNo) (w : Word) (s : State) : Host.Outcome State Fault Refusal :=
  s.act fun s => if s.present n then s.ledPut (.write n w m) else s.accFault .addr m 2 (islBase n + 0x10)

/-- READMIT (R54, R60). -/
def execReadmit (m : Master) (s : State) : Host.Outcome State Fault Refusal := s.act fun s => s.ledPut (.readmit m)

/-- ADMISSION_COMPLETE (R54): BUSY clears on the edge that is owed, on which the next request may be taken. -/
def execAdmissionComplete (s : State) : Host.Outcome State Fault Refusal :=
  s.timed .admissionComplete fun s => { s with busy := decide (s.slate.st = .committing) && s.slate.passed }

/-- DORMANT begins once every island is BEDROCK or LOST and ADMITTED is 0 (R366). -/
def State.dormantCheck (s : State) : State :=
  if s.pow.ps = .toDormant ∧ islands.all (fun n => !s.isl[n].powered) ∧ s.admitted = 0 then
    { s with pow := { s.pow with ps := .dormant } }
  else s

/-- The arbiter takes RUNG_ACT: PENDING clears, the grains of a fall are released, and what waited for them goes on (R56). -/
def State.rungDone (s : State) (n : IslandNo) : State :=
  if s.isl[n].led.pending then
    ((((s.modIsl n (fun i => { i with led := { i.led with pending := false } })).charge n s.isl[n].led.sentGr).sendRungs).parkCheck)
  else s

/-- RUNG_ACT (R56): the cell arrives, and crosses to the arbiter, which takes it on an edge of HCK/4 (R20, R21). -/
def execRungAct (n : IslandNo) (s : State) : Host.Outcome State Fault Refusal :=
  s.act fun s =>
    if s.isDue (.rungAct n) then (s.settle (.rungAct n)).rungDone n
    else if (flying .rungAct s.isl[n].up).isSome then (s.arrived n .rungAct).owe (s.qtk + 4) (.rungAct n)
    else s

/-! ## The host reserve -/

/-- An island has a charging place: it charges, or a grant of it is still to return (R48, R415). -/
def Island.placed (i : Island) : Bool := i.charging || decide (i.heldRsv ≠ 0)

/-- Starts charging the lowest-numbered islands that wait, two at a time (R48). -/
def State.grantCharge (s : State) : State :=
  islands.foldl (fun (s : State) (n : IslandNo) =>
    if s.isl[n].waitCharge ∧ (islSum (fun m => b2n s.isl[m].placed)) < 2 ∧ s.isl[n].heldRsv = 0 then
      (s.modIsl n (fun i => { i with waitCharge := false, charging := true })).fitRsv n
    else s) s

/-- The island gives its charging place and its reserve grant back (R48). -/
def State.endCharge (s : State) (n : IslandNo) : State :=
  (s.modIsl n (fun i => { i with charging := false, waitCharge := false, rsv := 0 })).grantCharge

/-- CHARGE_COMPLETE (R48). -/
def execChargeComplete (n : IslandNo) (s : State) : Host.Outcome State Fault Refusal :=
  s.taken (.chargeComplete n) fun s => if s.isl[n].charging then s.endCharge n else s

/-- V_CV of a RUNNING island stands at V_CV_OK or above, or no longer (R352): the 4096 itk of delivery after an under-voltage count while
it does, and from their beginning. -/
def State.cvTakes (s : State) (n : IslandNo) (ok : Bool) : State :=
  let was := s.isl[n].cvOk
  let s := s.modIsl n (fun i => { i with cvOk := ok })
  if !ok then s.cancel (.vmicaHoldEnd n)
  else if !was && s.pow.vmicaOk && s.isl[n].safe.noCarrier then s.owe (8192 + s.itk) (.vmicaHoldEnd n)
  else s

/-- RESERVOIR_OK (R48, R57, R352): V_CV rises through V_CV_OK. The requested rungs of a charging island are admitted. Its first
symbol is due within 2048 tk (R42). -/
def execReservoirOk (n : IslandNo) (s : State) : Host.Outcome State Fault Refusal :=
  s.taken (.reservoirOk n) fun s =>
    if s.isl[n].power = .charging ∧ !s.isl[n].cvOk then
      ((s.modIsl n (fun i => { i with cvOk := true })).ledPut (.resOk n)).owe 2048 (.firstSymbolTimeout n)
    else if s.running n then s.cvTakes n true
    else s

/-! ## Kill and loss -/

/-- The island whose own course a command belongs to: with the island's power such commands end. -/
def courseOf : Instr → Option IslandNo
  | .outword n _ => some n
  | .raddr n _ => some n
  | .waddr n _ => some n
  | .wdata n _ => some n
  | .rung n _ => some n
  | .rungSwitchDone n => some n
  | .rungAct n => some n
  | .cmdPrep n => some n
  | .cmdApply n => some n
  | .cmdShadow n => some n
  | .cmdUnshadow n => some n
  | .cmdEcho n _ => some n
  | .channelFaultCell n => some n
  | .clearCell n => some n
  | .outputCommand n _ _ => some n
  | .hartDown n _ _ => some n
  | .sync n _ _ => some n
  | .rdata n _ => some n
  | .resultCell n _ => some n
  | .statusCell n _ => some n
  | .hartUp n _ _ _ => some n
  | .qualifiedEdge n => some n
  | .longHold n => some n
  | .gateEnd n => some n
  | .pwmPeriodStart n => some n
  | .pwmPhaseEnd n => some n
  | .inrushEnd n => some n
  | .hcmdSend n _ => some n
  | .hcmdAbort n => some n
  | .hcmdListen n => some n
  | .hartCharEnd n => some n
  | .hartRxEnd n => some n
  | .hartTimeout n => some n
  | .conversionStart n => some n
  | .conversionEnd n _ _ _ => some n
  | .resultWrite n => some n
  | .roundStart n => some n
  | .calibrationStart n => some n
  | .adcConvert n _ => some n
  | .adcRtrig n => some n
  | .adcInject n => some n
  | .adcCal n => some n
  | .outputCheck n _ => some n
  | .diagClear n _ => some n
  | .cntWrite n _ => some n
  | .measurementDone n _ => some n
  | .vmicaHoldEnd n => some n
  | .firstSymbolTimeout n => some n
  | _ => none

/-- The island that a state-lane change belongs to. -/
def Transit.isl : Transit → Option IslandNo
  | .up n _ => some n
  | .ind n _ _ _ => some n
  | .still n _ => some n
  | .img n _ => some n
  | .freeze n => some n
  | .thaw n => some n
  | .clip n => some n
  | .word n _ => some n
  | .down n _ => some n
  | .test n _ => some n
  | .rfx _ _ => none

/-- What an island holds returns to 0 when it leaves RUNNING: counts, diagnostics, ADC slots and streams, HART state, its
Channel fault (R155, R186, R207, R260, R302, R370). -/
def State.leaveRunning (s : State) (n : IslandNo) : State :=
  let s := s.modIsl n (fun i =>
    { i with din := DigIn.reset, adc := Adc.reset, hart := Hart.reset, diag := 0, adiag := 0, rstream := [], vfLow := false,
             recShadow := none, prep := false, hold := false, host := Island.reset.host, cos := false, diagEv := false,
             imgSent := 0, img := 0, hstatOut := 0, hstatSeen := 0,
             winWhole := false })
  { s with fault := { s.fault with chFault := s.fault.chFault &&& ~~~(1#16 <<< n.val) } }

/-- A KILL mark goes to the island: its queued cells are discarded, PENDING clears, its grains and reserve grant return to the
ledger 512 tk later; what was under way in it ends (R43, R415). -/
def State.kill (s : State) (n : IslandNo) (p : IslPower) : State :=
  let s := { s with due := s.due.filter (fun e => courseOf e.2 ≠ some n), transit := s.transit.filter (fun e => e.2.isl ≠ some n),
                    ledq := s.ledq.filter (fun q => decide (q.2 ≠ LedgerReq.resOk n)) }
  let s := s.modIsl n (fun i =>
    { i with power := p, en := false, held := i.held ++ [(i.led.admGr, i.rsv)], charging := false, waitCharge := false, rsv := 0,
             dnTx := 0, dnRx := 0, upTx := 0, upRx := 0, symBad := 0,
             led := { i.led with pending := false, waitGr := false, admGr := 0, nextGr := 0, sentGr := 0 } })
  let s := ((s.discardCells n).loopStop n 3 7).leaveRunning n
  (((((s.owe 512 (.grainRelease n)).tapChanged.parkCheck).sendRungs).grantCharge).ackChecks).dormantCheck

/-- The island phase of a commit runs (R118). -/
def State.inPhase (s : State) : Bool := decide (s.slate.st = .committing) && s.slate.switched && !s.slate.passed

/-- Island n is declared lost (R43); in a commit's island phase ISLFAIL records it (R123). -/
def State.lose (s : State) (n : IslandNo) : State :=
  let s := if s.inPhase then s.modIsl n (fun i => { i with slateFail := true }) else s
  let s := s.modIsl n (fun i => { i with down0 := true })
  (s.kill n .lost).raise 0x11 (0x30 + BitVec.ofNat 8 n.val) 0 0 0 0 false

/-- EN written 0, Lockout, Dormant or K4: the island falls to Bedrock (R415). -/
def State.killPowered (s : State) (n : IslandNo) : State := if s.isl[n].powered then s.kill n .bedrock else s

def State.killAll (s : State) : State := islands.foldl (fun s n => s.killPowered n) s

/-- GRAIN_RELEASE (R43, R415): on the tick that is owed the grains and any reserve grant of the oldest kill of the island return. -/
def execGrainRelease (n : IslandNo) (s : State) : Host.Outcome State Fault Refusal :=
  s.timed (.grainRelease n) fun s =>
    if s.isl[n].held = [] then s
    else
      let s := s.modIsl n (fun i => { i with
        held := i.held.tail,
        led := if i.powered then i.led else { i.led with admRung := 0, admHart := 0, admChar := false, clamped := false } })
      (((s.fitRsv n).grantCharge).sendRungs).dormantCheck

/-- EN may be written 1: a slate is committed, the personality is not OFF, the island is present and no Lockout is in force
(R59). -/
def State.mayPower (s : State) (n : IslandNo) : Bool :=
  s.slate.committed && s.present n && decide (s.pers n ≠ .off) && !s.fault.lockout

/-- Grains that are still to return, less a base: taken from the latest kill that has it. -/
def lessBase : List (Nat × Nat) → List (Nat × Nat)
  | [] => []
  | h :: l => if l.any (fun x => decide (8 ≤ x.1)) then h :: lessBase l else (h.1 - 8, h.2) :: l

/-- The island's coupler starts: CHARGING, at rung 0 with its base and with a place in the order of charging (R48, R57, R362). The
base comes from the grains kept back for it; while grains of a kill of the island are still to return, they are what is admitted to
it, and the base is 8 gr of them, so that the admitted sum stands (R49, R53; DESIGN CHOICE, log entry 67). -/
def State.powerOn (s : State) (n : IslandNo) : State :=
  let own := s.isl[n].held.any (fun x => decide (8 ≤ x.1))
  let s := s.modIsl n (fun i =>
    { i with power := .charging, en := true, down0 := false, cvOk := false, discharge := false, waitCharge := true, rungs := Rungs.zero, rungNext := none,
             held := if own then lessBase i.held else i.held,
             led := { i.led with admGr := if own then 8 else 0, nextGr := 8, sentGr := 0, pending := false, waitGr := true,
                                 admRung := 0, admHart := 0, admChar := false, clamped := false } })
  (s.sendRung n).grantCharge

/-- EN of one island is written (R59): a 1 that is not allowed reads 0 and counts a clamp; in DORMANT RESUME takes it (R369). -/
def State.writeEn (s : State) (m : Master) (n : IslandNo) (b : Bool) : State :=
  if b then
    if s.mayPower n then (if s.isl[n].powered then s else s.powerOn n) else s.clamped m 1
  else (s.modIsl n (fun i => { i with en := false, down0 := i.down0 || i.en })).killPowered n

/-- A write of HOST.ISLAND_POWER (R59, R369). -/
def State.writePower (s : State) (m : Master) (w : Word) : State :=
  if s.pow.ps = .dormant ∨ s.pow.ps = .toDormant then { s with pow := { s.pow with resume := w.extractLsb' 0 16 } }
  else islands.foldl (fun s n => s.writeEn m n (w.getLsbD n.val)) s

/-- ISLAND_POWER_WRITE (R59). -/
def execIslandPowerWrite (m : Master) (w : Word) (s : State) : Host.Outcome State Fault Refusal := s.act fun s => s.writePower m w

/-- SYMBOL_TIMEOUT (R42): a RUNNING island is lost. Its last eight upstream symbols failed parity, and SYM_ERR has counted each of
them (R61). -/
def execSymbolTimeout (n : IslandNo) (s : State) : Host.Outcome State Fault Refusal :=
  s.act fun s =>
    let s := s.settle (.symbolTimeout n)
    if s.running n then
      (s.modIsl n (fun i => { i with symErr := satAdd i.symErr (8 - i.symBad) })).lose n
    else s

/-- COUPLER_FAULT (R42): a CHARGING or RUNNING island is lost. -/
def execCouplerFault (n : IslandNo) (s : State) : Host.Outcome State Fault Refusal :=
  s.taken (.couplerFault n) fun s => if s.isl[n].powered then s.lose n else s

/-- FIRST_SYMBOL_TIMEOUT (R42, R362): on the tick that is owed a CHARGING island whose reservoir is OK is lost. -/
def execFirstSymbolTimeout (n : IslandNo) (s : State) : Host.Outcome State Fault Refusal :=
  s.timed (.firstSymbolTimeout n) fun s =>
    if s.isl[n].power = .charging ∧ s.isl[n].cvOk then s.lose n else s

/-- FATAL (R42): a RUNNING island is lost. -/
def execFatal (n : IslandNo) (s : State) : Host.Outcome State Fault Refusal :=
  s.act fun s =>
    let s := s.arrived n .fatal
    if s.running n then s.lose n else s

/-! ## The power monitor -/

/-- A power window ends and the next one starts, on every tick whose count is a multiple of 8192 (R58). A window that ended unjudged
ends the row of exceeding windows (DESIGN CHOICE, log entry 54). -/
def Island.rollWindow (i : Island) : Island :=
  { i with winJudge := i.winWhole && i.powered, winPrev := max i.winMax (i.led.admGr + i.rsv),
           winBad := if i.winJudge || !(i.winWhole && i.powered) then 0 else i.winBad,
           winWhole := i.powered, winMax := i.led.admGr + i.rsv }

/-- The windows of every island. -/
def State.rollWindows (s : State) : State :=
  if s.tick.toNat % 8192 = 0 then { s with isl := s.isl.map Island.rollWindow } else s

/-- POWER_WINDOW_END (R58): gr100 is the power delivered in the window that ends on this tick, in hundredths of a grain. A judged
window over 1.25 x (admitted + grant) + 2 gr counts; the second in a row raises LEDGER_OVER, a condition that raises once. -/
def execPowerWindowEnd (n : IslandNo) (gr100 : Nat) (s : State) : Host.Outcome State Fault Refusal :=
  s.act fun s =>
    let i := s.isl[n]
    if decide (s.tick.toNat % 8192 = 0) && i.winJudge then
      if gr100 > 125 * i.winPrev + 200 then
        let s := s.modIsl n (fun i => { i with winJudge := false, winBad := min 3 (i.winBad + 1) })
        if i.winBad = 1 then s.raise 0x12 (0x30 + BitVec.ofNat 8 n.val) 6 0 0 0 false else s
      else s.modIsl n (fun i => { i with winJudge := false, winBad := 0 })
    else s

end Sys2Proof.Machine
end

