-- ==== Sys2Proof/Machine/Digital.lean ====
section
/-! DEFINITION. Island inputs, output protection and verification, marks and channel demands (R45, R46, R128-R156, R163, R169,
R170, R175, R266, R290, R302, R391). -/

namespace Sys2Proof.Machine

/-! ## Edges -/

/-- One counted edge (R143-R145). -/
def State.countEdge (s : State) (n : IslandNo) (rise : Bool) : State :=
  let i := s.isl[n]
  let sel := if fld (i.reg 0x48) 0 2 = 0 then 1 else fld (i.reg 0x48) 0 2
  if i.pers = .diCnt ∧ sel.testBit (if rise then 0 else 1) then
    let c := i.din.count + 1
    let hit := decide (c = i.reg 0x4C)
    let s := s.modDin n (fun d =>
      { d with count := if hit && (i.reg 0x48).getLsbD 2 then 0 else c, gEdges := d.gEdges + 1,
               gFirst := if d.gEdges = 0 then s.tick else d.gFirst, gLast := s.tick })
    if hit then s.sendLane (12 + s.itk) (.ind n (BitVec.ofNat 9 (0x060 + n.val)) none 3) else s
  else s

/-- An edge is indicated in four symbols: RISE or FALL, and the change of state that EDGE selects, stamped with the tick given where
the edge was latched in a stop (R17, R34, R133, R139). -/
def State.edgeSent (s : State) (n : IslandNo) (rise : Bool) (stamp : Option Tick) : State :=
  let i := s.isl[n]
  let k := 12 + s.itk
  let s := s.sendLane k (.ind n (BitVec.ofNat 9 ((if rise then 0x030 else 0x040) + n.val)) none 3)
  if (fld (i.reg 0) 7 2).testBit (if rise then 0 else 1) then
    s.sendLane k (.ind n (BitVec.ofNat 9 (0x050 + n.val)) stamp 3)
  else s

/-- A qualified edge is indicated and counted (R133, R143). -/
def State.edge (s : State) (n : IslandNo) (rise : Bool) : State := (s.edgeSent n rise none).countEdge n rise

/-- INPUT_TRANSITION (R132, R134, R138): the terminal crosses a threshold or comes back into the band between them, where the
comparator stays as it is. Without a clock only the latches see a change; they are off while INDET is set. -/
def execInputTransition (n : IslandNo) (lvl : TermLevel) (s : State) : Host.Outcome State Fault Refusal :=
  let i := s.isl[n]
  let raw := i.rawOf lvl
  let s := s.modDin n (fun d => { d with lvl := lvl })
  .next (
    if !i.inputOn || decide (lvl = .band) || (i.din.crossed && decide (raw = i.din.raw)) then s
    else if !s.pow.hck then
      s.modDin n (fun d => { d with raw := raw, crossed := true, riseSeen := d.riseSeen || (!d.indet && raw && !d.raw),
                                    fallSeen := d.fallSeen || (!d.indet && !raw && d.raw) })
    else
      let s := s.modDin n (fun d => { d with raw := raw, crossed := true, reported := d.reported && (raw != d.qual) })
      (s.qualify n).upLane n)

/-- QUALIFIED_EDGE (R132-R135): on the itk that is owed; the first level clears INDET and is no edge; a change that latched edges have reported already
is none either (R138). -/
def execQualifiedEdge (n : IslandNo) (s : State) : Host.Outcome State Fault Refusal :=
  s.timed (.qualifiedEdge n) fun s =>
    let i := s.isl[n]
    let d := i.din
    if !i.inputOn then s
    else if d.indet then
      if !d.crossed then s
      else ((s.modDin n (fun d => { d with indet := false, qual := d.raw })).longWatch n).upLane n
    else if d.raw = d.qual then s
    else
      let s := (s.modDin n (fun d => { d with qual := d.raw, reported := false })).longWatch n
      let s := s.upLane n
      if d.reported then s
      else
        let s := s.edge n d.raw
        if i.pers ≠ .diCnt ∧ (fld (i.reg 0) 7 2).testBit (if d.raw then 0 else 1) then s.edgeTrigger n else s

/-- HCK runs again: on the first itk the latched directions are reported, the event with the first tick as its stamp, and are to be
counted behind the cells that land on it; a gate that the stop fell into is marked (R17, R138, R139, R143-R145). The qualifier restarts
from the current raw state after every stop, also where no edge was latched (DESIGN CHOICE, log entry 66). -/
def State.inputResume (s : State) (n : IslandNo) (first : Tick) : State :=
  let i := s.isl[n]
  let d := i.din
  let s := s.modDin n (fun d => { d with gStop := true })
  if i.inputOn then
    let latched := d.riseSeen || d.fallSeen
    let s := s.modDin n (fun d =>
      { d with riseSeen := false, fallSeen := false, riseDue := d.riseSeen, fallDue := d.fallSeen,
               reported := (latched || d.reported) && (d.raw != d.qual) })
    let s := if d.riseSeen then s.edgeSent n true (some first) else s
    let s := if d.fallSeen then s.edgeSent n false (some first) else s
    let s := if latched then s.sendLane (12 + s.itk) (.still n (decide (i.pers = .diCnt))) else s
    let s := if latched && decide (i.pers = .diCnt) then
        (s.modIsl n (fun i => { i with diag := i.diag ||| 8 })).sendUp n (.status .diag)
      else s
    (s.qualify n).upLane n
  else s

/-- The latched edges of a stop are counted, behind a write to COUNT that lands on the first itk (R143, R144). -/
def State.countLatched (s : State) (n : IslandNo) : State :=
  let d := s.isl[n].din
  let s := if d.riseDue then s.countEdge n true else s
  let s := if d.fallDue then s.countEdge n false else s
  s.modDin n (fun d => { d with riseDue := false, fallDue := false })

/-- LONG_HOLD (R137): on the tick that is owed. -/
def execLongHold (n : IslandNo) (s : State) : Host.Outcome State Fault Refusal :=
  s.timed (.longHold n) fun s =>
    let d := s.isl[n].din
    if s.isl[n].inputOn && d.qual && !d.indet && !d.long && decide (s.isl[n].reg 0x40 ≠ 0) then
      (s.modDin n (fun d => { d with long := true })).digDiag n 1 0x48 0
    else s

/-- DI_WB senses its current: rung 2 or 3, outside a shadow stage (R140, R141, R335). -/
def Island.wireOn (i : Island) : Bool := i.inputOn && decide (i.pers = .diWb) && decide (2 ≤ i.rungs.rung.val) && !i.shadow

/-- WIRE_BREAK (R141): host-assisted mode never sets BREAK. -/
def execWireBreak (n : IslandNo) (s : State) : Host.Outcome State Fault Refusal :=
  s.act fun s =>
    if s.isl[n].wireOn && !(s.isl[n].reg 0).getLsbD 11 && !s.isl[n].din.brk then
      (s.modDin n (fun d => { d with brk := true })).digDiag n 0 0x44 0
    else s

/-- BREAK_CLEAR (R141). -/
def execBreakClear (n : IslandNo) (s : State) : Host.Outcome State Fault Refusal :=
  s.act fun s => s.modDin n (fun d => { d with brk := false })

/-- CURR_UPDATE (R141): 10 uA per LSB, saturating at 255. -/
def execCurrUpdate (n : IslandNo) (tenMicroamps : Nat) (s : State) : Host.Outcome State Fault Refusal :=
  s.act fun s => if s.isl[n].wireOn then s.modDin n (fun d => { d with curr := BitVec.ofNat 8 (min 255 tenMicroamps) }) else s

/-- A write to CNT.COUNT, which never triggers the compare (R144). -/
def State.cntWrite (s : State) (n : IslandNo) (w : Word) : State :=
  if s.isl[n].pers = .diCnt then s.modDin n (fun d => { d with count := w }) else s

/-- CNT_WRITE (R144). -/
def execCntWrite (n : IslandNo) (w : Word) (s : State) : Host.Outcome State Fault Refusal := s.act fun s => s.cntWrite n w

/-- GATE_END (R145): on the tick that is owed the gate's result is written and the next gate starts. -/
def execGateEnd (n : IslandNo) (s : State) : Host.Outcome State Fault Refusal :=
  s.timed (.gateEnd n) fun s =>
    let i := s.isl[n]
    if i.pers = .diCnt ∧ i.rungs.rung = 2 then
      let s := s.modDin n (fun d =>
        { d with edges := BitVec.ofNat 16 (min 0xFFFF d.gEdges), fValid := decide (2 ≤ d.gEdges) && !d.gStop, fStop := d.gStop,
                 span := (d.gLast - d.gFirst).extractLsb' 1 32 })
      s.gateStart n
    else s

/-! ## Supplies -/

/-- SENS_OVL (R129): the limiter of a sensor supply that is on. -/
def execSensOvl (n : IslandNo) (s : State) : Host.Outcome State Fault Refusal :=
  s.act fun s => if s.isl[n].pers.digIn && s.isl[n].tbOn && s.running n then s.digDiag n 2 0x45 0 else s

/-- VF_LOW (R130, R159). -/
def execVfLow (n : IslandNo) (s : State) : Host.Outcome State Fault Refusal :=
  s.act fun s =>
    let i := s.isl[n]
    if s.running n && !i.vfLow then
      let s := s.modIsl n (fun i => { i with vfLow := true })
      if i.pers.analog then s.anaDiag n 7 0x47 0 else s.digDiag n 10 0x47 0
    else s

/-- VF_LOW_CLEAR (R130). -/
def execVfLowClear (n : IslandNo) (s : State) : Host.Outcome State Fault Refusal :=
  s.act fun s => s.modIsl n (fun i => { i with vfLow := false })

/-- LOOP_OVL (R163, R188): the limiter of loop power that is on has stayed engaged for 128 itk, or is engaged no longer. Each
engagement is one occurrence (R189). -/
def execLoopOvl (c : Supervision) (s : State) : Host.Outcome State Fault Refusal :=
  s.act fun s =>
    let n := c.n
    let i := s.isl[n]
    let on := decide (i.pers = .aiI) && i.tbOn && s.running n && c.lasts
    let s := s.modIsl n (fun i => { i with ana := { i.ana with loopOvl := on } })
    if on && !i.ana.loopOvl then s.anaDiag n 2 0x46 0 else s

/-! ## Digital outputs -/

/-- Island n's output stage after f. -/
def State.modDout (s : State) (n : IslandNo) (f : DigOut → DigOut) : State := s.modIsl n (fun i => { i with dout := f i.dout })

/-- PWM_PERIOD_START (R149). -/
def execPwmPeriodStart (n : IslandNo) (s : State) : Host.Outcome State Fault Refusal :=
  s.timed (.pwmPeriodStart n) fun s =>
    if s.isl[n].pers = .doPwm ∧ s.isl[n].dout.run then s.pwmStart n else s

/-- PWM_PHASE_END (R149). -/
def execPwmPhaseEnd (n : IslandNo) (s : State) : Host.Outcome State Fault Refusal :=
  s.timed (.pwmPhaseEnd n) fun s =>
    if s.isl[n].dout.run then (s.modDout n (fun d => { d with phaseAt := s.tick })).setSwitch n false else s

/-- INRUSH_END (R150): by the tick count, or by the analog limit, which runs in a stop too. -/
def execInrushEnd (n : IslandNo) (s : State) : Host.Outcome State Fault Refusal :=
  .next ((s.cancel (.inrushEnd n)).modDout n (fun d => { d with inrush := false }))

/-- SHORT_LATCH (R150): the current of a switch that is on has been limited for 128 itk; the switch latches off. -/
def execShortLatch (n : IslandNo) (s : State) : Host.Outcome State Fault Refusal :=
  s.act fun s =>
    if s.isl[n].pers.digOut && s.running n && s.isl[n].dout.sw && !s.isl[n].dout.short then
      ((s.modDout n (fun d => { d with short := true })).digDiag n 7 0x41 0).outputs n true
    else s

/-- OVERLOAD_LATCH (R150): the current of a switch that is on has been above I_OVL for 65 536 itk outside the inrush window; the switch
latches off. -/
def execOverloadLatch (n : IslandNo) (s : State) : Host.Outcome State Fault Refusal :=
  s.act fun s =>
    if s.isl[n].pers.digOut && s.running n && s.isl[n].dout.sw && !s.isl[n].dout.inrush && !s.isl[n].dout.ovl then
      ((s.modDout n (fun d => { d with ovl := true })).digDiag n 8 0x42 0).outputs n true
    else s

/-- An analog protection of island n acts at once, and clocked logic takes it for its report on this tick or, in a stop, on the first
tick after it (R13, R150, R414). hot: it has acted before; act: what it does; report: what clocked logic makes of it. -/
def State.protects (s : State) (c : Instr) (hot : Bool) (act report : State → State) : Host.Outcome State Fault Refusal :=
  .next (
    if s.clocked then (if !hot then report (act (s.settle c)) else if s.isDue c then report (s.settle c) else s)
    else if hot then s
    else if s.pow.k4 || s.pow.deferral then act s
    else (act s).owe 1 c)

/-- SWITCH_OVERTEMP (R150): the switch is off until it has cooled, in a stop as well; DIAG and the report wait for the clock. -/
def execSwitchOvertemp (n : IslandNo) (s : State) : Host.Outcome State Fault Refusal :=
  if s.isl[n].pers.digOut && s.running n then
    s.protects (.switchOvertemp n) s.isl[n].dout.hotSwitch
      (fun s => (s.modDout n (fun d => { d with hotSwitch := true })).outputs n true) (fun s => s.digDiag n 9 0x43 0)
  else .next (s.settle (.switchOvertemp n))

/-- SWITCH_COOLED (R150): the switch follows its command again. -/
def execSwitchCooled (n : IslandNo) (s : State) : Host.Outcome State Fault Refusal :=
  .next ((s.modDout n (fun d => { d with hotSwitch := false })).outputs n true)

/-- N of output verification: VN + 1 (R152). -/
def Island.digN (i : Island) : Nat := fld (i.reg 0) 8 4 + 1

/-- A consecutive count of mismatches: it stands above N once N was reached, so that N raises once (R152). -/
def countTo (nn k : Nat) (bad : Bool) : Nat := if bad then min (nn + 1) (k + 1) else 0

/-- Verification and open-load checks run (R130, R152, R335). -/
def Island.checksOn (i : Island) : Bool :=
  i.pers.digOut && decide (i.power = .running) && decide (i.rungs.rung ≠ 0) && !i.vfLow && !i.dead

/-- The end of the PWM phase that runs. -/
def State.phaseEnd (s : State) (n : IslandNo) : Option Tick :=
  ((s.due.find? (fun e => decide (e.2 = .pwmPhaseEnd n))).or (s.due.find? (fun e => decide (e.2 = .pwmPeriodStart n)))).map (·.1)

/-- A check is due (R152): of DO one in 64 itk and none within 64 itk of a switching edge; of DO_PWM on the last itk of a phase of at
least 128 itk, and none within 64 itk of a switching edge. -/
def State.checkDue (s : State) (n : IslandNo) : Bool :=
  let d := s.isl[n].dout
  if s.isl[n].pers = .doPwm then
    match s.phaseEnd n with
    | some e => decide (s.tick < e) && decide (e ≤ s.tick + 2) && decide (d.phaseAt + 256 ≤ e) &&
        decide (d.swAt + 128 ≤ s.tick)
    | none => false
  else decide (d.swAt + 128 ≤ s.tick) && decide (d.checkAt + 128 ≤ s.tick)

/-- OUTPUT_CHECK (R152, R153): a check that is due advances or resets the counts of the kinds its switch state can show. -/
def execOutputCheck (n : IslandNo) (c : LoadCheck) (s : State) : Host.Outcome State Fault Refusal :=
  s.act fun s =>
    let i := s.isl[n]
    let nn := i.digN
    if !i.checksOn || !s.checkDue n then s
    else
      let d := i.dout
      let s := s.modDout n (fun d => { d with checkAt := s.tick })
      if d.sw then
        let k := countTo nn d.cntOl c.belowOl
        let s := s.modDout n (fun d => { d with cntOl := k })
        if k = nn then s.digDiag n 4 0x40 1 else s
      else
        let k := countTo nn d.cntStuck c.aboveOff
        let j := if (i.reg 0).getLsbD 5 then countTo nn d.cntOff c.taHigh else d.cntOff
        let s := s.modDout n (fun d => { d with cntStuck := k, cntOff := j })
        let s := if k = nn then s.digDiag n 5 0x40 2 else s
        if (i.reg 0).getLsbD 5 ∧ j = nn then s.digDiag n 6 0x40 3 else s

/-- A write of ones to DIAG: records clear, and SHORT or OVL releases its latch (R156). -/
def State.diagClear (s : State) (n : IslandNo) (w : Word) : State :=
  if s.isl[n].pers.digIn || s.isl[n].pers.digOut then
    (s.modIsl n (fun i =>
      { i with diag := i.diag &&& ~~~(w.extractLsb' 0 11),
               dout := { i.dout with short := i.dout.short && !w.getLsbD 7, ovl := i.dout.ovl && !w.getLsbD 8 } })).outputs n true
  else s

/-- DIAG_CLEAR (R156). -/
def execDiagClear (n : IslandNo) (w : Word) (s : State) : Host.Outcome State Fault Refusal := s.act fun s => s.diagClear n w

/-! ## Analog outputs -/

/-- AO_OPEN (R169, R170, R188): the driver has been out of compliance for 128 itk, or is so no longer; no check while it is off. Each
beginning is one occurrence (R189). -/
def execAoOpen (c : Supervision) (s : State) : Host.Outcome State Fault Refusal :=
  s.act fun s =>
    let n := c.n
    let i := s.isl[n]
    if !i.pers.anaOut || !s.running n then s
    else
      let bad := c.lasts && !i.ana.hotDriver && (s.aoTarget n).2
      let s := s.modIsl n (fun i => { i with ana := { i.ana with opn := bad } })
      if bad && !i.ana.opn then s.anaDiag n 0 0x4B 0 else s

/-- AO_OVERTEMP (R175): the driver turns off, in a stop as well; the condition raises once, when clocked logic takes it. -/
def execAoOvertemp (n : IslandNo) (s : State) : Host.Outcome State Fault Refusal :=
  if s.isl[n].pers.anaOut && s.running n then
    s.protects (.aoOvertemp n) s.isl[n].ana.hotDriver
      (fun s => (s.modIsl n (fun i => { i with ana := { i.ana with hotDriver := true } })).outputs n true)
      (fun s => s.anaDiag n 6 0x4E 0)
  else .next (s.settle (.aoOvertemp n))

/-- AO_COOLED (R175): the driver follows its priority again. -/
def execAoCooled (n : IslandNo) (s : State) : Host.Outcome State Fault Refusal :=
  .next ((s.modIsl n (fun i => { i with ana := { i.ana with hotDriver := false } })).outputs n true)

/-! ## Marks and channel demands -/

/-- An island without power: every stage is off, and nothing of its configuration is left (R45, R46, R120). -/
def Island.fallen (i : Island) : Island :=
  { i with rungs := Rungs.zero, rungNext := none, recOut := false, recd := [], recShadow := none, mem := [], waddr := 0,
           prep := false, shadow := false, hold := false, safe := SafeLogic.reset, cmd := OutCmd.reset, lastOut := 0,
           shadowUntilCmd := false, lane := DLane.zero, din := DigIn.reset, dout := DigOut.reset, ana := Analog.reset,
           hart := Hart.reset, adc := Adc.reset, diag := 0, adiag := 0, vfLow := false }

/-- Island n falls: what was under way in it ends. The host side goes on waiting for a first symbol. -/
def State.fall (s : State) (n : IslandNo) : State :=
  ({ s with due := s.due.filter (fun e => courseOf e.2 ≠ some n ∨ e.2 = Instr.firstSymbolTimeout n) }).modIsl n Island.fallen

/-- KILL_MARK_DETECT (R45): a mark that is in force, as the island has lost its power, de-energises every output. -/
def execKillMarkDetect (n : IslandNo) (s : State) : Host.Outcome State Fault Refusal :=
  .next (if s.isl[n].powered then s else s.fall n)

/-- SAFE_MARK_DETECT (R45, R266): a SAFE mark that is in force demands the programmed safe state, without a clock. -/
def execSafeMarkDetect (n : IslandNo) (s : State) : Host.Outcome State Fault Refusal :=
  .next (if s.markAll && s.isl[n].powered then s.demands n (fun i => { i with safe := { i.safe with mark := true } }) else s)

/-- SAFE marks stay in force for as long as a cause remains (R45, R269). -/
def State.marksEnd (s : State) : State :=
  if s.markAll then s
  else islands.foldl (fun (s : State) (n : IslandNo) =>
    if s.isl[n].safe.mark then s.demands n (fun i => { i with safe := { i.safe with mark := false } }) else s) s

/-- CARRIER_LOSS (R46): the coupler stops without a KILL mark. -/
def execCarrierLoss (n : IslandNo) (s : State) : Host.Outcome State Fault Refusal :=
  .next (if s.isl[n].powered then s.demands n (fun i => { i with safe := { i.safe with noCarrier := true } }) else s)

/-- CV_BELOW_6V (R45, R46): a safe state on reservoir energy ends in Bedrock, and an island in Bedrock connects its discharge
path. The host side learns of it when the symbols stop (R42). -/
def execCvBelow6v (n : IslandNo) (s : State) : Host.Outcome State Fault Refusal :=
  .next ((s.fall n).modIsl n (fun i => { i with discharge := true, cvOk := false }))

/-- CHANNEL_FAULT_CELL (R266, R290): the channel takes its programmed safe state. -/
def execChannelFaultCell (n : IslandNo) (s : State) : Host.Outcome State Fault Refusal :=
  s.act fun s =>
    let s := s.landed n (.cmd .chanFault)
    if s.running n then s.demands n (fun i => { i with safe := { i.safe with chFault := true } }) else s

/-- CLEAR_CELL (R302): the Channel fault ends, and its CHFAULT bit, unless the fault applies again in a cell behind this one; the exit
follows R268. -/
def execClearCell (n : IslandNo) (s : State) : Host.Outcome State Fault Refusal :=
  s.act fun s =>
    let s := s.landed n (.cmd .clear)
    let again := s.isl[n].down.any (fun c => decide (c.data = .cmd .chanFault) && !c.got)
    let s := if again then s else { s with fault := { s.fault with chFault := s.fault.chFault &&& ~~~(1#16 <<< n.val) } }
    s.demands n (fun i => { i with safe := { i.safe with chFault := false } })

/-- ISL_THERM (R391): the island die protects itself, in a stop as well; the condition raises once, when clocked logic takes it. -/
def execIslTherm (n : IslandNo) (s : State) : Host.Outcome State Fault Refusal :=
  if s.running n then
    s.protects (.islTherm n) s.isl[n].safe.therm (fun s => s.demands n (fun i => { i with safe := { i.safe with therm := true } }))
      (fun s => s.islandFault n 0x31 0)
  else .next (s.settle (.islTherm n))

/-- ISL_THERM_RELEASE (R391): the die has cooled by its hysteresis. -/
def execIslThermRelease (n : IslandNo) (s : State) : Host.Outcome State Fault Refusal :=
  .next (s.demands n (fun i => { i with safe := { i.safe with therm := false } }))

end Sys2Proof.Machine
end

