-- ==== Sys2Proof/Machine/Hart.lean ====
section
/-! DEFINITION. The HART overlay: modem states, hardware framing and raw mode (R181-R187). -/

namespace Sys2Proof.Machine

/-- RES codes of HSTAT (R189). -/
inductive HRes where
  | done | perr | cksum | timeout | txUnder | abortStill | aborted | norate | carrier | badcmd
  deriving DecidableEq, Repr

def HRes.code : HRes → BitVec 4
  | .done => 0 | .perr => 1 | .cksum => 2 | .timeout => 3 | .txUnder => 4 | .abortStill => 5 | .aborted => 6
  | .norate => 7 | .carrier => 8 | .badcmd => 9

/-- Island n's modem after f. -/
def State.modHart (s : State) (n : IslandNo) (f : Hart → Hart) : State := s.modIsl n (fun i => { i with hart := f i.hart })

/-- HSTAT.RES takes a code. -/
def State.hartRes (s : State) (n : IslandNo) (r : HRes) : State := s.modHart n (fun h => { h with res := r.code })

/-- The HART rung that the modem runs at: 0 without the overlay, without power, in a shadow stage, service hold or PREP (R181,
R335). -/
def Island.hartRung (i : Island) : Nat :=
  if i.pers.hart && (i.reg 0).getLsbD 4 && decide (i.power = .running) && !i.shadow && !i.hold && !i.prep then i.rungs.hart.val else 0

/-- Ticks of k characters of 11 bits at 1200 bit/s at a declared rate in kHz, up to the next edge of HCK/4, on which the modem acts
(R20, R181). -/
def charsTk (rate : BitVec 18) (k : Nat) : Nat := (k * rate.toNat * 55 / 6 + 3) / 4 * 4

/-- The declared rate allows HART (R182). -/
def State.hartRate (s : State) : Bool := decide (8000 ≤ s.rate.toNat)

/-- PREAMB: 0 becomes 5 (R189). -/
def Island.preambLen (i : Island) : Nat := clampInt 5 20 (fld (i.reg 0xD0) 26 6) |>.toNat

/-- RXTO: 0 becomes 30 (R189). -/
def Island.rxto (i : Island) : Nat := if fld (i.reg 0xD0) 20 6 = 0 then 30 else fld (i.reg 0xD0) 20 6

/-- First byte of the transmit buffer (R189). -/
def Island.txBase (i : Island) : Nat := 16 * fld (i.reg 0xD0) 10 10

/-- First byte of the receive buffer (R189). -/
def Island.rxBase (i : Island) : Nat := 16 * fld (i.reg 0xD0) 0 10

/-- Bytes of island SRAM. -/
def islSramBytes : Nat := 0x4000

/-- The modem's owed ends are cancelled. -/
def State.hartStop (s : State) (n : IslandNo) : State :=
  ((s.cancel (.hartCharEnd n)).cancel (.hartRxEnd n)).cancel (.hartTimeout n)

/-- The modem returns to IDLE with a result. -/
def State.hartIdle (s : State) (n : IslandNo) (r : HRes) : State :=
  (s.hartStop n).modHart n (fun h =>
    { h with st := .idle, res := r.code, txq := [], framed := false, armed := false, preamb := 0, storing := false })

/-- The end of the character that is being sent, counted from the start of the transmission at the rate it was started with. -/
def State.hartCharNext (s : State) (n : IslandNo) : State :=
  let h := s.isl[n].hart
  s.oweAt (h.txAt + BitVec.ofNat 64 (charsTk h.rate (h.txN + 1))) (.hartCharEnd n)

/-- What asks for a transmission enters the crossing to the modem on the next edge of HCK/4, and the first character starts 4 tk later
(R20, R21, R182, R185, R186). -/
def State.hartStart (s : State) (n : IslandNo) (q : List (Byte × Bool)) (framed : Bool) : State :=
  ((s.hartStop n).modHart n (fun h =>
    { h with st := .tx, txq := q, framed := framed, armed := false, lastSent := false, rate := s.rate,
             txAt := s.tick + BitVec.ofNat 64 (s.qtk + 4), txN := 0 })).hartCharNext n

/-- XOR of bytes: the checksum (R185). -/
def xorBytes (l : List Byte) : Byte := l.foldl (· ^^^ ·) 0

/-- SEND (R185, R187): preamble, buffer, checksum. The length is limited to 1-288 and to the bytes that fit. -/
def State.hartSend (s : State) (n : IslandNo) (m : Master) (len : BitVec 9) : State :=
  let i := s.isl[n]
  let h := i.hart
  if i.hartRung ≠ 2 ∨ h.st ≠ .idle then s.hartRes n .badcmd
  else
    let k := min (min 288 (max 1 len.toNat)) (islSramBytes - i.txBase)
    let s := if k = len.toNat then s else s.clamped m 1
    if !s.hartRate then s.hartRes n .norate
    else if h.cd then s.hartRes n .carrier
    else
      let body := (List.range k).map (fun j => i.byte (i.txBase + j))
      let bytes := List.replicate i.preambLen 0xFF ++ body ++ [xorBytes body]
      s.hartStart n (bytes.map (fun b => (b, false))) true

/-- ABORT (R187). -/
def State.hartAbort (s : State) (n : IslandNo) : State :=
  if s.isl[n].hartRung = 0 ∨ s.isl[n].hart.st = .idle then s.hartRes n .badcmd else s.hartIdle n .aborted

/-- Reception starts (R187). -/
def State.hartReceive (s : State) (n : IslandNo) : State :=
  (s.hartStop n).modHart n (fun h => { h with st := .rx, armed := false, preamb := 0, storing := false, stored := 0, perr := false, cksum := 0 })

/-- LISTEN (R182, R187): the receiver is armed; a carrier that stands starts reception. -/
def State.hartListen (s : State) (n : IslandNo) : State :=
  let i := s.isl[n]
  if i.hartRung = 0 ∨ i.hart.st ≠ .idle then s.hartRes n .badcmd
  else if !s.hartRate then s.hartRes n .norate
  else if i.hart.cd then s.hartReceive n
  else s.modHart n (fun h => { h with armed := true, rate := s.rate })

/-- A raw byte reaches the island (R186, R187). The byte that is being sent keeps its queue place until its end. -/
def State.hartByte (s : State) (n : IslandNo) (b : Byte) (last : Bool) : State :=
  let h := s.isl[n].hart
  if s.isl[n].hartRung ≠ 1 then s.hartRes n .badcmd
  else match h.st with
    | .idle => if s.hartRate then s.hartStart n [(b, last)] false else s.hartRes n .norate
    | .tx =>
      if h.framed then s.hartRes n .badcmd
      else if 2 ≤ h.txq.length then s.modHart n (fun h => { h with txovr := true })
      else s.modHart n (fun h => { h with txq := h.txq ++ [(b, last)] })
    | _ => s.hartRes n .badcmd

/-- A write to HCMD of an island without the HART overlay is ignored (R413). -/
def State.hcmd (s : State) (n : IslandNo) (f : State → State) : Host.Outcome State Fault Refusal :=
  s.act fun s => if s.isl[n].pers.hart then f s else s

/-- HCMD_SEND (R185). -/
def execHcmdSend (n : IslandNo) (len : BitVec 9) (s : State) : Host.Outcome State Fault Refusal :=
  s.hcmd n fun s => s.hartSend n .link len

/-- HCMD_ABORT (R187). -/
def execHcmdAbort (n : IslandNo) (s : State) : Host.Outcome State Fault Refusal :=
  s.hcmd n fun s => s.hartAbort n

/-- HCMD_LISTEN (R187). -/
def execHcmdListen (n : IslandNo) (s : State) : Host.Outcome State Fault Refusal :=
  s.hcmd n fun s => s.hartListen n

/-- HART_DOWN (R186). -/
def execHartDown (n : IslandNo) (b : Byte) (last : Bool) (s : State) : Host.Outcome State Fault Refusal :=
  s.act fun s => (s.landed n (.hart b last)).hartByte n b last

/-- The receiver is armed for RXTO characters by the rate that stands now; under 8000 kHz it stays off (R182, R187). -/
def State.hartArm (s : State) (n : IslandNo) : State :=
  if !s.hartRate then s.hartIdle n .norate
  else
    (s.modHart n (fun h => { h with st := .wait, framed := false, preamb := 0, storing := false, stored := 0, perr := false, cksum := 0,
                                    rate := s.rate })).owe (s.qtk + charsTk s.rate s.isl[n].rxto) (.hartTimeout n)

/-- HART_CHAR_END (R186, R187), on the tick that is owed: the next character starts; after the last byte of a frame the receiver is armed; a raw transmission
ends where its queue is empty or after LAST (log entry 27). -/
def execHartCharEnd (n : IslandNo) (s : State) : Host.Outcome State Fault Refusal :=
  s.timed (.hartCharEnd n) fun s =>
    let h := s.isl[n].hart
    if h.st ≠ .tx then s
    else match h.txq with
      | [] => s.hartIdle n .txUnder
      | (_, last) :: rest =>
        let s := s.modHart n (fun h => { h with txq := rest, lastSent := last, txN := h.txN + 1 })
        if h.framed then (if rest.isEmpty then s.hartArm n else s.hartCharNext n)
        else if last then s.hartIdle n .done
        else if rest.isEmpty then s.hartIdle n .txUnder
        else s.hartCharNext n

/-- CARRIER_DETECT (R181, R182, R187): the receiver of a modem that runs finds a carrier; armed by LISTEN, it starts reception. -/
def execCarrierDetect (n : IslandNo) (s : State) : Host.Outcome State Fault Refusal :=
  s.act fun s =>
    if s.isl[n].hartRung = 0 || !s.hartRate then s
    else
      let s := s.modHart n (fun h => { h with cd := true })
      if s.isl[n].hart.st = .idle ∧ s.isl[n].hart.armed then s.hartReceive n else s

/-- A byte of a hardware-framed reception is stored, within island SRAM (R185). -/
def State.hartStore (s : State) (n : IslandNo) (b : Byte) (ok : Bool) : State :=
  let a := s.isl[n].rxBase + s.isl[n].hart.stored
  s.modIsl n (fun i =>
    { i with mem := if a < islSramBytes then sput (fun _ => (0 : Byte)) i.mem a b else i.mem,
             hart := { i.hart with st := .rx, storing := true, stored := min 511 (i.hart.stored + 1), cksum := i.hart.cksum ^^^ b,
                                   perr := i.hart.perr || !ok } })

/-- HART_CHAR_RX (R185-R187): raw characters go up in HART cells; hardware framing hunts for two preamble bytes and a
delimiter, and stores from the delimiter on. The parity of every character is checked, also of one that is hunted. -/
def execHartCharRx (n : IslandNo) (b : Byte) (parityOk : Bool) (s : State) : Host.Outcome State Fault Refusal :=
  s.act fun s =>
    let i := s.isl[n]
    let h := i.hart
    if h.st ≠ .wait ∧ h.st ≠ .rx then s
    else if i.hartRung = 1 then
      ((s.cancel (.hartTimeout n)).modHart n (fun h =>
        { h with st := .rx, storing := true, stored := min 511 (h.stored + 1), perr := h.perr || !parityOk })).sendUp n
          (.hart b (!h.storing) (!parityOk))
    else if i.hartRung = 2 then
      if h.storing then s.hartStore n b parityOk
      else
        let s := if h.st = .wait then (s.cancel (.hartTimeout n)).owe (s.qtk + charsTk h.rate i.rxto) (.hartTimeout n) else s
        if b = 0xFF then
          s.modHart n (fun h => { h with preamb := if parityOk then min 2 (h.preamb + 1) else 0, perr := h.perr || !parityOk })
        else if h.preamb = 2 then (s.cancel (.hartTimeout n)).hartStore n b parityOk
        else s.modHart n (fun h => { h with preamb := 0, perr := h.perr || !parityOk })
    else s

/-- HART_RX_END (R185, R187): the gap ends reception, and the carrier with it; RXLEN takes the bytes stored. -/
def execHartRxEnd (n : IslandNo) (s : State) : Host.Outcome State Fault Refusal :=
  s.act fun s =>
    let s := (s.settle (.hartRxEnd n)).modHart n (fun h => { h with cd := false })
    let i := s.isl[n]
    let h := i.hart
    if h.st = .rx then
      (s.modHart n (fun h => { h with rxlen := BitVec.ofNat 9 h.stored })).hartIdle n
        (if h.perr then .perr else if i.hartRung = 2 ∧ h.cksum ≠ 0 then .cksum else .done)
    else s

/-- HART_TIMEOUT (R187), on the tick that is owed. -/
def execHartTimeout (n : IslandNo) (s : State) : Host.Outcome State Fault Refusal :=
  s.timed (.hartTimeout n) fun s => if s.isl[n].hart.st = .wait then s.hartIdle n .timeout else s

/-- HCK stopped and runs again: what was under way is aborted (R18, R183). -/
def State.hartResume (s : State) (n : IslandNo) : State :=
  if s.isl[n].hart.st = .idle then s else (s.hartIdle n .abortStill).islandFault n 0x4C 0

/-- HART_UP (R186): the byte enters the 16-byte queue, or is lost. -/
def execHartUp (n : IslandNo) (b : Byte) (start perr : Bool) (s : State) : Host.Outcome State Fault Refusal :=
  s.act fun s =>
    let s := s.arrived n (.hart b start perr)
    if s.running n then
      s.modHart n (fun h => if h.rxq.length < 16 then { h with rxq := h.rxq ++ [(b, start, perr)] } else { h with rxovr := true })
    else s

end Sys2Proof.Machine
end

