-- ==== Sys2Proof/Machine/Image.lean ====
section
/-! DEFINITION. Image words, the ISLMAP and EVENTS words, and what a CYCLE sample point clears (R82-R84, R154, R188, R402). -/

namespace Sys2Proof.Machine

/-- Row 4 of R147 or R174 governs an output; for an input a safe demand stands (R154, R188, R286). -/
def Island.governed (i : Island) : Bool :=
  i.inSafe &&
    (if i.pers.output then !i.dead && decide (i.rungs.rung ≠ 0) && !(i.pers.digOut && i.digLatched) && !(i.pers.anaOut && i.ana.hotDriver)
     else true)

/-- The image word of DI and DI_WB (R154): what the host side gathers, and what the island sends. -/
def Island.hostDi (i : Island) : Nat :=
  bit i.host.qual 0 + bit i.host.raw 1 + bit i.host.indet 2 + bit i.din.rise 3 + bit i.din.fall 4 + bit i.din.stillEdge 5 +
  (if i.adcMode = 0 then 0 else i.ana.value.toNat * 2 ^ 16)

def Island.islDi (i : Island) : Nat := bit i.din.brk 6 + bit i.din.long 7 + i.din.curr.toNat * 2 ^ 8

/-- The image word of DI_CNT (R154). -/
def Island.hostCnt (i : Island) : Nat :=
  bit i.host.qual 0 + bit i.host.raw 1 + bit i.host.indet 2 + bit i.din.rise 3 + bit i.din.fall 4 + bit i.din.stillEdge 5 +
  bit i.din.gap 6 + bit i.din.cmp 7

def Island.islCnt (i : Island) : Nat := fld i.din.count 0 24 * 2 ^ 8

/-- The image word of DO and DO_PWM (R154): a verification bit stands while its count is at N. -/
def Island.islDo (i : Island) : Nat :=
  bit i.lane.out 0 + bit i.dout.sw 1 + bit i.lane.force 2 + bit i.governed 3 + bit (decide (i.digN ≤ i.dout.cntOl)) 4 +
  bit (decide (i.digN ≤ i.dout.cntStuck)) 5 + bit (decide (i.digN ≤ i.dout.cntOff)) 6 + bit i.dout.short 7 + bit i.dout.ovl 8 +
  bit i.dout.hotSwitch 9 + bit i.vfLow 10 + bit i.dout.inrush 11

def Island.hostDo (i : Island) : Nat := if i.adcMode = 0 then 0 else i.ana.value.toNat * 2 ^ 16

/-- VALID of an analog input: a result exists, of a 3-wire RTD a LEAD result too, above rung 0, and the shadow stage leaves the terminals
connected (R188, R197, R335). -/
def Island.aiValid (i : Island) : Bool :=
  i.ana.valid && !i.noLead && decide (i.rungs.rung ≠ 0) && !(i.shadow && decide (i.pers ≠ .aiV))

/-- A lead drop of more than 50 Ohm in the latest LEAD result (R165). -/
def Island.leadHigh (i : Island) : Bool := decide (i.leadTop < i.adc.lead.getD 0)

/-- The image word of AI_I, AI_V and AI_RTD (R188). -/
def Island.hostAi (i : Island) : Nat :=
  bit i.aiValid 0 + bit i.ana.new 1 + bit (i.ana.rawv && i.aiValid) 2 + bit i.ana.stillCut 11 +
  (if i.aiValid then i.ana.value.toNat * 2 ^ 16 else 0)

def Island.islAi (i : Island) : Nat :=
  (if i.neOn then i.ana.ne.val * 2 ^ 3 else 0) + bit (i.ana.ovr || i.ana.limiter) 6 + bit i.ana.opn 7 + bit (i.ana.loopOvl && i.tbOn) 8 + bit i.leadHigh 9 + bit i.vfLow 10 +
  bit (decide (i.hart.st ≠ .idle)) 12

/-- Rows 1 to 6 of R174 do not apply, and no value is kept in their place (R248, R268). -/
def Island.aoFree (i : Island) : Bool :=
  !i.dead && decide (i.rungs.rung ≠ 0) && !i.ana.hotDriver && !i.inSafe && !i.lane.force && !i.cmd.raw &&
  !(decide (i.pers = .aoI) && (i.reg 0).getLsbD 20)

/-- Row 7 of R174 governs. -/
def Island.aoRawv (i : Island) : Bool := i.aoFree && decide (i.chMode ≠ 0) && decide (i.rungs.char = 0)

/-- Row 8 of R174 governs. -/
def Island.aoAlarm (i : Island) : Bool :=
  i.aoFree && !i.aoRawv && decide (i.pers = .aoI) && (i.reg 0).getLsbD 23 && i.cmd.alm

/-- The image word of AO_I and AO_V (R188). -/
def Island.hostAo (i : Island) : Nat := bit i.ana.clip 7 + i.ana.value.toNat * 2 ^ 16

def State.islAo (s : State) (n : IslandNo) : Nat :=
  let i := s.isl[n]
  bit (s.aoTarget n).2 0 + bit i.lane.force 1 + bit i.governed 2 + bit i.aoAlarm 3 + bit i.ana.vlow 4 + bit i.ana.vhigh 5 +
  bit i.aoRawv 6 + bit (i.ana.opn && (s.aoTarget n).2) 8 + bit i.vfLow 9 + bit ((i.reg 0).getLsbD 20) 10 + bit (decide (i.hart.st ≠ .idle)) 12

/-- The image bits that a RUNNING island holds; the host image has them 12 tk later (R14, R26, R154, R188). -/
def State.islImage (s : State) (n : IslandNo) : Word :=
  let i := s.isl[n]
  BitVec.ofNat 32 (match i.pers with
    | .off => 0
    | .di => i.islDi
    | .diWb => i.islDi
    | .diCnt => i.islCnt
    | .dO => i.islDo
    | .doPwm => i.islDo
    | .aiI => i.islAi
    | .aiV => i.islAi
    | .aiRtd => i.islAi
    | .aoI => s.islAo n
    | .aoV => s.islAo n)

/-- The image bits that the host side gathers from lanes, indications and RESULT cells (R33, R34, R204). -/
def Island.hostImage (i : Island) : Word :=
  BitVec.ofNat 32 (match i.pers with
    | .off => 0
    | .di => i.hostDi
    | .diWb => i.hostDi
    | .diCnt => i.hostCnt
    | .dO => i.hostDo
    | .doPwm => i.hostDo
    | .aiI => i.hostAi
    | .aiV => i.hostAi
    | .aiRtd => i.hostAi
    | .aoI => i.hostAo
    | .aoV => i.hostAo)

/-- The host image of a RUNNING island (R154, R188). -/
def State.liveImage (s : State) (n : IslandNo) : Word := s.isl[n].hostImage ||| s.isl[n].img

/-- ISLMAP code and IMG word of island n: the image, or the reason why there is none (R84, R121, R402). -/
def State.image (s : State) (n : IslandNo) : Nat × Word :=
  let i := s.isl[n]
  if !s.present n then (3, 2)
  else match i.power with
    | .lost => (2, 1)
    | .charging => (3, 5)
    | .bedrock => if s.pers n = .off then (3, 3) else (3, 4)
    | .running =>
      if i.hold then (3, 6)
      else (if i.stale then 1 else 0, match i.imgFrozen with | some w => w | none => s.liveImage n)

/-- ISLMAP (R83). -/
def State.islmap (s : State) : Word := BitVec.ofNat 32 (islSum (fun n => (s.image n).1 * 4 ^ n.val))

/-- EVENTS (R83). -/
def State.eventsWord (s : State) : Word :=
  BitVec.ofNat 32 (islSum (fun n => bit s.isl[n].cos (16 + n.val) + bit s.isl[n].diagEv n.val))

/-- A CYCLE sample point clears what gathers between two of them (R83, R154, R188). -/
def Island.sampled (i : Island) : Island :=
  { i with cos := false, diagEv := false,
           din := { i.din with rise := false, fall := false, stillEdge := false, gap := false, cmp := false },
           ana := { i.ana with new := false, clip := false, stillCut := false } }

def State.sampled (s : State) : State := islands.foldl (fun s n => s.modIsl n Island.sampled) s

end Sys2Proof.Machine
end

