-- ==== Sys2Proof/Machine/IslRegs.lean ====
section
/-! DEFINITION. The registers that an island holds, as its cells read and write them (R155, R189, R207, R286, R413, R416,
R417). -/

namespace Sys2Proof.Machine

/-- The island-side words of an island's window that a personality uses; every other one reads 0 there (R413, R416, R417). -/
def regServes (p : Pers) (off : Nat) : Bool :=
  if off = 0x40 then p.digIn
  else if 0x44 ≤ off ∧ off ≤ 0x54 then decide (p = .diCnt)
  else if 0x60 ≤ off ∧ off ≤ 0x68 then decide (p = .doPwm)
  else if 0x70 ≤ off ∧ off ≤ 0x74 then p.digIn || p.digOut
  else if off = 0x80 then decide (p = .aiI) || decide (p = .aiRtd)
  else if 0x84 ≤ off ∧ off ≤ 0x90 then p.analog
  else if 0xA0 ≤ off ∧ off ≤ 0xB0 then p.anaOut
  else if off = 0xB4 then decide (p = .aiI)
  else if 0xC0 ≤ off ∧ off ≤ 0xC4 then p.analog
  else if 0xD0 ≤ off ∧ off ≤ 0xE0 then p.hart
  else true

/-- ISL[n].SSTAT (R286). -/
def Island.sstat (i : Island) : Word :=
  BitVec.ofNat 32 (bit i.governed 31 + bit i.lane.safe 30 + bit i.safe.mark 29 + bit i.safe.chFault 28 +
    (if i.inSafe then i.safeState.1 * 2 ^ 24 else 0) + i.safe.held.toNat)

/-- ISL[n].DSTAT (R155). -/
def Island.dstat (i : Island) : Word :=
  let l := i.din.levels
  BitVec.ofNat 32 (i.din.curr.toNat * 2 ^ 8 + bit (i.pers.digIn && l.qual) 0 + bit (i.pers.digIn && l.raw) 1 +
    bit (i.pers.digIn && l.indet) 2 + bit i.dout.sw 3 + bit i.lane.force 4 + bit i.governed 5 + bit i.dout.inrush 6)

/-- ISL[n].ASTAT (R189). -/
def State.astat (s : State) (n : IslandNo) : Word :=
  let i := s.isl[n]
  BitVec.ofNat 32 ((if i.pers.anaOut then i.ana.driven.toNat * 2 ^ 16 else 0) + bit (decide (i.pers = .aoI) && s.almHigh n) 1 +
    bit i.engineOn 0)

/-- ISL[n].HSTAT as a read shows it: what has crossed from the modem, with RXOVR and TXOVR, which a read clears, as they stand (R21,
R189). -/
def Island.hstat (i : Island) : Word := (i.hstatSeen &&& 0xFF5FFFFF) ||| BitVec.ofNat 32 (bit i.hart.rxovr 23 + bit i.hart.txovr 21)

def AdcState.code : AdcState → Nat
  | .off => 0 | .idle => 1 | .regular => 2 | .injected => 3

/-- ISL[n].ADCSTAT (R207). -/
def Adc.stat (a : Adc) : Word :=
  BitVec.ofNat 32 (a.st.code * 2 ^ 30 + bit a.cal 29 + bit a.refBad 28 + bit a.ipend 27 + bit (a.rpend || a.convPend.isSome) 26 +
    a.shown.toNat * 2 ^ 16 + a.round.toNat * 2 ^ 12)

/-- ISL[n].ADCCNT (R207). -/
def Adc.cnt (a : Adc) : Word := BitVec.ofNat 32 (a.tovr.toNat * 2 ^ 24 + a.redo.toNat * 2 ^ 16 + a.drop.toNat * 2 ^ 8 + a.cskip.toNat)

/-- The slot of a result register's offset. -/
def slotOf (off : Nat) : Option (Fin 20) :=
  if 0x180 ≤ off ∧ off < 0x1D0 then some (Fin.ofNat 20 ((off - 0x180) / 4)) else none

/-- A read of a result slot clears NEW and OVWR (R203, R207). -/
def State.slotRead (s : State) (n : IslandNo) (k : Fin 20) : State × Word :=
  (s.modAdc n (fun a => { a with slots := a.slots.set k (clearSlot a.slots[k]) }), s.isl[n].adc.slots[k])

/-- AFE: each field reads 0 for a personality that does not use it (R417). -/
def Island.afe (i : Island) : Word :=
  if i.pers = .aiI then i.reg 0x80 &&& 0xFFFF0000 else i.reg 0x80 &&& 0x0000FFFF

/-- The island reads one of its registers; RC fields clear (R155, R189, R207, R286). -/
def State.islRegRead (s : State) (n : IslandNo) (off : Nat) : State × Word :=
  let i := s.isl[n]
  if !regServes i.pers off then (s, 0)
  else match off with
    | 0x34 => (s, i.sstat)
    | 0x44 => (s, i.din.count)
    | 0x50 => (s, i.din.span)
    | 0x54 => (s, BitVec.ofNat 32 (bit i.din.fValid 31 + bit i.din.fStop 30 + i.din.edges.toNat))
    | 0x68 => (s, i.dout.effPer.setWidth 32)
    | 0x70 => (s, i.diag.setWidth 32)
    | 0x74 => (s, i.dstat)
    | 0x80 => (s, i.afe)
    | 0xC0 => (s, i.adiag.setWidth 32)
    | 0xC4 => (s, s.astat n)
    | 0xD4 => (s, 0)
    | 0xD8 => (s.modHart n (fun h => { h with rxovr := false, txovr := false }), i.hstat)
    | 0xDC => (s, 0)
    | 0x158 => (s, 0)
    | 0x15C => (s, i.adc.stat)
    | 0x160 => (s.modAdc n (fun a => { a with tovr := 0, redo := 0, drop := 0, cskip := 0 }), i.adc.cnt)
    | _ =>
      match slotOf off with
      | some k => s.slotRead n k
      | none => (s, i.reg off)

/-- HCMD (R187, R189): codes 4-15 fall back to NONE; at a HART rung that does not use it RES is BADCMD. -/
def State.hcmdWrite (s : State) (n : IslandNo) (m : Master) (w : Word) : State :=
  if s.isl[n].hartRung = 0 then s.hartRes n .badcmd
  else match fld w 28 4 with
    | 0 => s
    | 1 => s.hartSend n m (w.extractLsb' 0 9)
    | 2 => s.hartAbort n
    | 3 => s.hartListen n
    | _ => s.clamped m 1

/-- A register write reaches the island (R155, R189). Fields that only a slate writes, and RO fields, ignore it (R10). -/
def State.islRegWrite (s : State) (n : IslandNo) (m : Master) (off : Nat) (w : Word) : State :=
  let i := s.isl[n]
  if !regServes i.pers off then s
  else match off with
    | 0x44 => s.cntWrite n w
    | 0x70 => s.diagClear n w
    | 0xC0 => s.modIsl n (fun i => { i with adiag := i.adiag &&& ~~~(w.extractLsb' 0 8) })
    | 0xD4 => s.hcmdWrite n m w
    | 0xE0 => if i.hartRung = 1 then s else s.hartRes n .badcmd
    | _ => s

/-- A word of island SRAM is written. -/
def Island.putWord (i : Island) (a : Nat) (w : Word) : Island :=
  { i with mem := [0, 1, 2, 3].foldl (fun m k => sput (fun _ => (0 : Byte)) m (a + k) (wordByte w k)) i.mem }

end Sys2Proof.Machine
end

