-- ==== Sys2Proof/Machine/Islands.lean ====
section
/-! DEFINITION. Cells that land in an island or arrive from it: output words, reads and writes, rungs, records, shadow stages,
echoes, status reports, loss and repetition of cells, and an island's entry to RUNNING (R35-R43, R56, R118-R121, R146, R172, R207,
R335, R362, R401). -/

namespace Sys2Proof.Machine

/-! ## Output words -/

/-- An output word of a master reaches the island (R146, R172): ignored under FORCE, and in PREP, service hold or a shadow stage
(R32, R121, R402, R336); after a SOLO commit it ends the shadow stage (R334). The characteristic engine adds its time (R178). Log
entry 48. -/
def State.outputWord (s : State) (n : IslandNo) (m : Master) (w : Word) : State :=
  let i := s.isl[n]
  if !s.running n || i.prep || i.hold || (i.shadow && !i.shadowUntilCmd) || !i.pers.output then s
  else
    let s := s.modIsl n (fun i => { i with lastOut := w, shadow := false, shadowUntilCmd := false, outBit := w.getLsbD 31 })
    if i.lane.force then s.outputs n true
    else
      let c : OutCmd := { en := w.getLsbD 31, alm := w.getLsbD 30, value := w.extractLsb' 0 16, raw := false, req := m }
      let s := s.modIsl n (fun i =>
        { i with lane := { i.lane with out := w.getLsbD 31 }, laneDn := { i.laneDn with out := w.getLsbD 31 } })
      let s := if i.clips c then s.clip n m else s
      if i.pers.anaOut && decide (i.engineTk ≠ 0) then (s.outputs n true).sendLane i.engineTk (.word n c) else s.wordTakes n c

/-- OUTWORD (R38, R146): a landed word ends STALE (R84). -/
def execOutword (n : IslandNo) (w : Word) (s : State) : Host.Outcome State Fault Refusal :=
  s.act fun s => ((s.landed n (.outword w)).modIsl n (fun i => { i with stale := false })).outputWord n .link w

/-- OUTPUT_COMMAND (R146). -/
def execOutputCommand (n : IslandNo) (m : Master) (w : Word) (s : State) : Host.Outcome State Fault Refusal :=
  s.act fun s => (s.landed n (.cmd (.output w))).outputWord n m w

/-! ## Reads and writes -/

/-- A read's value that no cell carries reaches its requester: a link read enters the read queue (R86). -/
def State.deliver (s : State) (m : Master) (v : Word) : State :=
  match m with
  | .link =>
    if s.link.readq.length < 64 then
      { s with link := { s.link with readq := s.link.readq ++ [{ val := v, err := false, wait := none }] } }
    else s
  | .dma c => if s.dma[c].reading ≠ 0 then s.modCh c (fun h => h.take v) else s
  | _ => s

/-- RADDR (R35, R38): the island reads the word and answers in an RDATA cell. -/
def execRaddr (n : IslandNo) (a : Word) (s : State) : Host.Outcome State Fault Refusal :=
  s.act fun s =>
    let req := s.requester n (.raddr a)
    let s := s.landed n (.raddr a)
    if s.running n then
      let off := fld a 0 14
      let (s, v) := if a.getLsbD 31 then (s, s.isl[n].word off) else s.islRegRead n off
      let ad := (if a.getLsbD 31 then 0x0080_0000 + n.val * 0x4000 else islBase n) + off
      (s.modIsl n (fun i => { i with reads := i.reads ++ [(req, BitVec.ofNat 32 ad)] })).sendUpAs n (.rdata v) req (BitVec.ofNat 32 ad) 4
    else s

/-- RDATA (R38): the answer reaches the requester that the cell carries; one that comes without a cell answers the oldest read. -/
def execRdata (n : IslandNo) (w : Word) (s : State) : Host.Outcome State Fault Refusal :=
  s.act fun s =>
    let read := match flying (.rdata w) s.isl[n].up with
      | some c => some (c.req, c.addr)
      | none => s.isl[n].reads.head?
    let s := s.arrived n (.rdata w)
    match read with
    | none => s
    | some q => (s.modIsl n (fun i => { i with reads := i.reads.erase q })).answer n q.1 q.2 (some w)

/-- WADDR (R35). -/
def execWaddr (n : IslandNo) (a : Word) (s : State) : Host.Outcome State Fault Refusal :=
  s.act fun s =>
    let s := s.landed n (.waddr a)
    if s.running n then s.modIsl n (fun i => { i with waddr := a }) else s

/-- The byte lanes of the WDATA cell that lands, all four but for a thread's narrow store (R234). -/
def State.lanesOf (s : State) (n : IslandNo) (w : Word) : BitVec 4 :=
  match flying (.wdata w) s.isl[n].down with
  | some c => match c.req with
    | .thread _ => if c.xref.extractLsb' 0 4 = 0 then 15 else c.xref.extractLsb' 0 4
    | _ => 15
  | none => 15

/-- Bits of the byte lanes; lane 3 is the most significant byte. -/
def laneMask (l : BitVec 4) : Word :=
  bytesWord (if l.getLsbD 3 then 0xFF else 0) (if l.getLsbD 2 then 0xFF else 0) (if l.getLsbD 1 then 0xFF else 0)
    (if l.getLsbD 0 then 0xFF else 0)

/-- A word with some of its byte lanes replaced. -/
def mergeLanes (l : BitVec 4) (old w : Word) : Word := (old &&& ~~~laneMask l) ||| (w &&& laneMask l)

/-- WDATA (R35, R118): a record word goes to the shadow until APPLY, any other word to its register or to island SRAM; the
address steps by 4. -/
def execWdata (n : IslandNo) (w : Word) (s : State) : Host.Outcome State Fault Refusal :=
  s.act fun s =>
    let req := s.requester n (.wdata w)
    let a := s.isl[n].waddr
    let off := fld a 0 14
    let lanes := s.lanesOf n w
    let s := s.landed n (.wdata w)
    if s.running n then
      let s := s.modIsl n (fun i => { i with waddr := a + 4 })
      if req = .slate then
        s.modIsl n (fun i =>
          { i with recShadow := some (i.recShadow.getD [] ++ [(if a.getLsbD 31 then off + 0x10000 else off, w)]) })
      else if a.getLsbD 31 then s.modIsl n (fun i => i.putWord off (mergeLanes lanes (i.word off) w))
      else s.islRegWrite n req off (mergeLanes lanes (if off = 0x44 then s.isl[n].din.count else 0) w)
    else s

/-- RESULT_SLOT_READ (R203): NEW and OVWR clear. -/
def execResultSlotRead (m : Master) (n : IslandNo) (slot : Fin 20) (s : State) : Host.Outcome State Fault Refusal :=
  s.act fun s =>
    if s.running n then (let (s, v) := s.slotRead n slot; s.deliver m v)
    else s.accFault .island m 1 (islBase n + 0x180 + 4 * slot.val)

/-- A write of HRAW: the byte goes to the island as a HART cell (R186); no other personality has the register (R417). -/
def State.hrawPut (s : State) (m : Master) (n : IslandNo) (b : Byte) (last : Bool) (x : BitVec 19 := 0) : State :=
  if !s.running n then s.accFault .island m 2 (islBase n + 0xDC)
  else if (s.pers n).hart then s.send n m (.hart b last) (BitVec.ofNat 32 (islBase n + 0xDC)) x else s

/-- HRAW_WRITE (R186). -/
def execHrawWrite (m : Master) (n : IslandNo) (b : Byte) (last : Bool) (s : State) : Host.Outcome State Fault Refusal :=
  s.act fun s => s.hrawPut m n b last

/-- A read of HRAWR removes the oldest byte; EMPTY without one (R186, R189). -/
def State.hrawrTake (s : State) (n : IslandNo) : State × Word :=
  if !(s.pers n).hart then (s, 0)
  else match s.isl[n].hart.rxq with
    | [] => (s, 0x8000_0000)
    | (b, start, perr) :: r => (s.modHart n (fun h => { h with rxq := r }), BitVec.ofNat 32 (bit start 9 + bit perr 8 + b.toNat))

/-- HRAWR_READ (R186). -/
def execHrawrRead (m : Master) (n : IslandNo) (s : State) : Host.Outcome State Fault Refusal :=
  s.act fun s =>
    if s.running n then (let (s, v) := s.hrawrTake n; s.deliver m v)
    else s.accFault .island m 1 (islBase n + 0xE0)

/-! ## Rungs -/

/-- The modem is switched off with its rung or its stage, and detects no carrier then (R181, R335). -/
def State.hartOff (s : State) (n : IslandNo) : State :=
  if s.isl[n].hartRung ≠ 0 then s
  else if s.isl[n].hart.st = .idle then s.modHart n (fun h => { h with armed := false, cd := false })
  else
    (s.hartStop n).modHart n (fun h =>
      { h with st := .idle, txq := [], framed := false, armed := false, cd := false, preamb := 0, storing := false })

/-- The island's stages run at new rungs (R51, R56, R134, R136, R141, R145, R206). -/
def State.rungsTake (s : State) (n : IslandNo) (r : Rungs) : State :=
  let old := s.isl[n]
  let s := s.modIsl n (fun i => { i with rungs := r })
  let i := s.isl[n]
  let s := if i.pers.digIn ∧ (old.rungs.rung = 0) ≠ (r.rung = 0) then s.inputStart n else s
  let s := if i.pers = .diWb ∧ (r.rung.val ≤ 1 ∨ old.rungs.rung.val ≤ 1) then s.modDin n (fun d => { d with brk := false, curr := 0 }) else s
  let s := if i.pers = .diCnt ∧ (old.rungs.rung = 2) ≠ (r.rung = 2) then s.gateStart n else s
  let s := if old.adcMode = i.adcMode ∧ old.precision = i.precision then s else s.adcRestart n
  ((s.reclip n old).hartOff n).outputs n true

/-- RUNG (R56): the stages switch; RUNG_ACT is due within 512 tk. -/
def execRung (n : IslandNo) (r : Rungs) (s : State) : Host.Outcome State Fault Refusal :=
  s.act fun s =>
    let s := s.landed n (.rung r)
    if s.running n then
      (((s.modIsl n (fun i => { i with rungNext := some r })).rungsTake n r).cancel (.rungSwitchDone n)).owe 512 (.rungSwitchDone n)
    else s

/-- RUNG_SWITCH_DONE (R56): on the tick that is owed RUNG_ACT is sent. -/
def execRungSwitchDone (n : IslandNo) (s : State) : Host.Outcome State Fault Refusal :=
  s.timed (.rungSwitchDone n) fun s =>
    if s.isl[n].rungNext.isSome ∧ s.running n then (s.modIsl n (fun i => { i with rungNext := none })).sendUp n .rungAct else s

/-! ## Records -/

/-- Offsets of the ISL words that hold a slate-written field (R120). -/
def recordOffs : List Nat :=
  [0x00, 0x10, 0x30, 0x40, 0x48, 0x4C, 0x60, 0x64, 0x80, 0x84, 0x88, 0x8C, 0x90, 0xA0, 0xA8, 0xAC, 0xB0, 0xB4, 0xD0] ++
  (List.range 22).map (fun k => 0x100 + 4 * k)

/-- Offsets of the ADC fields (R206). -/
def adcOffs : List Nat := (List.range 22).map (fun k => 0x100 + 4 * k)

/-- The words of island n's record: address word of R35 and data (R120). -/
def State.recordOf (s : State) (n : IslandNo) : List (Nat × Word) :=
  recordOffs.map (fun o => (o, s.recAt n o)) ++
  (s.slate.islmem.filter (fun e => e.1 = n)).map (fun e => (2 ^ 31 + e.2.1, e.2.2))

/-- WADDR and WDATA data of a list of words: a new WADDR where the address does not follow on (R35). -/
def recordCells : Option Nat → List (Nat × Word) → List DownData
  | _, [] => []
  | next, (a, w) :: l =>
    (if next = some a then [] else [.waddr (BitVec.ofNat 32 a)]) ++ .wdata w :: recordCells (some (a + 4)) l

/-- The record leaves for island n, and APPLY behind it (R118, R120). -/
def State.sendRecord (s : State) (n : IslandNo) : State :=
  let s := (recordCells none (s.recordOf n)).foldl (fun s d => s.send n .slate d) s
  s.send n .slate (.cmd .apply)

/-- The record's words in force: registers, and words of island SRAM (R118). -/
def Island.takeRecord (i : Island) (l : Words) : Island :=
  l.foldl (fun i e => if e.1 < 0x10000 then { i with recd := sput islReset i.recd e.1 e.2 } else i.putWord (e.1 - 0x10000) e.2)
    { i with recd := [] }

/-- CMD_PREP (R118, R121): every field stage is de-energised, and the image repeats its last value. -/
def execCmdPrep (n : IslandNo) (s : State) : Host.Outcome State Fault Refusal :=
  s.act fun s =>
    let s := s.landed n (.cmd .prep)
    if s.running n then
      let s := s.sendLane (12 + s.itk) (.freeze n)
      ((((s.modIsl n (fun i => { i with prep := true })).outputs n true).inputStart n).hartOff n)
    else s

/-- An input personality that APPLY keeps takes its new parameters: INV, the filter, the hold limit and the gate (R121, R131, R132,
R137, R145). -/
def State.inputApply (s : State) (n : IslandNo) (old : Island) : State :=
  let i := s.isl[n]
  let s := if old.filterF = i.filterF then s else s.requalify n
  let s := if (old.reg 0).getLsbD 6 = (i.reg 0).getLsbD 6 then s else s.inputInvert n
  let s := if old.reg 0x40 = i.reg 0x40 then s else s.longLimit n (old.reg 0x40)
  if fld (old.reg 0x48) 8 24 = fld (i.reg 0x48) 8 24 ∧ fld (old.reg 0x48) 0 2 = fld (i.reg 0x48) 0 2 then s else s.gateStart n

/-- An analog personality that APPLY keeps takes its new parameters: no zone stands where no classification runs (R167), and the VALUE
in force is mapped anew (R121, R172). -/
def State.anaApply (s : State) (n : IslandNo) (old : Island) : State :=
  let s := if s.isl[n].neOn then s else s.modIsl n (fun i => { i with ana := { i.ana with ne := 0, neCand := 0, neCnt := 0 } })
  s.reclip n old

/-- The converter after an APPLY (R206): a change of an ADC field clears it; a new personality, which starts at rung 0, takes it as a rung
change does; any other APPLY does not touch it. A VALUE without its LEAD result is not VALID (R197). -/
def State.adcApplied (s : State) (n : IslandNo) (old : Island) (moved : Bool) : State :=
  let s := if adcOffs.any (fun o => decide (old.reg o ≠ s.isl[n].reg o)) then s.adcApply n else if moved then s.adcRestart n else s
  if s.isl[n].noLead then s.modIsl n (fun i => { i with ana := { i.ana with valid := false } }) else s

/-- APPLY puts the shadowed record l into force (R118, R121): a new personality starts at rung 0 with its input INDET, and a rung switch
that is under way still ends in its RUNG_ACT (R56); the safe-state controller's copy follows (R266); a service hold ends (R403). -/
def State.applyRecord (s : State) (n : IslandNo) (l : Words) : State :=
  let old := s.isl[n]
  let s := s.modIsl n (fun i => { i.takeRecord l with recShadow := none, prep := false, recOut := false })
  let s := if old.prep then s.sendLane (12 + s.itk) (.thaw n) else s
  let i := s.isl[n]
  let moved := decide (old.pers ≠ i.pers)
  let s := s.modIsl n (fun i =>
    { i with safe := { i.safe with ctlCode := BitVec.ofNat 3 (safeCode (i.reg 0x30)), ctlPreset := (i.reg 0x30).extractLsb' 0 16 } })
  let s := if moved then
      (s.modIsl n (fun i => { i with rungs := Rungs.zero, cmd := OutCmd.reset,
                                     dout := { DigOut.reset with sw := i.dout.sw }, ana := Analog.reset })).inputStart n
    else (s.inputApply n old).anaApply n old
  let s := s.loopStop n 0 0
  let s := s.adcApplied n old moved
  (((s.hartOff n).outputs n true).sendRung n).commitCheck

/-- CMD_APPLY (R118, R121): the shadowed values come into force on this itk. -/
def execCmdApply (n : IslandNo) (s : State) : Host.Outcome State Fault Refusal :=
  s.act fun s =>
    let s := s.landed n (.cmd .apply)
    match s.isl[n].recShadow with
    | none => s
    | some l => if s.running n then s.applyRecord n l else s

/-! ## Shadow stages and echoes -/

/-- CMD_SHADOW (R335): the island enters its shadow stage; a service hold ends (R403). On a device that has become SOLO meanwhile an
output keeps the stage until its first output word (R334). -/
def execCmdShadow (n : IslandNo) (s : State) : Host.Outcome State Fault Refusal :=
  s.act fun s =>
    let s := s.landed n (.cmd .shadow)
    if s.running n then
      let s := (s.loopStop n 0 0).modIsl n (fun i =>
        { i with shadow := true, shadowUntilCmd := decide (s.tan.role = .solo) && i.pers.output, din := { i.din with brk := false, curr := 0 } })
      ((s.outputs n true).hartOff n).shadowCheck
    else s

/-- CMD_UNSHADOW (R335): the island leaves its shadow stage. -/
def execCmdUnshadow (n : IslandNo) (s : State) : Host.Outcome State Fault Refusal :=
  s.act fun s =>
    ((s.landed n (.cmd .unshadow)).modIsl n (fun i => { i with shadow := false, shadowUntilCmd := false })).outputs n true

/-- The halves of a word exchanged (R401). -/
def swapHalves (w : Word) : Word := (w.extractLsb' 0 16 ++ w.extractLsb' 16 16 : BitVec 32)

/-- CMD_ECHO (R401). -/
def execCmdEcho (n : IslandNo) (w : Word) (s : State) : Host.Outcome State Fault Refusal :=
  s.act fun s =>
    let s := s.landed n (.cmd (.echo w))
    if s.running n then s.sendUpAs n (.status (.echo (swapHalves w))) (.island n) 0 4 else s

/-! ## Status reports -/

/-- Sources that stand for a bit of DIAG or ADIAG: their reports set EVENTS[15:0] (R156, R189). -/
def diagSource (src : Byte) : Bool := decide (0x40 ≤ src.toNat ∧ src.toNat ≤ 0x4B) || decide (src = 0x4E)

/-- The island's bit in EVENTS[15:0] is set, and its DIAG source pulses (R83, R237); not from PREP to APPLY (R121). -/
def State.diagEvent (s : State) (n : IslandNo) : State :=
  if s.isl[n].imgFrozen.isSome then s else (s.modIsl n (fun i => { i with diagEv := true })).pulse (0x0A0 + n.val)

/-- A source that an island reports: detected in it, or in its coupler (R288). -/
def islSource (src : Byte) : Bool := decide (src = 0x10) || decide (src = 0x31) || decide (0x40 ≤ src.toNat ∧ src.toNat ≤ 0x4E)

/-- Access type of an island fault: 6 for a condition source, else 0 (R288, R289). -/
def islType (src : Byte) : BitVec 4 := if src = 0x31 ∨ src = 0x4E then 6 else 0

/-- PASS of a service-hold measurement (R404). -/
def loopPass (depth : Nat) (pattern : BitVec 16) (code : BitVec 18) : Bool :=
  if depth = 2 then decide ((code.toInt - 4 * ((pattern.toNat : Int) - 32768)).natAbs ≤ 262)
  else if depth = 4 then decide ((code.toInt - (pattern.toNat : Int)).natAbs ≤ 50)
  else false

/-- A measurement ends: IRES takes its code (R401, R404). -/
def State.loopDone (s : State) (n : IslandNo) (code : BitVec 18) (pass : Bool) (reason : BitVec 4) (depth : Fin 5) : State :=
  s.modIsl n (fun i => { i with loop := { i.loop with st := 2, pass := pass, reason := reason, code := code, depth := depth } })

/-- STATUS_CELL (R288, R352, R401, R404). A source code that no island reports raises nothing. -/
def execStatusCell (n : IslandNo) (msg : StatusMsg) (s : State) : Host.Outcome State Fault Refusal :=
  s.act fun s =>
    let s := s.arrived n (.status msg)
    let l := s.isl[n].loop
    match msg with
    | .fault src kind detail =>
      if !islSource src then s else
      let s := if diagSource src then s.diagEvent n else s
      s.raise src (0x30 + BitVec.ofNat 8 n.val) (islType src) kind 0 detail false
    | .diag => s.diagEvent n
    | .echo w =>
      if l.st = 1 ∧ l.depth = 1 then
        let ok := decide (w = (l.pattern ++ ~~~l.pattern : BitVec 32))
        s.loopDone n ((s.tick - l.start).extractLsb' 0 18) ok (if ok then 0 else 5) 0
      else s
    | .measured code => if l.st = 1 ∧ 2 ≤ l.depth.val then s.loopDone n code (loopPass l.depth.val l.pattern code) 0 l.depth else s
    | .cvOk ok => if s.running n then s.cvTakes n ok else s.modIsl n (fun i => { i with cvOk := ok })

/-! ## Repetition and loss of cells -/

/-- SYNC (R40): the receiver accepts it whatever its SEQ, and expects the next one. -/
def execSync (n : IslandNo) (d : Dir) (seq : BitVec 2) (s : State) : Host.Outcome State Fault Refusal :=
  s.act fun s => match d with
    | .down => (s.landed n (.sync seq)).modIsl n (fun i => { i with dnRx := seq + 1 })
    | .up => (s.arrived n (.sync seq)).modIsl n (fun i => { i with upRx := seq + 1 })

/-- The command that a landing cell of island n is; none for the test cell, which has no row (R402). -/
def downRow (n : IslandNo) (c : DownCell) : Option Instr :=
  match c.data with
  | .outword w => some (.outword n w)
  | .sync q => some (.sync n .down q)
  | .rung r => some (.rung n r)
  | .waddr a => some (.waddr n a)
  | .wdata w => some (.wdata n w)
  | .raddr a => some (.raddr n a)
  | .hart b l => some (.hartDown n b l)
  | .cmd .prep => some (.cmdPrep n)
  | .cmd .apply => some (.cmdApply n)
  | .cmd .shadow => some (.cmdShadow n)
  | .cmd .unshadow => some (.cmdUnshadow n)
  | .cmd (.echo w) => some (.cmdEcho n w)
  | .cmd .chanFault => some (.channelFaultCell n)
  | .cmd .clear => some (.clearCell n)
  | .cmd (.output w) => some (.outputCommand n c.req w)
  | .cmd (.test _) => none
  | .cmd (.adc op e) =>
    match op.toNat with
    | 1 => some (.adcConvert n e) | 2 => some (.adcRtrig n) | 3 => some (.adcInject n) | 4 => some (.adcCal n) | _ => none

/-- The command that an arriving cell of island n is. -/
def upRow (n : IslandNo) : UpData → Instr
  | .fatal => .fatal n
  | .sync q => .sync n .up q
  | .rdata w => .rdata n w
  | .rungAct => .rungAct n
  | .result w => .resultCell n w
  | .status m => .statusCell n m
  | .hart b st p => .hartUp n b st p

/-- The sender goes back: the failed cell and every cell sent after it are to be sent again, in their order and with their SEQ
(R39). -/
def goBack {α : Type} (l : List (Cell α)) : List (Cell α) :=
  l.map (fun c => if c.sent then { c with sent := false, bad := false, again := true } else c)

/-- Of a dropped WADDR or WDATA cell the rest of its write is not sent (R40). -/
def dropWrite : List DownCell → List DownCell
  | [] => []
  | x :: l => if x.data.isWdata then dropWrite l else if x.data.rank ≤ 2 then x :: dropWrite l else x :: l

/-- After a drop the cells to be sent again follow on from the SEQ of the SYNC cell: the receiver expects them without a gap, also
where cells between them are not sent any more. Log entry 52. -/
def reseq {α : Type} (q : BitVec 2) : List (Cell α) → List (Cell α)
  | [] => []
  | c :: l => if c.again then { c with seq := q } :: reseq (q + 1) l else c :: reseq q l

/-- The SEQ of the next new cell: it follows those that are to be sent again. -/
def nextSeq {α : Type} (q : BitVec 2) (l : List (Cell α)) : BitVec 2 := q + BitVec.ofNat 2 (l.countP (fun c => c.again))

/-- The SYNC cell that follows a drop: it goes first, with the SEQ of the dropped cell (R40). -/
def syncCell {α : Type} (d : α) (q : BitVec 2) (t : Tick) : Cell α := { newCell d .ledger 0 0 t with sync := true, seq := q, again := true }

/-- MICA_CELL: a cell of island n was dropped (R40, R288). Log entry 47. -/
def State.micaCell (s : State) (n : IslandNo) : State :=
  (s.modIsl n (fun i => { i with cellDrop := satAdd i.cellDrop 1 })).raise 0x10 (0x30 + BitVec.ofNat 8 n.val) 5 0 0 0 false

/-- The words of a write from a dropped cell on fail for their requesters (R40); a frame stops at the first of them (R88). -/
def State.writeDropped (s : State) (n : IslandNo) (c : DownCell) (rest : List DownCell) : State :=
  let lost := (rest.take (rest.findIdx (fun x => decide (3 ≤ x.data.rank) && !x.data.isWdata))).filter (fun x => x.data.isWdata)
  (firstWords [] (if c.data.isWdata then c :: lost else lost)).foldl (fun s x => s.cellFailed n x) s

/-- The cell of a loopback is dropped: IRES takes REASON DROPPED; an echo leaves a service hold as it is, a test cell ends it (R401,
R404). -/
def State.loopDropped (s : State) (n : IslandNo) (c : DownCell) : State :=
  match c.data with
  | .cmd (.echo _) => if s.isl[n].loop.st = 1 ∧ s.isl[n].loop.depth = 1 then s.loopDone n 0 false 6 0 else s
  | .cmd (.test _) => s.loopStop n 2 6
  | _ => s

/-- A downstream cell has failed twice (R40, R123): it is dropped, its requester learns of it, and a SYNC cell goes out in front.
A dropped record cell loses the island, as does a SYNC cell (R42, R120). rest: the cells behind it, those sent already to be sent
again; those of later words of a link frame that fails are not sent any more (R88). -/
def State.dropDown (s : State) (n : IslandNo) (c : DownCell) (rest : List DownCell) : State :=
  let write := decide (c.data.rank = 3)
  let left := (if write then dropWrite rest else rest).filter (fun x => !(decide (c.req = .link) && c.data.isWrite && behind c.xref x))
  let s := s.modIsl n (fun i =>
    { i with down := syncCell (.sync c.seq) c.seq s.tick :: reseq (c.seq + 1) left,
             dnTx := nextSeq (c.seq + 1) left, wrun := if c.data.isWrite then none else i.wrun,
             stale := match c.data with | .outword _ => true | _ => i.stale })
  let s := s.micaCell n
  let s := if write then s.writeDropped n c rest else s.cellFailed n c
  let s := s.loopDropped n c
  if c.sync then s.lose n
  else if c.req = .slate then s.lose n
  else s.ackChecks

/-- An upstream cell has failed twice (R40): a lost RDATA fails its read, and the loss of a loopback's STATUS cell is its REASON DROPPED
(R401). -/
def State.dropUp (s : State) (n : IslandNo) (c : UpCell) (rest : List UpCell) : State :=
  let s := (s.modIsl n (fun i =>
    { i with up := syncCell (.sync c.seq) c.seq s.tick :: reseq (c.seq + 1) rest, upTx := nextSeq (c.seq + 1) rest })).micaCell n
  if c.sync then s.lose n
  else match c.data with
  | .rdata _ => if c.got then s else (s.modIsl n (fun i => { i with reads := i.reads.erase (c.req, c.addr) })).answer n c.req c.addr none
  | .status (.echo _) => if !c.got && decide (s.isl[n].loop.st = 1) && decide (s.isl[n].loop.depth = 1) then s.loopDone n 0 false 6 0 else s
  | .status (.measured _) =>
    if !c.got && decide (s.isl[n].loop.st = 1) && decide (2 ≤ s.isl[n].loop.depth.val) then s.loopDone n 0 false 6 s.isl[n].loop.depth else s
  | _ => s

/-- The first cell whose acknowledgement is due, 24 tk after its slot started (R39). -/
def ackDue {α : Type} (t : Tick) : List (Cell α) → Option (Cell α)
  | c :: _ => if c.sent && decide (c.slot + 24 ≤ t) then some c else none
  | [] => none

/-- Acknowledgements that reach the host side on this tick: an acknowledged cell leaves the queue; of a failed one the sender goes
back, and at its second failure it is dropped (R39, R40). At most one is due on a tick. -/
def State.ackDown (s : State) (n : IslandNo) : State :=
  match ackDue s.tick s.isl[n].down with
  | none => s
  | some c =>
    if c.got && !c.bad then (s.modIsl n (fun i => { i with down := i.down.tail })).ackChecks
    else if c.failed then s.dropDown n c (goBack s.isl[n].down).tail
    else s.modIsl n (fun i => { i with down := goBack ({ c with failed := true } :: i.down.tail) })

/-- The same at the island. -/
def State.ackUp (s : State) (n : IslandNo) : State :=
  match ackDue s.tick s.isl[n].up with
  | none => s
  | some c =>
    if c.got && !c.bad then s.modIsl n (fun i => { i with up := i.up.tail })
    else if c.failed then s.dropUp n c (goBack s.isl[n].up).tail
    else s.modIsl n (fun i => { i with up := goBack ({ c with failed := true } :: i.up.tail) })

/-- The first cell whose acknowledgement is out fails: corrupted on its way, or acknowledged in vain (R39). -/
def spoil {α : Type} : List (Cell α) → List (Cell α)
  | [] => []
  | c :: l => if c.sent then { c with bad := true } :: l else c :: l

/-- CELL_RETRANSMIT (R39, R40): the acknowledgement of the oldest cell whose acknowledgement is out will be missing, corrupted or
negative: before the cell lands, the cell itself is corrupted and does not land, nor do those behind it; later only its
acknowledgement fails. The sender goes back 24 tk after the slot of the cell. -/
def execCellRetransmit (n : IslandNo) (d : Dir) (s : State) : Host.Outcome State Fault Refusal :=
  s.act fun s => match d with
    | .down => s.modIsl n (fun i => { i with down := spoil i.down })
    | .up => s.modIsl n (fun i => { i with up := spoil i.up })

/-! ## Landings -/

/-- A cell reaches its receiver on tick t and is taken: uncorrupted, of the SEQ that is expected, or a SYNC cell (R39, R40). -/
def Cell.lands {α : Type} (c : Cell α) (isSync : Bool) (t : Tick) (expect : BitVec 2) : Bool :=
  c.sent && decide (c.slot + 12 = t) && !c.bad && !c.got && (isSync || decide (c.seq = expect))

/-- A cell that was accepted before and is sent again is discarded, and acknowledged again (R39). -/
def Cell.repeats {α : Type} (c : Cell α) (t : Tick) (expect : BitVec 2) : Bool :=
  c.sent && decide (c.slot + 12 = t) && !c.bad && c.got && decide (c.seq = expect)

/-- The acknowledgements of this tick. -/
def State.ackCells (s : State) : State := islands.foldl (fun (s : State) (n : IslandNo) => (s.ackDown n).ackUp n) s

/-! ## Entry to RUNNING -/

/-- FIRST_SYMBOL (R362): the island enters RUNNING with its stages at rung 0, gets its record (R120) and, on a standby, its
shadow stage (R335); its downstream lane is delivered. lvl: where its input terminal stands. -/
def execFirstSymbol (n : IslandNo) (lvl : TermLevel) (s : State) : Host.Outcome State Fault Refusal :=
  s.act fun s =>
    let i := s.isl[n]
    if i.power = .charging ∧ i.cvOk then
      let s := s.cancel (.firstSymbolTimeout n)
      let s := s.modIsl n (fun i =>
        { i.fallen with
          power := .running, recOut := true, stale := false, imgFrozen := none, dnTx := 0, dnRx := 0, upTx := 0, upRx := 0,
          safe := { SafeLogic.reset with mark := i.safe.mark, noCarrier := i.safe.noCarrier && !s.pow.vmicaOk },
          din := { DigIn.reset with lvl := lvl }, host := Island.reset.host, laneDn := DLane.zero, outBit := false })
      let s := s.sendRecord n
      let s := if s.tan.role = .standby && shadows (s.pers n) then s.send n .tandem (.cmd .shadow) else s
      ((s.laneUpdate n).tapChanged)
    else s

end Sys2Proof.Machine
end

