-- ==== Sys2Proof/Machine/Facet.lean ====
section
/-! DEFINITION. The Facet core apart from its instructions: address map, protection, the life of a context, locks, launches and
kills (R208-R227, R235). -/

namespace Sys2Proof.Machine

/-! ## Address map -/

/-- What a byte address names (R2, R61, R81, R218, R305). -/
inductive Region where
  | reg | isl (n : IslandNo) | islMem (n : IslandNo) | slice (u : CtxNo) | shared | nvm | rom | none
  deriving DecidableEq, Repr

/-- The region of a byte address on the member. -/
def regionOf (m : Member) (a : Nat) : Region :=
  if a < 0xA000 then .reg
  else if 0x0010_0000 ≤ a ∧ a < 0x0011_0000 then
    if (a - 0x0010_0000) / 0x1000 < m.islands then .isl (Fin.ofNat 16 ((a - 0x0010_0000) / 0x1000)) else .none
  else if 0x0080_0000 ≤ a ∧ a < 0x0084_0000 then
    if (a - 0x0080_0000) / 0x4000 < m.islands then .islMem (Fin.ofNat 16 ((a - 0x0080_0000) / 0x4000)) else .none
  else if 0x2000_0000 ≤ a ∧ a < m.sharedBase then .slice (Fin.ofNat 8 ((a - 0x2000_0000) / m.sliceBytes))
  else if m.sharedBase ≤ a ∧ a < m.sramEnd then .shared
  else if 0x3000_0000 ≤ a ∧ a < 0x3000_0000 + m.nvmBytes then .nvm
  else if 0x3F00_0000 ≤ a ∧ a < 0x3F00_8000 then .rom
  else .none

/-- The SRAM bank, of 1 MiB each, or the register that an access takes (R20, R210). -/
def touchOf (m : Member) (a : Nat) : Option Nat :=
  match regionOf m a with
  | .slice _ => some (a / 0x10_0000 * 0x10_0000)
  | .shared => some (a / 0x10_0000 * 0x10_0000)
  | .reg => some (a / 4 * 4)
  | .isl _ => some (a / 4 * 4)
  | _ => none

/-- First byte of slice t (R218). -/
def sliceBase (m : Member) (t : CtxNo) : Nat := 0x2000_0000 + t.val * m.sliceBytes

/-- A link word or a thread takes the bank of this address on this tick (R210, R255). -/
def State.bankTaken (s : State) (a : Nat) : Bool :=
  match touchOf s.member a with
  | some k => decide (s.link.touch = some (s.tick, k)) || decide (s.facet.touch = some (s.tick, k))
  | none => false

/-! ## SRAM and NVM bytes -/

/-- A byte of SRAM; a byte that nothing has written reads 0 (log entry 7). -/
def State.sram (s : State) (a : Nat) : Byte := sget (fun _ => 0) s.mem a

/-- A word of SRAM, the most significant byte at the lowest address (log entry 9). -/
def State.sramWord (s : State) (a : Nat) : Word := bytesWord (s.sram a) (s.sram (a + 1)) (s.sram (a + 2)) (s.sram (a + 3))

/-- A byte of SRAM is written. -/
def State.putByte (s : State) (a : Nat) (b : Byte) : State := { s with mem := sput (fun _ => 0) s.mem a b }

/-- Bytes of SRAM are written from an address up. -/
def State.putBytes (s : State) (a : Nat) : List Byte → State
  | [] => s
  | b :: l => (s.putByte a b).putBytes (a + 1) l

/-- A word of SRAM is written. -/
def State.putSram (s : State) (a : Nat) (w : Word) : State := s.putBytes a (wordsBytes [w])

/-- A byte of the store; erased flash reads all ones (R306). -/
def State.flash (s : State) (o : Nat) : Byte := sget (fun _ => 0xFF) s.nvm.mem o

/-- A word of the store. -/
def State.flashWord (s : State) (o : Nat) : Word := bytesWord (s.flash o) (s.flash (o + 1)) (s.flash (o + 2)) (s.flash (o + 3))

/-- A word through the read window: the key-slot region reads 0 (R305, R307). -/
def State.windowWord (s : State) (o : Nat) : Word := if s.member.nvmAt 0x1F_0000 ≤ o ∧ o < s.member.nvmBytes then 0 else s.flashWord o

/-- A word of the boot ROM. -/
def romWord (o : Nat) : Word :=
  bytesWord (Config.bootRomByte o) (Config.bootRomByte (o + 1)) (Config.bootRomByte (o + 2)) (Config.bootRomByte (o + 3))

/-- Offset of the sector of the intent journal behind the one that is being filled (R314). -/
def State.journalNext (s : State) : Nat := s.member.nvmAt 0x1E_0000 + 4096 * ((s.nvm.jpos / 128 + 1) % s.member.nvmAt 16)

/-- Offset of the next record of the intent journal. -/
def State.journalSlot (s : State) : Nat := s.member.nvmAt 0x1E_0000 + 32 * s.nvm.jpos

/-- The sector that a step erases or programs at this moment, while its operation runs or waits for STEP (R307, R314). Log entry 20. -/
def State.busySector (s : State) : Option Nat :=
  if s.nvm.st = .busy ∨ s.nvm.st = .recovering ∨ s.nvm.st = .stepWait then
    match s.nvm.jobs, s.nvm.phase with
    | [], _ => none
    | _ :: _, .journalErase _ => some (s.journalNext / 4096)
    | _ :: _, .intent => some (s.journalSlot / 4096)
    | _ :: _, .done => some (s.journalSlot / 4096)
    | j :: _, .body => some ((j.target + 32 * s.nvm.units) / 4096)
    | _ :: _, .check => none
    | _ :: _, .image _ => none
  else none

/-- A read of this offset meets the sector that is being erased or programmed (R307). -/
def State.flashBusy (s : State) (o : Nat) : Bool := decide (s.busySector = some (o / 4096))

/-! ## Registers of a context -/

/-- Register r of a context: g0 reads 0 (R233). -/
def Ctx.get (c : Ctx) (r : RegNo) : Word := if r = 0 then 0 else c.regs[r]

/-- Register r takes a value: writes to g0 are discarded (R233). -/
def Ctx.put (c : Ctx) (r : RegNo) (v : Word) : Ctx := if r = 0 then c else { c with regs := c.regs.set r v }

/-- Register r of context t. -/
def State.greg (s : State) (t : CtxNo) (r : RegNo) : Word := s.facet.ctx[t].get r

/-- The context is FREE for a FORK or LAUNCH (R215, R217). -/
def State.ctxFree (s : State) (t : CtxNo) : Bool :=
  decide (s.facet.ctx[t].st = .free) && decide (s.facet.ctx[t].freeAt ≤ s.tick)

/-- TSTAT.STATE: a context that ends shows the state that it ended in until it is FREE (R213, R215, R217). -/
def State.ctxState (s : State) (t : CtxNo) : CtxState :=
  if s.facet.ctx[t].st = .free ∧ s.tick < s.facet.ctx[t].freeAt then s.facet.ctx[t].wasSt else s.facet.ctx[t].st

/-- Context t executes from the boot ROM (R218). While an instruction takes its effects PC stands at the next word, so the first
word behind the ROM counts. Log entry 44. -/
def State.inRom (s : State) (t : CtxNo) : Bool :=
  decide (t = 0) && decide (0x3F00_0000 ≤ s.facet.ctx[t].pc.toNat ∧ s.facet.ctx[t].pc.toNat < 0x3F00_8004) &&
  decide (s.facet.ctx[t].st ≠ .free)

/-! ## Locks -/

/-- Lock k after f. -/
def State.modLock (s : State) (k : Fin 64) (f : Lock → Lock) : State :=
  { s with facet := { s.facet with locks := s.facet.locks.set k (f s.facet.locks[k]) } }

/-- The lock becomes free and poisoned; LOCK_POISON names the previous owner and the lock (R224, R227). -/
def State.poisonLock (s : State) (k : Fin 64) (t : CtxNo) : State :=
  (s.modLock k (fun _ => { owner := none, poison := true })).raiseBy 0x19 (.thread t) 0 0 (BitVec.ofNat 32 k.val)

/-- Every lock that context t owns is freed and poisoned (R227). -/
def State.dropLocks (s : State) (t : CtxNo) : State :=
  entries.foldl (fun (s : State) (k : Fin 64) => if s.facet.locks[k].owner = some t then s.poisonLock k t else s) s

/-- A master may write a register of the host link alone (R216, R225). -/
def State.linkOnly (s : State) (m : Master) (a : Nat) (f : State → State) : State :=
  if m = .link then f s else s.accFault .master m 2 a

/-- LOCK_FORCE_RELEASE (R224, R225, R227). -/
def State.forceRelease (s : State) (k : Fin 64) : State :=
  match s.facet.locks[k].owner with
  | some t => s.poisonLock k t
  | none => s.modLock k (fun _ => { owner := none, poison := true })

def execLockForceRelease (m : Master) (k : Fin 64) (s : State) : Host.Outcome State Fault Refusal :=
  s.act fun s => s.linkOnly m 0x4128 (fun s => s.forceRelease k)

/-- CLEAR_POISON has no effect on an owned lock (R225). -/
def State.clearPoison (s : State) (k : Fin 64) : State :=
  if s.facet.locks[k].owner.isNone then s.modLock k (fun l => { l with poison := false }) else s

/-- LOCK_CLEAR_POISON (R224, R225). -/
def execLockClearPoison (m : Master) (k : Fin 64) (s : State) : Host.Outcome State Fault Refusal :=
  s.act fun s => s.linkOnly m 0x4128 (fun s => s.clearPoison k)

/-! ## The end of a context -/

/-- The slate session of this master is discarded with OWNER_LOST; not in COMMITTING (R114). -/
def State.ownerLost (s : State) (m : Master) : State :=
  if s.slate.owner = some m ∧ s.slate.st ≠ .committing ∧ s.slate.st ≠ .empty then
    { (((s.cancel (.nvmLoadComplete true)).cancel .verifyComplete)) with
      slate := { s.slate with st := .empty, owner := none, staged := [], total := 0, fromNvm := false, err := 14 } }
  else s

/-- A command that continues the work of context t. -/
def ctxWork (t : CtxNo) : Instr → Bool
  | .wfeTimeout u => decide (t = u)
  | .multiSlotDone u => decide (t = u)
  | .islandLoadReturn u => decide (t = u)
  | .fenceComplete u => decide (t = u)
  | .childStart u => decide (t = u)
  | _ => false

/-- Reads of context t are abandoned: the data is discarded when it arrives (R215). Log entry 39. -/
def Island.orphanReads (t : CtxNo) (i : Island) : Island :=
  { i with reads := i.reads.map (fun r => if r.1 = .thread t then (.island 0, r.2) else r),
           down := i.down.map (fun c => if c.req = .thread t ∧ c.data.rank = 4 then { c with req := .island 0 } else c) }

/-- An island store or output command that has issued and waits for a full queue: it completes even where its context ends (R215). -/
def Stall.posted : Stall → List Stall
  | .store n a v l => [.store n a v l]
  | .outc rd n v => [.outc rd n v]
  | _ => []

/-- The context ends: its locks are poisoned, the thread-end source is driven, and it may be taken k ticks from now (R213, R215, R217,
R227). -/
def State.endCtx (s : State) (t : CtxNo) (exit : Word) (killed : Bool) (k : Nat) : State :=
  let s := { s with due := s.due.filter (fun e => !ctxWork t e.2) }
  let s := s.modCtx t (fun c =>
    { c with st := .free, exit := exit, killed := killed, stall := .none, left := c.left ++ c.stall.posted, starting := false, cause := 0,
             wasSt := c.st, freeAt := s.tick + BitVec.ofNat 64 k })
  let s := islands.foldl (fun (s : State) (n : IslandNo) => s.modIsl n (Island.orphanReads t)) s
  (s.dropLocks t).pulseIn k (0x0F0 + t.val)

/-- The thread-end pulse of context t that is owed on tick u does not come. -/
def State.noThreadEnd (s : State) (t : CtxNo) (u : Tick) : State :=
  let l := linesOf s (0x0F0 + t.val)
  { s with due := s.due.filter (fun e => !(decide (e.1 = u) && (match e.2 with | .eventPulse k => l.contains k | _ => false))) }

/-- A kill (R215): also of a context whose JOIN has issued and which is not FREE yet; its thread ends once. -/
def State.killCtx (s : State) (t : CtxNo) : State :=
  let c := s.facet.ctx[t]
  if c.st ≠ .free then (s.endCtx t 0xFFFFFFFF true 1).ownerLost (.thread t)
  else if s.tick + 1 < c.freeAt then
    let s := (s.noThreadEnd t c.freeAt).modCtx t (fun c => { c with exit := 0xFFFFFFFF, killed := true, freeAt := s.tick + 1 })
    (s.pulseIn 1 (0x0F0 + t.val)).ownerLost (.thread t)
  else s

/-- KILL (R215, R235): a write to FACET.KILL, by any master that may write host-die registers. -/
def execKill (_m : Master) (mask : BitVec 8) (s : State) : Host.Outcome State Fault Refusal :=
  s.act fun s => contexts.foldl (fun (s : State) (t : CtxNo) => if mask.getLsbD t.val then s.killCtx t else s) s

/-! ## The start of a context -/

/-- The start PC is word-aligned and fetchable by context t (R216, R218). -/
def State.fetchable (s : State) (t : CtxNo) (pc : Word) : Bool :=
  decide (fld pc 0 2 = 0) &&
  (match regionOf s.member pc.toNat with
   | .slice u => decide (u = t)
   | .shared => true
   | .rom => true
   | _ => false)

/-- The start PC is fetchable by some context. -/
def State.fetchableAny (s : State) (pc : Word) : Bool := contexts.any (fun t => s.fetchable t pc)

/-- Reasons of R216 and FORK: 1 POOL_EMPTY, 2 BUSY, 3 BADPC. -/
inductive StartFail where
  | poolEmpty | busy | badPc
  deriving DecidableEq, Repr

def StartFail.code : StartFail → Nat
  | .poolEmpty => 1 | .busy => 2 | .badPc => 3

/-- The context that a request gets (R216); ctx 8 asks for the lowest free one. A PC that the context found cannot fetch fails
with BADPC before anything is allocated. -/
def State.findCtx (s : State) (ctx : Nat) (pc : Word) : CtxNo ⊕ StartFail :=
  if ctx < 8 then
    let t : CtxNo := Fin.ofNat 8 ctx
    if !s.fetchable t pc then .inr .badPc
    else if s.ctxFree t then .inl t else .inr .busy
  else if !s.fetchableAny pc then .inr .badPc
  else match contexts.find? (fun t => s.ctxFree t) with
    | none => .inr .poolEmpty
    | some t => if s.fetchable t pc then .inl t else .inr .badPc

/-- What an instruction in flight works on, once its context is reset or started again (R215). -/
def Ctx.flown (c : Ctx) : Option (Vector Word 16 × Word) := if c.flight = .none then none else c.old.or (some (c.regs, c.pc))

/-- Context t starts (R213): g1 is the argument, g2 the context number, the other registers 0, EL clear, W disarmed and the count 0; its
first issue falls on tick u. What R213 does not name stays: KILLED, the W1C bits, W, and the failures that a FENCE counts (R232, R235). -/
def State.startCtx (s : State) (t : CtxNo) (pc arg : Word) (u : Tick) : State :=
  (s.modCtx t (fun c =>
    { Ctx.reset with st := .run, regs := (Ctx.reset.regs.set 1 arg).set 2 (BitVec.ofNat 32 t.val), pc := pc, exit := c.exit,
                     snap := c.snap, killed := c.killed, eovr := c.eovr, ierr := c.ierr, pwerr := c.pwerr, w := c.w, fails := c.fails,
                     flight := c.flight, old := c.flown, left := c.left, starting := true, startAt := u })).oweAt u (.childStart t)

/-- The first slot of context t at or after tick u (R208). -/
def slotFrom (u : Tick) (t : CtxNo) : Tick := u + BitVec.ofNat 64 ((t.val + 8 - u.toNat % 8) % 8)

/-- A LAUNCH (R216, R217, R235). -/
def State.launch (s : State) (ctx : Nat) : State :=
  match s.findCtx ctx s.facet.launchPc with
  | .inr f => { s with facet := { s.facet with lfail := true, lreason := BitVec.ofNat 2 f.code } }
  | .inl t =>
    let s := s.startCtx t s.facet.launchPc s.facet.launchArg (slotFrom (s.tick + 2) t)
    { s with facet := { s.facet with lfail := false, lreason := 0, lctx := BitVec.ofNat 3 t.val } }

/-- LAUNCH (R216): codes 9-15 fall back to 8 with a clamp (R235). -/
def execLaunch (m : Master) (ctx : BitVec 4) (s : State) : Host.Outcome State Fault Refusal :=
  s.act fun s => s.linkOnly m 0x4010 (fun s =>
    let s := if 8 < ctx.toNat then s.clamped m 1 else s
    s.launch (min 8 ctx.toNat))

/-- CHILD_START (R217): the context's first slot has come, and it may issue. -/
def execChildStart (t : CtxNo) (s : State) : Host.Outcome State Fault Refusal :=
  s.act fun s =>
    let s := s.settle (.childStart t)
    s.modCtx t (fun c => if c.startAt ≤ s.tick then { c with starting := false } else c)

end Sys2Proof.Machine
end

