-- ==== Sys2Proof/Machine/Sha.lean ====
section
/-! DEFINITION. SHA-256 and HMAC-SHA-256 over 32-bit words, as R109 names them (FIPS 180-4, RFC 2104). The tables are computed
from what they are by definition, the fractions of roots of primes; the eight working words are the four latest values of two
sequences. -/

namespace Sys2Proof.Machine

/-- The bits of the k-th root of n from bit b - 1 down, on top of r. -/
def rootFrom (k n : Nat) : Nat → Nat → Nat
  | 0, r => r
  | b + 1, r => rootFrom k n b (if (r + 2 ^ b) ^ k ≤ n then r + 2 ^ b else r)

/-- The first 32 bits of the fraction of the k-th root of p. -/
def rootFraction (k p : Nat) : Word := BitVec.ofNat 32 (rootFrom k (p * 2 ^ (32 * k)) 38 0)

/-- The primes below n. -/
def primesBelow (n : Nat) : List Nat :=
  (List.range n).filter (fun p => 2 ≤ p && (List.range 16).all (fun d => d < 2 || p ≤ d || p % d ≠ 0) && (p % 17 ≠ 0 || p = 17))

/-- The round constants: cube roots of the first 64 primes. -/
def shaConstants : List Word := (primesBelow 312).map (rootFraction 3)

/-- Two sequences of which every round makes one value more, the latest four of each, newest in front. -/
structure ShaWindow where
  up : List Word
  dn : List Word
  deriving DecidableEq, Repr

/-- The windows before the first block: square roots of the first eight primes. -/
def shaStart : ShaWindow := { up := [2, 3, 5, 7].map (rootFraction 2), dn := [11, 13, 17, 19].map (rootFraction 2) }

/-- Exclusive or of the word turned right by each amount. -/
def turns (l : List Nat) (x : Word) : Word := l.foldl (fun y k => y ^^^ x.rotateRight k) 0

/-- Bit by bit, x chooses between y and z. -/
def choice (x y z : Word) : Word := z ^^^ (x &&& (y ^^^ z))

/-- Bit by bit, the value that two of three words have. -/
def majority (x y z : Word) : Word := (x &&& y) ||| (z &&& (x ||| y))

/-- A round with m, the sum of its schedule word and its constant. -/
def ShaWindow.round (s : ShaWindow) (m : Word) : ShaWindow :=
  match s.up, s.dn with
  | [a0, a1, a2, a3], [e0, e1, e2, e3] =>
    let t := e3 + turns [6, 11, 25] e0 + choice e0 e1 e2 + m
    { up := [t + turns [2, 13, 22] a0 + majority a0 a1 a2, a0, a1, a2], dn := [a3 + t, e0, e1, e2] }
  | _, _ => s

/-- The schedule word that follows sixteen words, newest in front. -/
def nextScheduled (l : List Word) : Word :=
  let near := l.getD 1 0
  let far := l.getD 14 0
  (turns [17, 19] near ^^^ (near >>> 10)) + l.getD 6 0 + (turns [7, 18] far ^^^ (far >>> 3)) + l.getD 15 0

/-- The schedule from its latest sixteen words on, newest in front: what is left of the message first, then new words. -/
def shaRun : List Word → List Word → List Word → ShaWindow → ShaWindow
  | [], _, _, s => s
  | k :: ks, w :: ws, seen, s => shaRun ks ws (w :: seen) (s.round (w + k))
  | k :: ks, [], seen, s =>
    let w := nextScheduled seen
    shaRun ks [] (w :: seen.take 15) (s.round (w + k))

/-- A block of sixteen words is taken in. -/
def ShaWindow.block (s : ShaWindow) (w : List Word) : ShaWindow :=
  let r := shaRun shaConstants w [] s
  { up := List.zipWith (· + ·) s.up r.up, dn := List.zipWith (· + ·) s.dn r.dn }

/-- The blocks of a padded message; n bounds their number. -/
def ShaWindow.blocks (s : ShaWindow) : Nat → List Word → ShaWindow
  | 0, _ => s
  | n + 1, l => if l.isEmpty then s else (s.block (l.take 16)).blocks n (l.drop 16)

/-- A message of whole words with the end bit, zeros and its length in bits behind it. -/
def shaPadded (l : List Word) : List Word :=
  let bits := 32 * l.length
  l ++ 0x80000000 :: List.replicate ((45 - l.length % 16) % 16) 0 ++ [BitVec.ofNat 32 (bits / 2 ^ 32), BitVec.ofNat 32 bits]

/-- SHA-256 of a message of whole words. -/
def sha256 (l : List Word) : List Word :=
  let m := shaPadded l
  let s := shaStart.blocks (m.length / 16) m
  s.up ++ s.dn

/-- HMAC-SHA-256 under a key of eight words (R109). -/
def hmac (key msg : List Word) : List Word :=
  let padded (b : Word) : List Word := (key ++ List.replicate (16 - key.length) 0).map (· ^^^ b)
  sha256 (padded 0x5C5C5C5C ++ sha256 (padded 0x36363636 ++ msg))

end Sys2Proof.Machine
end

