-- ==== Sys2Proof/Machine/Nvm.lean ====
section
/-! DEFINITION. The non-volatile store: its engine, the intent journal, bank images and marks, settings and retained counters
(R305-R327). -/

namespace Sys2Proof.Machine

/-! ## Flash -/

/-- No byte of the range is programmed (R306). -/
def State.blank (s : State) (a len : Nat) : Bool := s.nvm.mem.all (fun e => decide (e.1 < a ∨ a + len ≤ e.1))

/-- The range is erased. -/
def Nvm.eraseRange (v : Nvm) (a len : Nat) : Nvm := { v with mem := v.mem.filter (fun e => decide (e.1 < a ∨ a + len ≤ e.1)) }

/-- Bytes are programmed from an offset up. -/
def flashPut : List Host.Cell → Nat → List Byte → List Host.Cell
  | m, _, [] => m
  | m, a, b :: l => flashPut (sput (fun _ => (0xFF : Byte)) m a b) (a + 1) l

/-- The content of a range whose program or erase was cut is a free value (R310, R313, log entry 6). -/
def State.tear (s : State) (a len : Nat) : State :=
  { s with nvm := { s.nvm with mem := flashPut s.nvm.mem a ((List.range len).map (fun k => Config.nvmTorn s.free (a + k))) } }.freed

/-- Words of the store. -/
def State.flashWords (s : State) (a n : Nat) : List Word := (List.range n).map (fun k => s.flashWord (a + 4 * k))

/-- Bytes of the store. -/
def State.flashBytes (s : State) (a n : Nat) : List Byte := (List.range n).map (fun k => s.flash (a + k))

/-! ## Banks and images -/

/-- First offset of a bank (R305). -/
def bankBase (m : Member) : Bank → Nat
  | .bankA => 0 | .bankB => m.nvmAt 0xC_0000

def otherBank : Bank → Bank
  | .bankA => .bankB | .bankB => .bankA

/-- Image header word k of a bank (R318). -/
def State.img (s : State) (b : Bank) (k : Nat) : Word := s.flashWord (bankBase s.member b + 4 * k)

/-- Offset of mark k: 0 WRITTEN, 1 TRIAL, 2 CONFIRMED, 3 REJECTED (R319). -/
def markAt (m : Member) (b : Bank) (k : Nat) : Nat := bankBase m b + (m.nvmAt 0xC_0000 - 0x1000) + 32 * k

/-- A mark is present when its unit is not fully erased (R320). -/
def State.marked (s : State) (b : Bank) (k : Nat) : Bool := !s.blank (markAt s.member b k) 32

/-- The bank counts as BAD since the last boot (R320, R321). -/
def State.bad (s : State) : Bank → Bool
  | .bankA => s.nvm.badA | .bankB => s.nvm.badB

/-- NVM.BANKST of a bank (R320). -/
def State.bankSt (s : State) (b : Bank) : Nat :=
  if s.marked b 3 || s.bad b then 5
  else if s.img b 0 ≠ 0x5348494D then 0
  else if !s.marked b 0 then 1
  else if s.marked b 2 then 4
  else if s.marked b 1 then 3
  else 2

/-- GEN of a bank's image, 0 if EMPTY (R327). -/
def State.gen (s : State) (b : Bank) : Word := if s.bankSt b = 0 then 0 else s.img b 3

/-- The key of a slot that is SET. -/
def State.keyOf (s : State) (k : Nat) : Option (List Word) :=
  match s.slate.keys[(Fin.ofNat 8 k)] with
  | .set key => some key
  | _ => none

/-- The image's header passes its checks: MAGIC, FORMAT, MEMBER and LEN (R318, R319). -/
def State.headOk (s : State) (b : Bank) : Bool :=
  let len := (s.img b 2).toNat
  decide (s.img b 0 = 0x5348494D) && decide (fld (s.img b 1) 16 16 = 1) && decide (BitVec.ofNat 8 (fld (s.img b 1) 8 8) = s.member.code) &&
  decide (24 ≤ len) && decide (4 * len ≤ s.member.nvmAt 0xC_0000 - 0x1000)

/-- Ticks of the check of an image, at 8 tk per word; a header that fails ends it behind its three words (R319). Log entry 20. -/
def State.imageTk (s : State) (b : Bank) : Nat := 8 * (if s.headOk b then (s.img b 2).toNat else 3)

/-- The image passes its checks: MAGIC, FORMAT, MEMBER, LEN, CRC and MAC (R318, R319). -/
def State.imageOk (s : State) (b : Bank) : Bool :=
  let w1 := s.img b 1
  let len := (s.img b 2).toNat
  let auth := w1.getLsbD 4
  s.headOk b &&
  decide (crc32c (s.flashWords (bankBase s.member b) (len - 1)) = s.img b (len - 1)) &&
  (if auth then
     match s.keyOf (fld w1 0 3) with
     | some key => decide (hmac key (s.flashWords (bankBase s.member b) (len - 9)) = s.flashWords (bankBase s.member b + 4 * (len - 9)) 8)
     | none => false
   else !s.slate.authReq)

/-- SCHEMA of the slate inside a bank's image (R103, R318). -/
def State.bankSchema (s : State) (b : Bank) : BitVec 16 :=
  (s.flashWord (bankBase s.member b + 4 * (s.img b 4).toNat + 16)).extractLsb' 16 16

/-- WSEQ and MIG of a bank's WRITTEN mark (R319, log entry 30). -/
def State.wseq (s : State) (b : Bank) : Word := s.flashWord (markAt s.member b 0 + 8)
def State.mig (s : State) (b : Bank) : Bool := s.marked b 0 && (s.flashWord (markAt s.member b 0 + 12)).getLsbD 0

/-! ## Preconditions -/

/-- RES codes (R327). -/
inductive NvmRes where
  | done | busy | rate | temp | prot | align | notBlank | verify | abortStill | aborted | reclaimed | recovering | full | badImg
  | noSlate | priv
  deriving DecidableEq, Repr

def NvmRes.code : NvmRes → BitVec 5
  | .done => 0 | .busy => 1 | .rate => 2 | .temp => 3 | .prot => 4 | .align => 5 | .notBlank => 6 | .verify => 7
  | .abortStill => 8 | .aborted => 9 | .reclaimed => 10 | .recovering => 11 | .full => 12 | .badImg => 13 | .noSlate => 14
  | .priv => 15

/-- RES takes a code. -/
def State.nvmRes (s : State) (r : NvmRes) : State := { s with nvm := { s.nvm with res := r.code } }

/-- The declared rate and the die temperature allow a program or erase (R309). -/
def State.nvmFit (s : State) : Bool := decide (50000 ≤ s.rate.toNat) && !s.pow.above115

/-- An intent is open that no operation of its own works on, or the controller recovers one (R309, R313). -/
def State.toRecover (s : State) : Bool :=
  decide (s.nvm.st = .recovering) || s.nvm.redo ||
  s.nvm.intents.any (fun i => decide (s.nvm.jobs = []) || decide (i.seq ≠ s.nvm.cur))

/-- The first precondition of the controller that does not hold (R309): while intents are open to recover it answers RECOVERING
(R313). -/
def State.nvmRefusal (s : State) : Option NvmRes :=
  if s.toRecover then some .recovering
  else if s.nvm.st ≠ .idle then some .busy
  else if s.rate.toNat < 50000 then some .rate
  else if s.pow.above115 then some .temp
  else none

/-- Commands come from the link and from threads (R327). -/
def State.nvmCmd (s : State) (m : Master) (a : Nat) (f : State → State) : State :=
  match m with
  | .link => f s
  | .thread _ => f s
  | _ => s.accFault .master m 2 a

/-! ## The engine -/

/-- The step erases: a journal sector, or the target of an erase. -/
def Nvm.erases (v : Nvm) : Bool :=
  match v.phase, v.jobs with
  | .journalErase _, _ => true
  | .body, j :: _ => decide (j.kind = .erase) || decide (j.kind = .keyErase)
  | _, _ => false

/-- Ticks of the next pulse: ceil(RATE x 128 / 1000) of an erase, ceil(RATE x 8 / 1000) of a program (R308). -/
def Nvm.pulseTk (v : Nvm) : Nat := (v.rate.toNat * (if v.erases then 128 else 8) + 999) / 1000

/-- Ticks of the verify behind a pulse (R308). -/
def Nvm.verifyTk (v : Nvm) : Nat := if v.erases then 1024 else 64

/-- A reset waits for no more than a slice: no other slice starts before it (R281, R354; DESIGN CHOICE, log entry 68). -/
def State.resetWaits (s : State) : Bool := s.flint.resetDue || (s.pow.k2due && decide (s.slate.st ≠ .committing))

/-- A slice starts k ticks from now, but not while a reset waits: a pulse of so many ticks with its verify (R308, R311). -/
def State.nvmSlice (s : State) (k pulse : Nat) : State :=
  { s with nvm := { s.nvm with st := if s.nvm.redo then .recovering else .busy, held := s.resetWaits,
                               sliceAt := s.tick + BitVec.ofNat 64 (k + pulse + s.nvm.verifyTk) } }

/-- The next pulse begins, or waits for STEP (R308, R311). -/
def State.nvmPulse (s : State) : State :=
  if (s.cfgAt 0x7018).getLsbD 0 then
    { s with nvm := { s.nvm with st := .stepWait, hwstep := BitVec.ofNat 32 s.nvm.pulseTk } }
  else s.nvmSlice 0 s.nvm.pulseTk

/-- A record of the intent journal is to be programmed, behind the erase of the next sector where it opens one (R314). -/
def State.nvmRecord (s : State) (forDone : Bool) : State :=
  let erase := decide (s.nvm.jpos % 128 = 0) && !s.blank s.journalNext 4096
  { s with nvm := { s.nvm with phase := if erase then .journalErase forDone else if forDone then .done else .intent,
                               pulses := 0 } }.nvmPulse

/-- OP code of a kind (R312). -/
def NvmKind.op : NvmKind → Nat
  | .erase => 1 | .program => 2 | .mark => 3 | .key => 4 | .keyErase => 5

/-- The 32 bytes of an intent-journal record (R312). For a key operation TARGET is a free value (log entry 30). -/
def State.journalRecord (s : State) (done : Bool) (i : Intent) : List Word :=
  let tgt : Word := match i.kind with
    | .key => Config.unstated s.free | .keyErase => Config.unstated s.free | _ => BitVec.ofNat 32 i.target
  let w : List Word :=
    [BitVec.ofNat 32 (0x4A00_0000 + (if done then 2 else 1) * 2 ^ 20 + i.kind.op * 2 ^ 16 + (if done then s.nvm.status.toNat * 2 ^ 8 else 0) +
        i.mid.toNat),
     i.seq, tgt, i.dcrc, i.began.setWidth 32, i.began.extractLsb' 32 32, 0xFFFFFFFF]
  w ++ [crc32c w]

/-- The record is programmed in the journal's next slot. -/
def State.journalPut (s : State) (done : Bool) (i : Intent) : State :=
  { s with nvm := { s.nvm with mem := flashPut s.nvm.mem s.journalSlot (wordsBytes (s.journalRecord done i)),
                               jpos := (s.nvm.jpos + 1) % s.member.nvmAt 2048 } }

/-- The bytes that DCRC covers: the data to be programmed, and of SET_AUTH_REQ's unit the lock word alone (R312). -/
def NvmJob.covered (j : NvmJob) : List Byte := if j.after = .authReq then j.data.take 4 else j.data

/-- The intent of the job in progress (R312). -/
def State.jobIntent (s : State) (j : NvmJob) : Intent :=
  { seq := s.nvm.cur, kind := j.kind, target := j.target, len := j.covered.length,
    dcrc := match j.kind with | .erase => 0 | .keyErase => 0 | _ => crc32cBytes j.covered,
    mid := s.nvm.owner, began := s.nvm.began, after := j.after, applied := false, cut := false }

/-- The open intent of the job in progress: what its DONE record repeats (R312). -/
def State.openIntent (s : State) (j : NvmJob) : Intent := (s.nvm.intents.find? (fun i => i.seq = s.nvm.cur)).getD (s.jobIntent j)

/-- The intents after f of the one in progress. -/
def State.modIntent (s : State) (f : Intent → Intent) : State :=
  { s with nvm := { s.nvm with intents := s.nvm.intents.map (fun i => if i.seq = s.nvm.cur then f i else i) } }

/-- Counter increments that wait, by counter ID (R299, R282, R315). Log entry 19. -/
def State.counterPend (s : State) (k : Fin 7) : Bool :=
  if k.val < 2 then s.flint.pend.getLsbD k.val
  else if k.val < 4 then s.fault.rpend.getLsbD (k.val - 2)
  else s.nvm.cpend.getLsbD k.val

/-- The increment of counter k waits no longer. -/
def State.counterClear (s : State) (k : Fin 7) : State :=
  if k.val < 2 then { s with flint := { s.flint with pend := s.flint.pend &&& ~~~(1#2 <<< k.val) } }
  else if k.val < 4 then { s with fault := { s.fault with rpend := s.fault.rpend &&& ~~~(1#2 <<< (k.val - 2)) } }
  else { s with nvm := { s.nvm with cpend := s.nvm.cpend &&& ~~~(1#7 <<< k.val) } }

/-- An increment of counter k waits. -/
def State.counterWant (s : State) (k : Fin 7) : State := { s with nvm := { s.nvm with cpend := s.nvm.cpend ||| (1#7 <<< k.val) } }

def counters : List (Fin 7) := [0, 1, 2, 3, 4, 5, 6]

/-- What is pending for the controller when it is idle: recovery, then the REJECTED marks of failed trials, then one counter
increment (R313, R317, R321). -/
def State.nvmNext (s : State) : State :=
  let s := if s.nvm.st = .recovering ∧ s.nvm.jobs = [] ∧ s.nvm.intents = [] ∧ !s.nvm.jtorn then { s with nvm := { s.nvm with st := .idle } } else s
  if !s.nvmFit || decide (s.nvm.jobs ≠ []) || decide (s.pow.k4) then s
  else if s.nvm.st = .recovering then s.owe 0 .intentRecovery
  else if s.nvm.st ≠ .idle then s
  else if s.nvm.rejectA then s.owe 0 (.markRejected (.thread 0) .bankA)
  else if s.nvm.rejectB then s.owe 0 (.markRejected (.thread 0) .bankB)
  else if counters.any (fun k => s.counterPend k) then s.owe 0 .counterIncrement
  else s

/-- The operation is over: the controller is idle, or recovers what is open. A key operation clears KEYDATA (R111). -/
def State.nvmStop (s : State) : State :=
  let s := { s with nvm := { s.nvm with jobs := [], st := if s.nvm.intents = [] then .idle else .recovering, stopAfter := none,
                                        redo := false, isKey := false, held := false },
                    slate := if s.nvm.isKey then { s.slate with kbusy := false, keydata := Vector.replicate 8 0 } else s.slate }
  s.nvmNext

/-- The first job of the list begins with its INTENT record. -/
def State.nvmBegin (s : State) : State :=
  match s.nvm.jobs with
  | [] => s.nvmStop
  | _ :: _ =>
    { s with nvm := { s.nvm with cur := s.nvm.iseq, iseq := s.nvm.iseq + 1, status := 0, units := 0, began := s.tick } }.nvmRecord false

/-- An operation starts: RATE is held, and the jobs run one after another (R308, R312). -/
def State.nvmStart (s : State) (m : Master) (jobs : List NvmJob) (key : Bool := false) : State :=
  { s with nvm := { s.nvm with st := .busy, res := 0, steps := 0, owner := mid m, rate := s.rate, jobs := jobs, stopAfter := none,
                               redo := false, isKey := key },
           slate := { s.slate with kbusy := key } }.nvmBegin

/-- KRES takes a code (R127): 0 DONE, 1 STATE, 2 RATE, 3 NVM_ERROR, 4 ABORTED, 5 TEMP. -/
def State.kres (s : State) (r : BitVec 3) : State := { s with slate := { s.slate with kres := r } }

/-- What the end of a verified body does beside its flash (R110, R315, R317, R319, R324, R409). -/
def State.nvmAfter (s : State) : NvmAfter → State
  | .plain => s
  | .keySet k key => { s with slate := { s.slate with keys := s.slate.keys.set k (.set key) } }
  | .keyRevoke k => { s with slate := { s.slate with keys := s.slate.keys.set k .revoked } }
  | .keyEraseAll => { s with slate := { s.slate with keys := Vector.replicate 8 .empty, authReq := false } }
  | .authReq => { s with slate := { s.slate with authReq := true } }
  | .count k => { s with nvm := { s.nvm with rcnt := s.nvm.rcnt.set k (satAdd s.nvm.rcnt[k] 1), cseq := s.nvm.cseq + 1 } }.counterClear k
  | .trial => s.counterWant 4
  | .confirmed => s.counterWant 6
  | .journal => { s with nvm := { s.nvm with jtorn := false } }
  | .append => { s with nvm := { s.nvm with sseq := s.nvm.sseq + 1 } }

/-- The effect of the open intent takes place, unless it has already (R313). -/
def State.applyIntent (s : State) (j : NvmJob) : State :=
  if (s.openIntent j).applied then s else (s.nvmAfter j.after).modIntent (fun i => { i with applied := true })

/-- The body of the job is done: its effect stands, and the DONE record follows; the erase of a journal sector has none (R312). A key
operation reports DONE (R127). -/
def State.bodyDone (s : State) (j : NvmJob) : State :=
  let s := if s.nvm.isKey then s.kres 0 else s
  if j.after = .journal then (s.nvmAfter j.after).nvmStop else (s.applyIntent j).nvmRecord true

/-- Flash of a bank has been erased or programmed: what its last check at a boot found says nothing of it now (R320). -/
def Nvm.rewritten (v : Nvm) (m : Member) (j : NvmJob) : Nvm :=
  if (j.kind = .erase ∨ j.kind = .program) ∧ j.target < m.nvmAt 0x18_0000 then
    (if j.target < m.nvmAt 0xC_0000 then { v with badA := false } else { v with badB := false })
  else v

/-- The body begins; an erase verifies its sector first (R308). -/
def State.bodyBegin (s : State) (j : NvmJob) : State :=
  let s := { s with nvm := { s.nvm with phase := .body, pulses := 0, units := 0 } }
  if j.kind = .erase ∨ j.kind = .keyErase then
    { s with nvm := { s.nvm with phase := .check, st := if s.nvm.redo then .recovering else .busy, sliceAt := s.tick + 1024 } }
  else s.nvmPulse

/-- Verify fails after the maximum count (R308): RES, ERRADDR, NVM_ERR; a body that failed gets a DONE record with FAILED. -/
def State.nvmFail (s : State) (addr : Nat) (jobs : List NvmJob) : State :=
  let s := { s with nvm := { s.nvm with erraddr := BitVec.ofNat 21 addr } }.nvmRes .verify
  let s := s.raiseBy 0x20 .nvm 0 0 0
  let s := if s.nvm.isKey then s.kres 3 else s
  if s.nvm.phase = .body ∧ jobs.head?.map NvmJob.after ≠ some .journal then
    { s with nvm := { s.nvm with status := 3, jobs := jobs.take 1 } }.nvmRecord true
  else ({ s with nvm := { s.nvm with jtorn := false } } : State).nvmStop

/-- A journal slot whose program was cut is not blank and its CHECK fails: it is ignored, and the next record goes behind it (R312). -/
def State.journalTear (s : State) : State :=
  let a := s.journalSlot
  let s := { s with nvm := { s.nvm with jpos := (s.nvm.jpos + 1) % s.member.nvmAt 2048 } }
  s.tear a 32

/-- Bytes that an erase of this kind clears: a sector, or what the model keeps for a key slot (R305, log entry 30). -/
def State.eraseLen (s : State) (k : NvmKind) : Nat := if k = .keyErase then s.member.nvmAt 4096 else 4096

/-- A pulse with its verify has ended (R308). Log entry 20. -/
def State.sliceDone (s : State) (verified : Bool) (j : NvmJob) (rest : List NvmJob) : State :=
  let v := s.nvm
  let s := { s with nvm := { v with steps := satAdd v.steps 1, pulses := v.pulses + 1 } }
  match v.phase with
  | .journalErase fd =>
    let a := s.journalNext
    if verified then
      { s with nvm := { s.nvm.eraseRange a 4096 with phase := if fd then .done else .intent, pulses := 0, jtorn := false } }.nvmPulse
    else if 40 ≤ v.pulses + 1 then s.nvmFail a (j :: rest) else s.nvmPulse
  | .intent =>
    if verified then
      let i := s.jobIntent j
      let s := s.journalPut false i
      { s with nvm := { s.nvm with intents := s.nvm.intents ++ [i] } }.bodyBegin j
    else if 12 ≤ v.pulses + 1 then s.journalTear.nvmFail s.journalSlot (j :: rest) else s.nvmPulse
  | .body =>
    if j.kind = .erase ∨ j.kind = .keyErase then
      if verified then { s with nvm := (s.nvm.eraseRange j.target (s.eraseLen j.kind)).rewritten s.member j }.bodyDone j
      else if 40 ≤ v.pulses + 1 then (s.tear j.target (s.eraseLen j.kind)).nvmFail j.target (j :: rest) else s.nvmPulse
    else
      let a := j.target + 32 * v.units
      if verified then
        let s := { s with nvm := { s.nvm.rewritten s.member j with
                                    mem := flashPut s.nvm.mem a ((j.data.drop (32 * v.units)).take 32), units := v.units + 1,
                                    pulses := 0 } }
        if j.data.length ≤ 32 * (v.units + 1) then s.bodyDone j else s.nvmPulse
      else if 12 ≤ v.pulses + 1 then (s.tear a 32).nvmFail a (j :: rest) else s.nvmPulse
  | .check => s
  | .image _ => s
  | .done =>
    if verified then
      let s := s.journalPut true (s.openIntent j)
      { s with nvm := { s.nvm with intents := s.nvm.intents.filter (fun i => i.seq ≠ v.cur), jobs := rest, redo := false } }.nvmBegin
    else if 12 ≤ v.pulses + 1 then s.journalTear.nvmFail s.journalSlot (j :: rest) else s.nvmPulse

/-- The operation in progress is cut: what a pulse was changing, or has changed without being verified, is undefined, and the intent
stays open (R310). byReset: a reset cuts it; step: in a step. -/
def State.nvmCut (s : State) (byReset step : Bool) : State :=
  match s.nvm.jobs with
  | [] => s
  | j :: _ =>
    let s := if byReset && decide (j.after ≠ NvmAfter.journal) then s.modIntent (fun i => { i with cut := true }) else s
    let s := if !step && decide (s.nvm.pulses = 0) then s else match s.nvm.phase with
      | .body =>
        let s := if j.kind = NvmKind.erase ∨ j.kind = NvmKind.keyErase then s.tear j.target (s.eraseLen j.kind) else s.tear (j.target + 32 * s.nvm.units) 32
        if j.after = NvmAfter.journal then { s with nvm := { s.nvm with jtorn := true } } else s
      | .journalErase _ =>
        let s := s.tear s.journalNext 4096
        { s with nvm := { s.nvm with jtorn := true } }
      | .intent => s.journalTear
      | .done => s.journalTear
      | .check => s
      | .image _ => s
    s.nvmStop

/-- The DONE record of the operation is being made. -/
def Nvm.closing (v : Nvm) : Bool := match v.phase with | .done => true | .journalErase d => d | _ => false

/-- The target's content is undefined (R310). -/
def State.tearTarget (s : State) (j : NvmJob) : State :=
  if j.kind = .erase ∨ j.kind = .keyErase then s.tear j.target (s.eraseLen j.kind) else s.tear j.target j.data.length

/-- An operation stops at the end of a slice (R310, R301): ABORT closes its intent with ABANDONED, a reclaim leaves it open. -/
def State.nvmStopAt (s : State) (r : BitVec 5) : State :=
  match s.nvm.jobs with
  | [] => s
  | j :: _ =>
    let s := { s with nvm := { s.nvm with res := r, stopAfter := none } }
    let s := if s.nvm.isKey then s.kres 4 else s
    if r = NvmRes.code .reclaimed then (s.raiseBy 0x21 .nvm 0 ((Config.abortKind 1)) 0).nvmCut false false
    else if j.after = .journal then s.nvmCut false false
    else
      let w := { s with nvm := { s.nvm with status := 2, jobs := [j] } }
      if s.nvm.closing then w.tearTarget j
      else match s.nvm.phase with
        | .body => (w.tearTarget j).nvmRecord true
        | .check => w.nvmRecord true
        | _ => s.nvmStop

/-- A step is in progress (R310): a slice, or the first verify of an erase. -/
def State.stepping (s : State) : Bool :=
  decide (s.nvm.jobs ≠ []) && !s.nvm.held && (decide (s.nvm.st = .busy) || decide (s.nvm.st = .recovering)) &&
  (match s.nvm.phase with | .image _ => false | _ => true)

/-- A slice is in progress, a pulse with its verify (R281, R308, R354). -/
def State.slicing (s : State) : Bool := s.stepping && decide (s.nvm.phase ≠ .check)

/-- SLICE_END (R308): the environment says whether the verify passed; none ends before its time. Log entry 38. -/
def execSliceEnd (verified : Bool) (s : State) : Host.Outcome State Fault Refusal :=
  s.act fun s =>
    if !s.slicing || decide (s.tick < s.nvm.sliceAt) then s
    else match s.nvm.jobs with
      | [] => s
      | j :: rest =>
        let stop := s.nvm.stopAfter
        let key := s.nvm.isKey
        let s := s.sliceDone verified j rest
        let s := match stop with
          | some r =>
            if s.nvm.jobs ≠ [] then s.nvmStopAt r
            else if r = NvmRes.code .aborted then
              (let s := { s with nvm := { s.nvm with res := r } }
               if key then s.kres 4 else s)
            else s
          | none => s
        let s := if s.flint.resetDue && !s.due.any (fun e => decide (e.2 = Instr.flintReset)) then s.owe 1 .flintReset else s
        if s.pow.k2due && !s.due.any (fun e => decide (e.2 = Instr.softReset)) then s.owe 1 .softReset else s

/-- The first verify of an erase, or the check of an image, ends on its tick: a blank sector costs only that verify (R308), and a
bad image is refused (R319). -/
def State.nvmTick (s : State) : State :=
  if s.tick < s.nvm.sliceAt ∨ ¬(s.nvm.st = .busy ∨ s.nvm.st = .recovering) then s
  else match s.nvm.phase, s.nvm.jobs with
    | .check, j :: _ =>
      if s.blank j.target 4096 then s.bodyDone j else ({ s with nvm := { s.nvm with phase := .body } } : State).nvmPulse
    | .image b, _ :: _ =>
      if s.imageOk b then s.nvmBegin else ({ s with nvm := { s.nvm with jobs := [], st := .idle } }.nvmRes .badImg).nvmNext
    | _, _ => s

/-- NVM_ABORT_CMD (R310): where no slice is in progress, the operation stops at once; a DONE record that is being made says ABANDONED
too. -/
def State.nvmAbort (s : State) : State :=
  if s.nvm.jobs = [] then s
  else if !s.slicing then s.nvmStopAt (NvmRes.code .aborted)
  else { s with nvm := { s.nvm with stopAfter := some (NvmRes.code .aborted), status := if s.nvm.closing then 2 else s.nvm.status } }

def execNvmAbortCmd (m : Master) (s : State) : Host.Outcome State Fault Refusal :=
  s.act fun s => s.nvmCmd m 0x7000 State.nvmAbort

/-- A reclaim stops the operation at the end of its slice (R301, R310). -/
def State.nvmReclaim (s : State) : State :=
  if s.nvm.jobs = [] then s
  else if !s.slicing then s.nvmStopAt (NvmRes.code .reclaimed)
  else { s with nvm := { s.nvm with stopAfter := some (NvmRes.code .reclaimed) } }

/-- HCK ran again after a stop that cut a step (R18, R310), or a key operation that was in progress (R111). -/
def State.nvmResume (s : State) : State :=
  if s.stepping || (s.nvm.isKey && decide (s.nvm.jobs ≠ [])) then
    let step := s.stepping
    let s := s.nvmRes .abortStill
    let s := if s.nvm.isKey then s.kres 4 else s
    (s.raiseBy 0x21 .nvm 0 (Config.abortKind 0) 0).nvmCut false step
  else s

/-- A write of STEP.TICKS (R311): the pulse starts on the next tick, its length clamped to 1 .. floor(1.25 HWSTEP). Outside STEP_WAIT
nothing waits for it (DESIGN CHOICE, log entry 68). -/
def State.nvmStepWrite (s : State) (m : Master) (w : Word) : State :=
  let top := s.nvm.hwstep.toNat * 5 / 4
  if s.nvm.st = .stepWait then
    (if w.toNat < 1 ∨ top < w.toNat then s.clamped m 1 else s).nvmSlice 1 (max 1 (min top w.toNat))
  else s

/-- NVM_STEP (R311). -/
def execNvmStep (m : Master) (ticks : Word) (s : State) : Host.Outcome State Fault Refusal :=
  s.act fun s => s.nvmCmd m 0x7010 (fun s => s.nvmStepWrite m ticks)

/-! ## Erase and program -/

/-- Offset of NVM.ADDR. -/
def Nvm.offset (v : Nvm) : Nat := 4 * v.addr.toNat

/-- A master may erase or program at this offset: a bank that is not the active one, or the trim region in factory test mode
(R305, R322, R409). -/
def State.nvmOpen (s : State) (o : Nat) : Bool :=
  if o < s.member.nvmAt 0xC_0000 then !(s.nvm.booted && decide (s.nvm.active = .bankA))
  else if o < s.member.nvmAt 0x18_0000 then !(s.nvm.booted && decide (s.nvm.active = .bankB))
  else decide (s.member.nvmAt 0x1D_0000 ≤ o ∧ o < s.member.nvmAt 0x1E_0000) && s.pow.ftm

/-- The operation starts, or the first refusal of the list stands. -/
def State.nvmTry (s : State) (m : Master) (l : List (Bool × NvmRes)) (jobs : List NvmJob) : State :=
  match s.nvmRefusal with
  | some r => s.nvmRes r
  | none =>
    match l.find? (fun e => e.1) with
    | some e => s.nvmRes e.2
    | none => s.nvmStart m jobs

/-- CMD ERASE. -/
def State.nvmErase (s : State) (m : Master) : State :=
  let o := s.nvm.offset
  s.nvmTry m [(!s.nvmOpen o || decide (s.member.nvmBytes ≤ o), .prot), (decide (o % 4096 ≠ 0), .align)]
    [{ kind := .erase, target := o, data := [], after := .plain }]

/-- NVM_ERASE (R308, R309). -/
def execNvmErase (m : Master) (s : State) : Host.Outcome State Fault Refusal :=
  s.act fun s => s.nvmCmd m 0x7000 (fun s => s.nvmErase m)

/-- Units of a PROGRAM: 1-8, and no further than the page (R327). -/
def unitsOf (o units : Nat) : Nat := min (max 1 (min 8 units)) (8 - o % 256 / 32)

/-- CMD PROGRAM: data from PBUF word 0. -/
def State.nvmProgram (s : State) (m : Master) (units : BitVec 4) : State :=
  let o := s.nvm.offset
  let k := unitsOf o units.toNat
  let s := if k ≠ units.toNat then s.clamped m 1 else s
  s.nvmTry m [(!s.nvmOpen o || decide (s.member.nvmBytes ≤ o), .prot), (decide (o % 32 ≠ 0), .align), (!s.blank o (32 * k), .notBlank)]
    [{ kind := .program, target := o, data := wordsBytes (s.nvm.pbuf.toList.take (8 * k)), after := .plain }]

/-- NVM_PROGRAM (R306, R309). -/
def execNvmProgram (m : Master) (units : BitVec 4) (s : State) : Host.Outcome State Fault Refusal :=
  s.act fun s => s.nvmCmd m 0x7000 (fun s => s.nvmProgram m units)

/-! ## Marks -/

/-- Data of a unit: the words given, the rest erased. -/
def unitBytes (l : List Word) : List Byte := wordsBytes (l ++ List.replicate (8 - l.length) 0xFFFFFFFF)

/-- The job that programs mark k of a bank. -/
def markJob (mb : Member) (b : Bank) (k : Nat) (l : List Word) (after : NvmAfter) : NvmJob :=
  { kind := .mark, target := markAt mb b k, data := unitBytes l, after := after }

/-- Content of a TRIAL, CONFIRMED or REJECTED mark: a free value that is not fully erased (log entry 30). -/
def State.markFree (s : State) : List Word := [Config.unstated s.free &&& 0x7FFFFFFF]

/-- CMD MARK WRITTEN (R319, R322). -/
def State.markWritten (s : State) (m : Master) (b : Bank) : State :=
  let len := (s.img b 2).toNat
  let o := otherBank b
  let mig := decide (s.bankSt o = 4) && decide (s.bankSchema o ≠ s.bankSchema b)
  let job := markJob s.member b 0 [s.img b 3, s.img b (len - 1), s.nvm.sseq, if mig then 1 else 0] .plain
  match s.nvmRefusal with
  | some r => s.nvmRes r
  | none =>
    if s.nvm.booted ∧ s.nvm.active = b then s.nvmRes .prot
    else if s.marked b 0 then s.nvmRes .notBlank
    else { s with nvm := { s.nvm with st := .busy, res := 0, steps := 0, owner := mid m, rate := s.rate, jobs := [job], stopAfter := none,
                                      redo := false, isKey := false, phase := .image b,
                                      sliceAt := s.tick + BitVec.ofNat 64 (s.imageTk b) } }

/-- MARK_WRITTEN (R319). -/
def execMarkWritten (m : Master) (b : Bank) (s : State) : Host.Outcome State Fault Refusal :=
  s.act fun s => s.nvmCmd m 0x7000 (fun s => s.markWritten m b)

/-- CMD MARK TRIAL: context 0 executing from the boot ROM (R319). -/
def State.markTrial (s : State) (m : Master) (b : Bank) : State :=
  if m = .thread 0 ∧ s.inRom 0 then (s.nvmTry m [(s.marked b 1, .notBlank)] [markJob s.member b 1 s.markFree .trial]).freed
  else (s.accFault .master m 2 0x7000).nvmRes .priv

/-- MARK_TRIAL (R319). -/
def execMarkTrial (m : Master) (b : Bank) (s : State) : Host.Outcome State Fault Refusal :=
  s.act fun s => (s.settle (.markTrial m b)).nvmCmd m 0x7000 (fun s => s.markTrial m b)

/-- CMD MARK CONFIRMED: the booted bank, while it is TRIAL (R319). -/
def State.markConfirmed (s : State) (m : Master) (b : Bank) : State :=
  (s.nvmTry m [(!(s.nvm.booted && decide (s.nvm.active = b) && decide (s.bankSt b = 3)), .prot), (s.marked b 2, .notBlank)]
    [markJob s.member b 2 s.markFree .confirmed]).freed

/-- MARK_CONFIRMED (R319). -/
def execMarkConfirmed (m : Master) (b : Bank) (s : State) : Host.Outcome State Fault Refusal :=
  s.act fun s => s.nvmCmd m 0x7000 (fun s => s.markConfirmed m b)

/-- CMD MARK REJECTED: either bank (R319). The boot code's own wish for it is served (R321). -/
def State.markRejected (s : State) (m : Master) (b : Bank) : State :=
  let s := match b with
    | .bankA => { s with nvm := { s.nvm with rejectA := s.nvm.rejectA && s.nvmRefusal.isSome } }
    | .bankB => { s with nvm := { s.nvm with rejectB := s.nvm.rejectB && s.nvmRefusal.isSome } }
  (s.nvmTry m [(s.marked b 3, .notBlank)] [markJob s.member b 3 s.markFree .plain]).freed

/-- MARK_REJECTED (R319). -/
def execMarkRejected (m : Master) (b : Bank) (s : State) : Host.Outcome State Fault Refusal :=
  s.act fun s => (s.settle (.markRejected m b)).nvmCmd m 0x7000 (fun s => s.markRejected m b)

/-! ## Settings -/

/-- What a scan finds reads 0 from a K4 reset until it ends (R313, R327, R411; DEDUCED, log entry 74). -/
def State.found (s : State) (w : Word) : Word := if s.nvm.scanned then w else 0

/-- Blank settings sectors (R324). -/
def State.sjFree (s : State) : Nat := ((List.range (s.member.nvmAt 64)).filter (fun k => s.blank (s.member.nvmAt 0x18_0000 + 4096 * k) 4096)).length

/-- The words of a settings record, padded to whole units (R323). -/
def settingsWords (key schema : BitVec 16) (seq : Word) (data : List Word) : List Word :=
  let w : List Word := [BitVec.ofNat 32 (0x5300_0000 + data.length * 2 ^ 16 + key.toNat), (schema ++ 0xFFFF#16 : BitVec 32), seq] ++ data
  let w := w ++ [crc32c w]
  w ++ List.replicate ((8 - w.length % 8) % 8) 0xFFFFFFFF

/-- Where a record of this many bytes goes: in the rest of the page, or on the next page (R324). -/
def settingsPlace (m : Member) (pos len : Nat) : Nat := if len ≤ 256 - pos % 256 then pos else (pos / 256 + 1) * 256 % m.nvmAt 0x4_0000

/-- The job that appends a record, and the position behind it. -/
def settingsJob (m : Member) (pos : Nat) (w : List Word) : NvmJob × Nat :=
  let p := settingsPlace m pos (4 * w.length)
  ({ kind := .program, target := m.nvmAt 0x18_0000 + p, data := wordsBytes w, after := .append }, (p + 4 * w.length) % m.nvmAt 0x4_0000)

/-- CMD APPEND (R324). -/
def State.nvmAppend (s : State) (m : Master) : State :=
  let len := min 60 s.nvm.slen.toNat
  let (j, p) := settingsJob s.member s.nvm.spos (settingsWords s.nvm.skey s.slate.schema s.nvm.sseq (s.nvm.pbuf.toList.take len))
  let bad := !s.slate.committed
  let full := decide (s.sjFree < 2)
  let go := s.nvmRefusal.isNone && !bad && !full
  let s := s.nvmTry m [(bad, .noSlate), (full, .full)] [j]
  if go then { s with nvm := { s.nvm with spos := p } } else s

/-- NVM_APPEND (R324). -/
def execNvmAppend (m : Master) (s : State) : Host.Outcome State Fault Refusal :=
  s.act fun s => s.nvmCmd m 0x7000 (fun s => s.nvmAppend m)

/-- A settings record found in the journal. -/
structure Setting where
  key : BitVec 16
  schema : BitVec 16
  seq : Word
  data : List Word
  deriving DecidableEq, Repr

/-- The valid record at an offset and its length in units, if there is one (R323). -/
def State.settingAt (s : State) (o : Nat) : Option (Setting × Nat) :=
  let w0 := s.flashWord o
  let len := fld w0 16 8
  if fld w0 24 8 = 0x53 ∧ len ≤ 60 ∧ crc32c (s.flashWords o (len + 3)) = s.flashWord (o + 4 * (len + 3)) then
    some ({ key := w0.extractLsb' 0 16, schema := (s.flashWord (o + 4)).extractLsb' 16 16, seq := s.flashWord (o + 8),
            data := s.flashWords (o + 12) len }, (len + 4 + 7) / 8)
  else none

/-- The valid records from an offset on, over k units. -/
def State.settingsFrom (s : State) : Nat → Nat → Nat → List Setting
  | 0, _, _ => []
  | k + 1, skip, o =>
    if skip ≠ 0 then s.settingsFrom k (skip - 1) (o + 32)
    else match s.settingAt o with
      | some (r, u) => r :: s.settingsFrom k (u - 1) (o + 32)
      | none => s.settingsFrom k 0 (o + 32)

/-- A schema is live while a bank in READY, TRIAL or GOOD has it (R326). -/
def State.live (s : State) (sch : BitVec 16) : Bool :=
  [Bank.bankA, Bank.bankB].any (fun b => decide (2 ≤ s.bankSt b ∧ s.bankSt b ≤ 4) && decide (s.bankSchema b = sch))

/-- A record of before a migration never counts (R326). -/
def State.migratedAway (s : State) (r : Setting) : Bool :=
  [Bank.bankA, Bank.bankB].any (fun b => decide (s.bankSchema b = r.schema) && s.mig b && decide (r.seq.toNat < (s.wseq b).toNat))

/-- The record is the newest of its KEY under a live schema (R326). -/
def State.kept (s : State) (all : List Setting) (r : Setting) : Bool :=
  s.live r.schema && !s.migratedAway r &&
  all.all (fun q => !(decide (q.key = r.key) && decide (q.schema = r.schema) && decide (r.seq.toNat < q.seq.toNat)) || s.migratedAway q)

/-- A record goes before those with a larger SEQ. -/
def insertSeq (r : Setting) : List Setting → List Setting
  | [] => [r]
  | x :: l => if r.seq.toNat < x.seq.toNat then r :: x :: l else x :: insertSeq r l

/-- Jobs that append copies, each with the next SEQ. -/
def copyJobs (m : Member) (seq : Word) : Nat → List Setting → List NvmJob × Nat
  | pos, [] => ([], pos)
  | pos, r :: l =>
    let (j, p) := settingsJob m pos (settingsWords r.key r.schema seq r.data)
    let (js, q) := copyJobs m (seq + 1) p l
    (j :: js, q)

/-- The oldest sector of the ring that is not blank, after the one that is being written (R326). -/
def State.oldest (s : State) : Option Nat :=
  let c := s.nvm.spos / 4096
  ((List.range (s.member.nvmAt 64)).map (fun k => (c + 1 + k) % s.member.nvmAt 64)).find?
    (fun k => !s.blank (s.member.nvmAt 0x18_0000 + 4096 * k) 4096)

/-- CMD COMPACT (R326). -/
def State.nvmCompact (s : State) (m : Master) : State :=
  let full := decide (s.sjFree < 1)
  match s.oldest with
  | none => s.nvmTry m [(full, .full)] []
  | some k =>
    let a := s.member.nvmAt 0x18_0000 + 4096 * k
    let pos := if k = s.nvm.spos / 4096 then (k + 1) % s.member.nvmAt 64 * 4096 else s.nvm.spos
    let all := s.settingsFrom (s.member.nvmAt 8192) 0 (s.member.nvmAt 0x18_0000)
    let keep := ((s.settingsFrom 128 0 a).filter (fun r => s.kept all r)).foldl (fun l r => insertSeq r l) []
    let (js, p) := copyJobs s.member s.nvm.sseq pos keep
    let go := s.nvmRefusal.isNone && !full
    let s := s.nvmTry m [(full, .full)] (js ++ [{ kind := .erase, target := a, data := [], after := .plain }])
    if go then { s with nvm := { s.nvm with spos := p } } else s

/-- NVM_COMPACT (R326). -/
def execNvmCompact (m : Master) (s : State) : Host.Outcome State Fault Refusal :=
  s.act fun s => s.nvmCmd m 0x7000 (fun s => s.nvmCompact m)

/-! ## Recovery and counters -/

/-- SCAN_DONE (R313): STAT.OPEN shows the open intents. -/
def execScanDone (s : State) : Host.Outcome State Fault Refusal :=
  s.act fun s =>
    let s := s.settle .scanDone
    if s.nvm.st = .scan then
      { s with nvm := { s.nvm with scanned := true, st := if s.nvm.intents = [] ∧ !s.nvm.jtorn then .idle else .recovering } }.nvmNext
    else s

/-- A record that a reset has torn is ignored: the increment of a counter is lost (R317). -/
def State.nvmTorn (s : State) (i : Intent) : State :=
  match i.after with
  | .count k => if i.cut then s.counterClear k else s
  | _ => s

/-- The torn sector of the intent journal is erased, before recovery (R314). -/
def State.journalClean (s : State) : State :=
  let job : NvmJob := { kind := .erase, target := s.journalNext, data := [], after := .journal }
  { s with nvm := { s.nvm with owner := mid .nvm, rate := s.rate, redo := true, steps := 0, stopAfter := none, jobs := [job] } }.bodyBegin job

/-- The open intent with the lowest SEQ is closed (R313). -/
def State.recover (s : State) : State :=
  if s.nvm.jtorn then s.journalClean else
  match s.nvm.intents with
  | [] => s.nvmNext
  | i :: _ =>
    let s := { s with nvm := { s.nvm with res := s.nvm.res, owner := i.mid, began := i.began, rate := s.rate, cur := i.seq, redo := true, steps := 0, units := 0,
                                          pulses := 0, stopAfter := none } }
    let ok := decide (crc32cBytes (s.flashBytes i.target i.len) = i.dcrc)
    let job : NvmJob := { kind := i.kind, target := i.target, data := s.flashBytes i.target i.len, after := i.after }
    match i.kind with
    | .erase => { s with nvm := { s.nvm with jobs := [{ job with data := [] }], status := 0 } }.bodyBegin { job with data := [] }
    | .keyErase => { s with nvm := { s.nvm with jobs := [{ job with data := [] }], status := 0 } }.bodyBegin { job with data := [] }
    | .key =>
      if ok then ({ s with nvm := { s.nvm with jobs := [job], status := 0 } }.applyIntent job).nvmRecord true
      else
        let s := { s with nvm := { s.nvm with jobs := job :: (match i.after with
          | .keySet k _ => [{ kind := .keyErase, target := i.target, data := [], after := .keyRevoke k }] | _ => []), status := 1 } }
        (match i.after with | .authReq => { s with slate := { s.slate with authReq := true } } | _ => s).nvmRecord true
    | _ =>
      let s := { s with nvm := { s.nvm with jobs := [job], status := if ok then 0 else 1 } }
      (if ok then s.applyIntent job else s.nvmTorn i).nvmRecord true

/-- INTENT_RECOVERY (R313). -/
def execIntentRecovery (s : State) : Host.Outcome State Fault Refusal :=
  s.act fun s =>
    let s := s.settle .intentRecovery
    if s.nvm.st = .recovering ∧ s.nvm.jobs = [] ∧ s.nvmFit then s.recover else s

/-- The words of a retained-counter record: ID, value, sequence number and CRC (R316, log entry 30). -/
def counterWords (k : Fin 7) (v seq : Word) : List Word :=
  let w : List Word := [BitVec.ofNat 32 k.val, v, seq, 0xFFFFFFFF, 0xFFFFFFFF, 0xFFFFFFFF, 0xFFFFFFFF]
  w ++ [crc32c w]

/-- Jobs of one counter record: where a sector has filled, a snapshot goes in front of it in the next one and the oldest sector is
erased behind it (R316). The two records of a snapshot hold the seven values. -/
def State.counterJobs (s : State) (k : Fin 7) : List NvmJob × Nat :=
  let v := satAdd s.nvm.rcnt[k] 1
  let p := s.nvm.cpos
  let prog (pos : Nat) (w : List Word) (a : NvmAfter) : NvmJob :=
    { kind := .program, target := s.member.nvmAt 0x1C_0000 + 32 * pos, data := wordsBytes w, after := a }
  if p % 128 = 0 ∧ !s.blank (s.member.nvmAt 0x1C_0000 + 32 * ((p + s.member.nvmAt 2048 - 1) % s.member.nvmAt 2048)) 32 then
    let l := s.nvm.rcnt.toList
    let a : List Word := 0xFFFF0000 :: s.nvm.cseq :: l.take 5
    let b : List Word := 0xFFFF0001 :: s.nvm.cseq :: l.drop 5 ++ [0xFFFFFFFF, 0xFFFFFFFF, 0xFFFFFFFF]
    ([prog p (a ++ [crc32c a]) .plain, prog (p + 1) (b ++ [crc32c b]) .plain, prog (p + 2) (counterWords k v s.nvm.cseq) (.count k),
      { kind := .erase, target := s.member.nvmAt 0x1C_0000 + 4096 * ((p / 128 + 1) % s.member.nvmAt 16), data := [], after := .plain }], (p + 3) % s.member.nvmAt 2048)
  else ([prog p (counterWords k v s.nvm.cseq) (.count k)], (p + 1) % s.member.nvmAt 2048)

/-- COUNTER_INCREMENT (R282, R299, R316, R317): the lowest counter ID that waits. -/
def execCounterIncrement (s : State) : Host.Outcome State Fault Refusal :=
  s.act fun s =>
    let s := s.settle .counterIncrement
    if s.nvm.st = .idle ∧ s.nvmFit then
      match counters.find? (fun k => s.counterPend k) with
      | none => s
      | some k =>
        let (js, p) := s.counterJobs k
        { s.nvmStart .nvm js with nvm := { (s.nvmStart .nvm js).nvm with cpos := p } }
    else s

/-! ## Key operations -/

/-- Where the model keeps a key slot and the lock word in the key-slot region (log entry 30). -/
def keyAt (m : Member) (k : Fin 8) : Nat := m.nvmAt 0x1F_0000 + m.nvmAt 4096 * k.val
def lockAt (m : Member) : Nat := m.nvmAt 0x1F_8000

/-- KEYDATA is cleared at the end of every operation, a refused one included (R111). -/
def State.keyRefuse (s : State) (r : BitVec 3) : State := { s with slate := { s.slate with kres := r, keydata := Vector.replicate 8 0 } }

/-- A key operation: only the link may ask for it; a low rate and a hot die refuse it whatever else holds, and it runs under the
preconditions of R309 (R110, R111). Log entry 42. -/
def State.keyOp (s : State) (m : Master) (ok : Bool) (jobs : List NvmJob) : State :=
  s.linkOnly m 0x1030 (fun s =>
    if s.rate.toNat < 50000 then s.keyRefuse 2
    else if s.pow.above115 then s.keyRefuse 5
    else if s.nvmRefusal.isSome || !ok then s.keyRefuse 1
    else if jobs.isEmpty then s.keyRefuse 0
    else s.nvmStart m jobs true)

/-- KCMD PROGRAM. -/
def State.keyProgram (s : State) (m : Master) (k : Fin 8) : State :=
  let key := s.slate.keydata.toList
  s.keyOp m (decide (s.slate.keys[k] = .empty)) [{ kind := .key, target := keyAt s.member k, data := wordsBytes key, after := .keySet k key }]

/-- KCMD REVOKE. -/
def State.keyRevoke (s : State) (m : Master) (k : Fin 8) : State :=
  let ok := match s.slate.keys[k] with | .set _ => true | _ => false
  s.keyOp m ok [{ kind := .keyErase, target := keyAt s.member k, data := [], after := .keyRevoke k }]

/-- KCMD SET_AUTH_REQ; a lock word that is set already is not programmed again. -/
def State.setAuthReq (s : State) (m : Master) : State :=
  if s.slate.authReq then s.keyOp m true []
  else s.keyOp m true [{ kind := .key, target := lockAt s.member, data := unitBytes s.markFree, after := .authReq }]

/-- KCMD ERASE_ALL, in factory test mode (R409). -/
def State.keyEraseAll (s : State) (m : Master) : State :=
  let jobs : List NvmJob := ([0, 1, 2, 3, 4, 5, 6, 7] : List (Fin 8)).map (fun k =>
    { kind := .keyErase, target := keyAt s.member k, data := [], after := .plain })
  s.keyOp m true (jobs ++ [{ kind := .keyErase, target := lockAt s.member, data := [], after := .keyEraseAll }])

/-- KEY_PROGRAM (R110). -/
def execKeyProgram (m : Master) (k : Fin 8) (s : State) : Host.Outcome State Fault Refusal := s.act fun s => s.keyProgram m k

/-- KEY_REVOKE (R110). -/
def execKeyRevoke (m : Master) (k : Fin 8) (s : State) : Host.Outcome State Fault Refusal := s.act fun s => s.keyRevoke m k

/-- SET_AUTH_REQ (R110). -/
def execSetAuthReq (m : Master) (s : State) : Host.Outcome State Fault Refusal := s.act fun s => s.setAuthReq m

/-- KEY_ERASE_ALL (R409): outside factory test mode the code is reserved and falls back to NONE (R110). -/
def execKeyEraseAll (m : Master) (s : State) : Host.Outcome State Fault Refusal :=
  s.act fun s => if s.pow.ftm then s.keyEraseAll m else s.linkOnly m 0x1030 (fun s => s.clamped m 1)

end Sys2Proof.Machine
end

