-- ==== Sys2Proof/Machine/SlateFields.lean ====
section
/-! DEFINITION. The slate-written fields of every register, with their clamps (R12, R61, R107, R116, R155, R189, R197, R207,
R235, R262, R263, R285-R287, R291, R304, R327, R348). -/

namespace Sys2Proof.Machine

/-- A slate-written field: its place, and the value that a written number takes. -/
structure SField where
  lo : Nat
  len : Nat
  clamp : Nat → Nat

/-- A field without an illegal value. -/
def plainF (lo len : Nat) : SField := { lo := lo, len := len, clamp := fun v => v }

/-- Nearest legal value of a range. -/
def nearF (lo len a b : Nat) : SField := { lo := lo, len := len, clamp := fun v => max a (min b v) }

/-- Codes above the top fall back to a code. -/
def codeF (lo len top fb : Nat) : SField := { lo := lo, len := len, clamp := fun v => if v ≤ top then v else fb }

/-- A field that a condition clamps to a value. -/
def onlyF (lo len : Nat) (ok : Bool) (fb : Nat) : SField := { lo := lo, len := len, clamp := fun v => if ok then v else fb }

/-- Nearest of a signed range. -/
def signF (a b : Int) : SField :=
  { lo := 0, len := 32, clamp := fun v => (BitVec.ofInt 32 (clampInt a b (BitVec.ofNat 32 v).toInt)).toNat }

/-- The word of the fields after their clamps, and the number of clamps. -/
def takeFields (fs : List SField) (w : Word) : Word × Nat :=
  fs.foldl (fun (a : Word × Nat) (f : SField) =>
    let v := fld w f.lo f.len
    let c := f.clamp v
    (a.1 + BitVec.ofNat 32 (c <<< f.lo), a.2 + b2n (decide (c ≠ v)))) (0, 0)

/-! ## Islands -/

/-- CFG.HART may be 1: on AI_I only with the external burden (R61, R181). -/
def hartOk (w : Word) : Bool := (persOf w).hart && !(decide (persOf w = .aiI) && !w.getLsbD 17)

/-- ISL[n].CFG: the common fields and those of the personality (R61, R155, R181, R189). -/
def cfgFields (w : Word) : List SField :=
  let p := persOf w
  [codeF 0 4 10 0, onlyF 4 1 (hartOk w) 0] ++
  (if p.digIn then
     [onlyF 5 1 (decide (p ≠ .diWb)) 1, plainF 6 1, plainF 7 2, plainF 9 1, plainF 10 1, onlyF 11 1 (decide (p = .diWb)) 0, plainF 16 12]
   else if p.digOut then [plainF 5 1, plainF 8 4, nearF 16 10 0 976]
   else if p.analog then
     [plainF 15 1, onlyF 16 1 (decide (p = .aiRtd)) 0, onlyF 17 1 (decide (p = .aiI)) 0, onlyF 18 1 (decide (p = .aiI)) 0, plainF 19 1,
      onlyF 20 1 (hartOk w && w.getLsbD 4) 0, plainF 21 1, plainF 22 1, onlyF 23 1 p.hart 0, plainF 24 4, plainF 28 2]
   else [])

/-- Top of the raw-code range of an output; every code of another personality is legal. -/
def rawTop (p : Pers) : Nat := if p.anaOut then aoTop p else 0xFFFF

/-- SAFE codes of a personality (R264). -/
def safeTop (p : Pers) : Nat := if p = .aoI then 4 else 2

/-- The one legal input of a PRIMARY entry (R196, R197). -/
def primaryMux (cfg : Word) : Option Nat :=
  match persOf cfg with
  | .di => some 6
  | .diWb => some 7
  | .dO => some 5
  | .doPwm => some 5
  | .aiI => some (if cfg.getLsbD 17 then 4 else 3)
  | .aiV => some 0
  | .aiRtd => some (if cfg.getLsbD 16 then 1 else 0)
  | .aoI => some 5
  | .aoV => some 1
  | _ => none

/-- ROLE of a sequence entry after its clamps (R197, R207). -/
def roleOf (cfg : Word) (inj : Bool) (v : Nat) : Nat :=
  if inj then 0
  else if v = 3 then 0
  else if v = 2 ∧ !(decide (persOf cfg = .aiRtd) && cfg.getLsbD 16) then 0
  else v

/-- MUX of a sequence entry after its clamps (R191, R197). -/
def muxOf (cfg : Word) (role v : Nat) : Nat :=
  match role with
  | 1 => (primaryMux cfg).getD (min v 11)
  | 2 => 2
  | _ => min v 11

/-- RSEQ[k] and ISEQ[j] (R207). -/
def seqFields (cfg : Word) (inj : Bool) (w : Word) : List SField :=
  [{ lo := 0, len := 4, clamp := muxOf cfg (roleOf cfg inj (fld w 29 2)) }, nearF 8 8 4 255, plainF 22 1, plainF 23 1, nearF 24 4 0 8,
   { lo := 29, len := 2, clamp := roleOf cfg inj }]

/-- The nearest multiple of 4 up to 0x3FBC (R189); of a value that lies equally near two, the lower one (DESIGN CHOICE, log entry
56). -/
def tbaseClamp (v : Nat) : Nat := min 0x3FBC ((v + 1) / 4 * 4)

/-- The slate-written fields of the ISL[n] register at an offset; none where the register has none. c reads the words that the
slate has set so far in this window (R116). -/
def islFields (off : Nat) (c : Nat → Word) (w : Word) : Option (List SField) :=
  let cfg := if off = 0 then w else c 0
  let p := persOf cfg
  match off with
  | 0x00 => some (cfgFields w)
  | 0x30 => some [codeF 16 3 (safeTop p) 0, nearF 0 16 0 (rawTop p)]
  | 0x40 => some [plainF 0 32]
  | 0x48 => some [nearF 8 24 1 0xFFFFFF, plainF 2 1, { lo := 0, len := 2, clamp := fun v => if v = 0 then 1 else v }]
  | 0x4C => some [plainF 0 32]
  | 0x60 => some [nearF 0 20 5000 1048575]
  | 0x64 => some [plainF 0 16]
  | 0x80 => some (if p = .aiI then [nearF 16 16 5000 30000] else [plainF 0 16])
  | 0x84 => some [signF (-65536) 65535]
  | 0x88 => some [signF ((c 0x84).toInt + 32) 2147483647]
  | 0x8C => some [plainF 16 16, plainF 0 16]
  | 0x90 => some [plainF 16 16, { lo := 0, len := 14, clamp := tbaseClamp }]
  | 0xA0 => some [nearF 0 16 0 (rawTop p)]
  | 0xA8 => some [nearF 16 16 0 (rawTop p), nearF 0 16 0 (rawTop p)]
  | 0xAC => some [nearF 0 16 0 (rawTop p)]
  | 0xB0 => some [{ lo := 16, len := 8, clamp := fun v => if v = 0 then 16 else v }, nearF 0 16 64 65535]
  | 0xB4 => some [plainF 0 4]
  | 0xD0 => some [nearF 26 6 5 20, { lo := 20, len := 6, clamp := fun v => if v = 0 then 30 else v }, plainF 10 10, plainF 0 10]
  | 0x150 => some [plainF 31 1, plainF 30 1, nearF 16 5 0 16, nearF 12 3 0 4,
      { lo := 8, len := 2, clamp := fun v => if v = 3 ∨ v = 2 ∧ !(decide (p = .di) || decide (p = .diWb)) then 0 else v }, plainF 0 8]
  | 0x154 => some [plainF 0 20]
  | _ =>
    if 0x100 ≤ off ∧ off < 0x140 ∧ off % 4 = 0 then some (seqFields cfg false w)
    else if 0x140 ≤ off ∧ off < 0x150 ∧ off % 4 = 0 then some (seqFields cfg true w)
    else none

/-- CFG selects a mode that costs 2 gr: loop power, 3-wire connection or source mode (R52, R158). -/
def modeNeeded (cfg : Word) : Bool :=
  match persOf cfg with
  | .aiI => cfg.getLsbD 18
  | .aiRtd => cfg.getLsbD 16
  | .aoI => !cfg.getLsbD 19
  | _ => false

/-- The request for the characteristic rung may be 1: the engine exists and is not in host-assisted mode (R61, R178). -/
def charOk (cfg : Word) : Bool := (persOf cfg).analog && decide (fld cfg 28 2 ≠ 0)

/-- PRIO, MODE_GR and REQ fields of a LEDGER word, under the CFG word of the same slate (R61, R108, R158, R178). -/
def ledgerFields (cfg : Word) : List SField :=
  [plainF 30 2, { lo := 24, len := 6, clamp := fun v => if v = 0 ∧ !modeNeeded cfg then 0 else 2 }, onlyF 4 1 (charOk cfg) 0,
   { lo := 2, len := 2, clamp := fun v => if cfg.getLsbD 4 then min 2 v else 0 }, nearF 0 2 0 (topRung (persOf cfg))]

/-! ## Host-die registers -/

/-- Source codes of R237 that are not reserved. -/
def sourceOk (v : Nat) : Bool :=
  decide (v = 0) || decide (0x010 ≤ v ∧ v < 0x0F8) || decide (0x100 ≤ v ∧ v ≤ 0x123) || decide (0x140 ≤ v ∧ v < 0x180)

/-- Class that Channel falls back to for a source (R288); none where Channel is legal. -/
def channelFallback (src : Nat) : Option Nat :=
  if src = 0x11 then some 0
  else if src ≤ 0x0B ∨ (0x18 ≤ src ∧ src ≤ 0x2A) ∨ src = 0x30 ∨ src = 0x38 ∨ src = 0x39 then some 2
  else none

/-- Source codes that R288 lists. -/
def srcListed (src : Nat) : Bool :=
  decide (1 ≤ src ∧ src ≤ 4) || decide (8 ≤ src ∧ src ≤ 0x0B) || decide (0x10 ≤ src ∧ src ≤ 0x12) || decide (0x18 ≤ src ∧ src ≤ 0x1A) ||
  decide (src = 0x20) || decide (src = 0x21) || decide (0x28 ≤ src ∧ src ≤ 0x2B) || decide (src = 0x30) || decide (src = 0x31) ||
  decide (src = 0x38) || decide (src = 0x39) || decide (0x40 ≤ src ∧ src ≤ 0x4E)

/-- CLASS of a source after the clamps of R291. -/
def classClamp (src v : Nat) : Nat :=
  if src = 0x48 then 0
  else if src = 0x2B then 3
  else if src = 0x31 ∧ v = 0 then 1
  else if v = 1 then (channelFallback src).getD 1
  else v

/-- FAULT.MATRIX[s] (R291). -/
def matrixFields (src : Nat) (w : Word) : List SField :=
  let noHa := decide (src = 0x29) || decide (src = 0x2A) || decide (src = 0x31) || decide (src = 0x2B) ||
    decide (classClamp src (fld w 0 2) = 3)
  [plainF 4 1, plainF 3 1, onlyF 2 1 (!noHa) 0, { lo := 0, len := 2, clamp := classClamp src }]

/-- The slate-written fields of the EVT register at an offset (R262). -/
def evtFields (m : Member) (off : Nat) (c : Nat → Word) (w : Word) : Option (List SField) :=
  if off % 4 ≠ 0 then none
  else if off < 0x400 then some [plainF 24 8, { lo := 0, len := 9, clamp := fun v => if sourceOk v then v else 0 }]
  else if off < 0x600 then
    if off % 8 = 0 then
      some [onlyF 31 1 (decide (fld w 24 4 < m.islands)) 0, plainF 30 1, plainF 29 1, plainF 28 1, plainF 24 4, plainF 0 8]
    else
      let line := (c (off - 4)).getLsbD 30
      some [{ lo := 16, len := 16, clamp := fun v => v % 2 ^ m.islands }, plainF 15 1, plainF 14 1, plainF 12 2,
            { lo := 10, len := 2, clamp := fun v => if v = 3 ∨ v = 1 ∧ line then 0 else v }, plainF 0 8]
  else if off < 0x700 then
    match off % 16 with
    | 0 => some [plainF 30 2, plainF 8 8]
    | 4 => some [nearF 0 32 8 0xFFFFFFFF]
    | 8 => some [nearF 0 32 0 (max 8 (c (off - 4)).toNat - 1)]
    | _ => none
  else if off < 0x700 + 4 * m.islands then some [plainF 31 1, plainF 30 1, plainF 8 8, plainF 0 8]
  else none

/-- The slate-written fields of the DMA register at an offset (R263). -/
def dmaFields (off : Nat) : Option (List SField) :=
  if off < 0x400 then
    match off % 0x40 with
    | 0x20 => some [plainF 24 5, codeF 20 2 2 0, plainF 19 1, plainF 18 1, plainF 17 1, plainF 16 1, plainF 8 8, plainF 0 1]
    | 0x24 => some [plainF 8 8, plainF 0 8]
    | 0x28 => some [plainF 0 32]
    | 0x2C => some [plainF 0 32]
    | 0x30 => some [plainF 0 32]
    | 0x34 => some [plainF 0 32]
    | 0x38 => some [plainF 0 32]
    | 0x3C => some [plainF 0 32]
    | _ => none
  else none

/-- The slate-written fields of the FLINT register at an offset (R287). -/
def flintFields (off : Nat) (c : Nat → Word) : Option (List SField) :=
  match off with
  | 0x00 => some [codeF 30 2 2 0, plainF 29 1]
  | 0x20 => some [codeF 30 2 2 0, plainF 29 1, codeF 0 4 8 8]
  | _ =>
    match off % 0x20 with
    | 0x04 => if off < 0x40 then some [nearF 0 32 0 0xFFFFFEFF] else none
    | 0x08 => if off < 0x40 then some [nearF 0 32 (max 1024 ((c (off - 4)).toNat + 256)) 0xFFFFFFFF] else none
    | 0x0C => if off < 0x40 then some [plainF 0 32] else none
    | _ => none

/-- The slate-written fields of the FAULT register at an offset (R304). -/
def faultFields (m : Member) (off : Nat) (c : Nat → Word) (w : Word) : Option (List SField) :=
  match off with
  | 0x24 => some [nearF 0 32 64 0xFFFFFFFF]
  | 0x28 => some [nearF 0 32 1 0xFFFFFFFF]
  | 0x2C => some [plainF 0 4]
  | 0x30 => some [plainF 0 32]
  | 0x38 => some [nearF 5 27 (m.sharedBase / 32) ((m.sramEnd - 512) / 32)]
  | 0x3C => some [nearF 0 16 16 (min 65535 ((m.sramEnd - (c 0x38).toNat) / 32))]
  | _ => if 0x100 ≤ off ∧ off < 0x300 ∧ off % 4 = 0 ∧ srcListed ((off - 0x100) / 4) then some (matrixFields ((off - 0x100) / 4) w) else none

/-- The slate-written fields of a register of HOST, FACET, NVM or TANDEM (R106, R235, R285, R327, R348). -/
def systemFields (a : Nat) : Option (List SField) :=
  match a with
  | 0x14C => some [plainF 31 1, codeF 0 4 11 11]
  | 0x4004 => some [plainF 0 8]
  | 0x7018 => some [plainF 0 1]
  | 0x8000 => some [codeF 30 2 1 0, plainF 29 1, nearF 16 6 1 63, { lo := 8, len := 4, clamp := fun v => if v = 0 then 4 else v },
      { lo := 0, len := 8, clamp := fun v => if v = 0 then 8 else v }]
  | _ => none

/-- The fields of the register word that data of a section of this TYPE addresses, by its byte offset from the target base (R106,
R107). -/
def slateFields (m : Member) (type : Nat) (off : Nat) (c : Nat → Word) (w : Word) : Option (List SField) :=
  match type with
  | 0x01 => islFields off c w
  | 0x03 => evtFields m off c w
  | 0x05 => faultFields m off c w
  | 0x06 => dmaFields off
  | 0x07 => flintFields off c
  | 0x08 => systemFields off
  | _ => none

/-- Target base of a section (R106, R107). -/
def slateBase (type inst : Nat) : Nat :=
  match type with
  | 0x01 => 0x0010_0000 + inst * 0x1000
  | 0x03 => 0x2000
  | 0x05 => 0x6000
  | 0x06 => 0x3000
  | 0x07 => 0x5000
  | _ => 0

end Sys2Proof.Machine
end

