-- ==== Sys2Proof/Machine/Slate.lean ====
section
/-! DEFINITION. The slate engine up to the commit: session, loading, verification (R102-R117, R124). -/

namespace Sys2Proof.Machine

/-! ## The container -/

/-- A section: its header word, its body and its CRC word (R104). -/
structure Section where
  hdr : Word
  body : List Word
  crc : Word
  deriving DecidableEq, Repr

def Section.type (x : Section) : Nat := fld x.hdr 24 8
def Section.skip (x : Section) : Bool := x.hdr.getLsbD 23
def Section.inst (x : Section) : Nat := fld x.hdr 16 7
def Section.len (x : Section) : Nat := fld x.hdr 0 16

/-- The sections behind the header, and whether the last one is whole (R104, R105); n bounds their number. -/
def sections : Nat → List Word → List Section × Bool
  | 0, l => ([], l.isEmpty)
  | n + 1, l =>
    match l with
    | [] => ([], true)
    | h :: r =>
      let k := fld h 0 16
      if r.length < k + 1 then ([{ hdr := h, body := r, crc := 0 }], false)
      else
        let (xs, ok) := sections n (r.drop (k + 1))
        ({ hdr := h, body := r.take k, crc := r.getD k 0 } :: xs, ok)

/-- A section type that the table of R106 lists. -/
def knownType (t : Nat) : Bool := decide (1 ≤ t ∧ t ≤ 8) || decide (t = 0x0E) || decide (t = 0xFF)

/-- A section whose body is runs (R106). -/
def runsType (t : Nat) : Bool := decide (1 ≤ t ∧ t ≤ 8) && decide (t ≠ 4)

/-- The runs of a body, each with its word offset and data, and whether they fill it in ascending order without overlap
(R107); n bounds their number and lo is the next legal word offset. -/
def runs : Nat → Nat → List Word → List (Nat × List Word) × Bool
  | 0, _, l => ([], l.isEmpty)
  | n + 1, lo, l =>
    match l with
    | [] => ([], true)
    | h :: r =>
      let o := fld h 16 16
      let k := fld h 0 16
      if k = 0 ∨ r.length < k ∨ o < lo then ([], false)
      else
        let (xs, ok) := runs n (o + k) (r.drop k)
        ((o, r.take k) :: xs, ok)

/-- The data words of a section, each with its byte offset from the target base. -/
def Section.words (x : Section) : List (Nat × Word) :=
  (runs x.body.length 0 x.body).1.flatMap (fun r => r.2.zipIdx.map (fun e => (4 * (r.1 + e.2), e.1)))

/-! ## Fields and clamps -/

/-- What a slate sets: register words, island SRAM words, and the clamps found; and the staged image with its clamped values
written back, the last word first (R116). -/
structure Staged where
  cfg : Words
  islmem : List (IslandNo × Nat × Word)
  clamps : Nat
  image : List Word
  deriving DecidableEq, Repr

/-- Bits that the fields cover. -/
def fieldMask (fs : List SField) : Word :=
  fs.foldl (fun (a : Word) (f : SField) => a ||| BitVec.ofNat 32 ((2 ^ f.len - 1) <<< f.lo)) 0

/-- A word enters the image as it stands. -/
def Staged.keep (st : Staged) (w : Word) : Staged := { st with image := w :: st.image }

/-- The fields of a data word are set at an address after their clamps, and the clamped values are written back. -/
def Staged.set (m : Member) (st : Staged) (fs : List SField) (a : Nat) (w : Word) : Staged :=
  let (v, k) := takeFields fs w
  { st with cfg := sput (cfgReset m) st.cfg a v, clamps := st.clamps + k, image := ((w &&& ~~~fieldMask fs) ||| v) :: st.image }

/-- A data word of a section is set after its clamps. A word for a register that the personality does not use is ignored
(R413, R416, R417). -/
def Staged.put (m : Member) (x : Section) (st : Staged) (o : Nat) (w : Word) : Staged :=
  let b := slateBase x.type x.inst
  if x.type = 2 then { st with islmem := st.islmem ++ [(Fin.ofNat 16 x.inst, o, w)] }.keep w
  else
    let c (off : Nat) : Word := sget (cfgReset m) st.cfg (b + off)
    if x.type = 1 ∧ o ≠ 0 ∧ !regServes (persOf (c 0)) o then st.keep w
    else match slateFields m x.type o c w with
      | none => st.keep w
      | some fs => st.set m fs (b + o) w

/-- CFG of island n in what the slate sets. -/
def Staged.islCfg (m : Member) (st : Staged) (n : Nat) : Word := sget (cfgReset m) st.cfg (0x0010_0000 + n * 0x1000)

/-- The LEDGER record: word n for island n (R108). REQ fields stand in the word with PRIO and MODE_GR. Words for islands that the
member does not have are ignored (DESIGN CHOICE, log entry 56). -/
def Staged.putLedger (m : Member) (x : Section) (st : Staged) : Staged :=
  x.body.zipIdx.foldl (fun (st : Staged) (e : Word × Nat) =>
    if e.2 < m.islands then st.set m (ledgerFields (st.islCfg m e.2)) (0x0010_0000 + e.2 * 0x1000 + 0x10) e.1
    else st.keep e.1) st

/-- A section sets its fields. -/
def Staged.take (m : Member) (st : Staged) (x : Section) : Staged :=
  let st := st.keep x.hdr
  let st :=
    if x.type = 4 then st.putLedger m x
    else if runsType x.type then
      (runs x.body.length 0 x.body).1.foldl (fun (st : Staged) (q : Nat × List Word) =>
        q.2.zipIdx.foldl (fun (st : Staged) (e : Word × Nat) => st.put m x (4 * (q.1 + e.2)) e.1)
          (st.keep (BitVec.ofNat 32 (q.1 * 0x1_0000 + q.2.length)))) st
    else x.body.foldl Staged.keep st
  st.keep x.crc

/-- MODE_GR of an island is raised to 2 where its CFG selects a mode that costs 2 gr, also where no LEDGER word names the island:
one clamp (R158). -/
def Staged.raiseMode (m : Member) (st : Staged) (n : Nat) : Staged :=
  let a := 0x0010_0000 + n * 0x1000 + 0x10
  let w := sget (cfgReset m) st.cfg a
  if modeNeeded (st.islCfg m n) ∧ fld w 24 6 = 0 then
    { st with cfg := sput (cfgReset m) st.cfg a (w + 0x0200_0000), clamps := st.clamps + 1 }
  else st

/-- What the sections set; a field that none sets takes its reset value (R102), but MODE_GR of R158. -/
def stage (m : Member) (xs : List Section) : Staged :=
  (List.range m.islands).foldl (Staged.raiseMode m) (xs.foldl (Staged.take m) { cfg := [], islmem := [], clamps := 0, image := [] })

/-! ## Checks -/

/-- The index of the first section of which p holds. -/
def firstBad (xs : List Section) (p : Section → Bool) : Option Nat := xs.findIdx? p

/-- Sections ascend in TYPE and, within it, in INSTANCE (R105): the index of the first that does not. -/
def disorder : Nat → List Section → Option Nat
  | _, [] => none
  | _, [_] => none
  | k, x :: y :: l =>
    if x.type < y.type ∨ (x.type = y.type ∧ x.inst < y.inst) then disorder (k + 1) (y :: l) else some (k + 1)

/-- An AUTH section stands where R105 forbids it, or is missing at the end: with AUTH = 1 the one AUTH section is the last. -/
def authDisorder (auth : Bool) (xs : List Section) : Option Nat :=
  match firstBad xs (fun x => decide (x.type = 0xFF)) with
  | some k => if auth ∧ k + 1 = xs.length then none else some k
  | none => if auth then some (if xs.isEmpty then 0xFF else xs.length - 1) else none

/-- A section's target is not there (R107, R115): an island that the member lacks, an offset outside island SRAM, a register
without a slate-written field, or an instance that the type does not have. An INFO section has no target, and its INSTANCE is not
checked (DEDUCED, log entry 21). -/
def badTarget (m : Member) (x : Section) : Bool :=
  if x.type = 1 ∨ x.type = 2 then
    decide (m.islands ≤ x.inst) ||
    x.words.any (fun e => if x.type = 2 then decide (0x4000 ≤ e.1) else (islFields e.1 (fun _ => 0) e.2).isNone)
  else if runsType x.type then
    decide (x.inst ≠ 0) || x.words.any (fun e => (slateFields m x.type e.1 (fun _ => 0) e.2).isNone)
  else decide (x.type = 4) && decide (x.inst ≠ 0)

/-- A LEDGER body of a wrong length, or a MAC of another length than 8 (R108, R109). -/
def badLen (x : Section) : Bool :=
  (decide (x.type = 4) && (decide (x.len = 0) || decide (16 < x.len))) || (decide (x.type = 0xFF) && decide (x.len ≠ 8))

/-- The verdict: the code and section of the first check of R115 that fails. Reserved header bits that are not 0 are accepted; of
several ORDER defects ERR_SEC names that of the sections' order first, then that of AUTH, then that of the runs (DESIGN CHOICE,
log entries 21 and 56). -/
def State.slateFault (s : State) (w : List Word) : Option (Nat × Nat) :=
  let h (k : Nat) : Word := w.getD k 0
  let (xs, whole) := sections w.length (w.drop 8)
  let auth := (h 1).getLsbD 0
  let macLen := w.length - 9
  if h 0 ≠ 0x5348534C then some (1, 0xFF)
  else if fld (h 1) 16 16 ≠ 1 then some (2, 0xFF)
  else if BitVec.ofNat 8 (fld (h 1) 8 8) ≠ s.member.code then some (3, 0xFF)
  else if (h 2).toNat < 8 ∨ 16384 < (h 2).toNat ∨ (h 2).toNat ≠ w.length then some (4, 0xFF)
  else if !whole then some (4, xs.length - 1)
  else if xs.length ≠ fld (h 4) 0 16 then some (4, 0xFF)
  else match firstBad xs badLen with
  | some k => some (4, k)
  | none =>
  if crc32c (w.take 7) ≠ h 7 then some (5, 0xFF)
  else match firstBad xs (fun x => decide (crc32c (x.hdr :: x.body) ≠ x.crc)) with
  | some k => some (6, k)
  | none =>
  match (disorder 0 xs).or ((authDisorder auth xs).or (firstBad xs (fun x => runsType x.type && !(runs x.body.length 0 x.body).2))) with
  | some k => some (7, k)
  | none =>
  match firstBad xs (fun x => !knownType x.type && !x.skip) with
  | some k => some (8, k)
  | none =>
  match firstBad xs (badTarget s.member) with
  | some k => some (9, k)
  | none =>
  if !auth then (if s.slate.authReq then some (10, 0xFF) else none)
  else match xs.getLast? with
  | none => some (11, 0xFF)
  | some x =>
    if 8 ≤ x.inst then some (11, xs.length - 1)
    else match s.keyOf x.inst with
    | none => some (11, xs.length - 1)
    | some key => if hmac key (w.take macLen) = x.body then none else some (12, xs.length - 1)

/-! ## The session -/

/-- The slate engine after f. -/
def State.modSlate (s : State) (f : Slate → Slate) : State := { s with slate := f s.slate }

/-- OWNER code (R127). -/
def ownerCode : Option Master → Nat
  | some .link => 1
  | some (.thread t) => 2 + t.val
  | _ => 0

/-- A CTRL command: of the owner, of any master where no session is open, and ABORT of the link outside COMMITTING (R113). -/
def State.slateCmd (s : State) (m : Master) (abort : Bool) (f : State → State) : State :=
  match m with
  | .link => if s.slate.owner = none ∨ s.slate.owner = some m ∨ (abort ∧ s.slate.st ≠ .committing) then f s
             else s.accFault .master m 2 0x1000
  | .thread _ => if s.slate.owner = none ∨ s.slate.owner = some m then f s else s.accFault .master m 2 0x1000
  | _ => s.accFault .master m 2 0x1000

/-- A command that R114 does not list for the state (R114). -/
def State.badCmd (s : State) : State := s.modSlate (fun z => { z with badcmd := true })

/-- CMD OPEN. ERR_SEC is cleared with ERR (DESIGN CHOICE, log entry 56). -/
def State.slateOpen (s : State) (m : Master) : State :=
  if s.slate.st = .empty then
    s.modSlate (fun z => { z with st := .loading, owner := some m, staged := [], total := 0, fromNvm := false, err := 0, errSec := 0,
                                  badcmd := false })
  else s.badCmd

/-- SLATE_OPEN (R113, R114). -/
def execSlateOpen (m : Master) (s : State) : Host.Outcome State Fault Refusal :=
  s.act fun s => s.slateCmd m false (fun s => s.slateOpen m)

/-- The word that LOAD_NVM reads as its word k. -/
def State.nvmSlateWord (s : State) (k : Nat) : Word := s.windowWord (4 * (s.slate.nvmFrom.toNat + k))

/-- Words of a slate that LOAD_NVM reads: TOTAL_LEN, or the three words up to an illegal one (R114). -/
def State.nvmSlateLen (s : State) : Nat :=
  let t := (s.nvmSlateWord 2).toNat
  if t < 8 ∨ 16384 < t then 3 else t

/-- CMD LOAD_NVM: 2 tk per word. ERR and ERR_SEC are cleared as at OPEN (DESIGN CHOICE, log entry 56). -/
def State.slateLoadNvm (s : State) (m : Master) : State :=
  if s.slate.st = .empty then
    let s := s.modSlate (fun z => { z with st := .loading, owner := some m, staged := [], total := 0, fromNvm := true, err := 0,
                                           errSec := 0, badcmd := false, nvmFrom := z.nvmaddr, loadAt := s.tick })
    s.owe (2 * s.nvmSlateLen) (.nvmLoadComplete true)
  else s.badCmd

/-- SLATE_LOAD_NVM (R114). -/
def execSlateLoadNvm (m : Master) (s : State) : Host.Outcome State Fault Refusal :=
  s.act fun s => (s.settle (.slateLoadNvm m)).slateCmd m false (fun s => s.slateLoadNvm m)

/-- The session fails with a code; ERR_SEC takes the low eight bits of a section's index (DESIGN CHOICE, log entry 56). -/
def State.slateFail (s : State) (err sec : Nat) : State :=
  (s.cancel (.nvmLoadComplete true)).modSlate (fun z =>
    { z with st := .failed, err := BitVec.ofNat 8 err, errSec := BitVec.ofNat 8 sec })

/-- The next word is staged: word 2 gives TOTAL_LEN, and the last word ends the loading (R114). A failure here, of no section, writes
ERR_SEC = 0xFF (DESIGN CHOICE, log entry 56). -/
def State.slateTake (s : State) (w : Word) : State :=
  let s := s.modSlate (fun z => { z with staged := z.staged ++ [w], total := if z.staged.length = 2 then w.toNat else z.total })
  let n := s.slate.staged.length
  if n = 3 ∧ (w.toNat < 8 ∨ 16384 < w.toNat) then s.slateFail 4 0xFF
  else if 3 ≤ n ∧ n = s.slate.total then s.modSlate (fun z => { z with st := .loaded })
  else s

/-- A read of LOAD_NVM fails: the session ends with NVM and ERR_SEC = 0xFF (DESIGN CHOICE, log entry 56), and the collector hears of it
(R114, R288). -/
def State.nvmReadFails (s : State) : State := (s.slateFail 13 0xFF).raiseBy 0x20 .nvm 0 0 0

/-- LOAD_NVM takes its next word; a read that fails, in a sector that is being erased or programmed (R307) or outside the store, ends
the session. -/
def State.nvmStage (s : State) : State :=
  if s.slate.st = .loading ∧ s.slate.fromNvm then
    let o := 4 * (s.slate.nvmFrom.toNat + s.slate.staged.length)
    if decide (s.member.nvmBytes < o + 4) || s.flashBusy o then s.nvmReadFails
    else s.slateTake (s.windowWord o)
  else s

/-- LOAD_NVM takes up to k more words. -/
def State.nvmStages : Nat → State → State
  | 0, s => s
  | k + 1, s => State.nvmStages k s.nvmStage

/-- LOAD_NVM takes a word on every second tick. -/
def State.nvmLoadTick (s : State) : State :=
  if s.slate.st = .loading ∧ s.slate.fromNvm ∧ s.slate.loadAt < s.tick ∧ (s.tick - s.slate.loadAt).getLsbD 0 = false then s.nvmStage else s

/-- NVM_LOAD_COMPLETE (R114): the words that are still missing are staged, or their read fails. -/
def execNvmLoadComplete (readOk : Bool) (s : State) : Host.Outcome State Fault Refusal :=
  s.act fun s =>
    let s := s.cancel (.nvmLoadComplete true)
    if s.slate.st = .loading ∧ s.slate.fromNvm then
      if readOk then s.nvmStages (s.nvmSlateLen - s.slate.staged.length) else s.nvmReadFails
    else s

/-- A word reaches the staging buffer (R114). -/
def State.slateStage (s : State) (w : Word) : State :=
  match s.slate.st with
  | .loading => if s.slate.fromNvm then s else s.slateTake w
  | .loaded => s.slateFail 4 0xFF
  | _ => s

/-- The master may write SLATE.LOAD: the owner and any DMA channel (R113). -/
def State.mayStage (s : State) (m : Master) : Bool :=
  match m with
  | .dma _ => true
  | _ => decide (s.slate.owner = some m)

/-- SLATE_LOAD (R113, R114). -/
def execSlateLoad (m : Master) (w : Word) (s : State) : Host.Outcome State Fault Refusal :=
  s.act fun s => if s.mayStage m then s.slateStage w else s.accFault .master m 2 0x1008

/-- Ticks of verification at most (R117). -/
def Slate.verifyTk (z : Slate) : Nat :=
  if (z.staged.getD 1 0).getLsbD 0 then 5 * z.staged.length + 400 else 2 * z.staged.length + 64

/-- CMD VERIFY. -/
def State.slateVerify (s : State) : State :=
  if s.slate.st = .loaded then
    (s.modSlate (fun z => { z with st := .verifying, badcmd := false })).owe s.slate.verifyTk .verifyComplete
  else s.badCmd

/-- SLATE_VERIFY (R114, R115). -/
def execSlateVerify (m : Master) (s : State) : Host.Outcome State Fault Refusal :=
  s.act fun s => (s.settle (.slateVerify m)).slateCmd m false State.slateVerify

/-- VERIFY_COMPLETE (R114-R117): the staged image takes the clamped values. -/
def execVerifyComplete (s : State) : Host.Outcome State Fault Refusal :=
  s.act fun s =>
    let s := s.settle .verifyComplete
    if s.slate.st = .verifying then
      let w := s.slate.staged
      let xs := (sections w.length (w.drop 8)).1
      match s.slateFault w with
      | some (e, k) => s.slateFail e k
      | none =>
        let x := stage s.member xs
        s.modSlate (fun z => { z with st := .verified, err := 0, errSec := 0, staged := w.take 8 ++ x.image.reverse,
                                      sections := BitVec.ofNat 16 xs.length, clamps := BitVec.ofNat 16 (min 0xFFFF x.clamps) })
    else s

/-- CMD COMMIT: refused during a Halt or Lockout; T_C at most 2W later (R114, R118). -/
def State.slateCommit (s : State) : State :=
  if s.slate.st = .verified then
    if s.fault.halt || s.fault.lockout then s.modSlate (fun z => { z with err := 15, badcmd := false })
    else
      (s.modSlate (fun z => { z with st := .committing, switched := false, passed := false, badcmd := false })).owe
        (2 * s.slate.staged.length) .commitSwitch
  else s.badCmd

/-- SLATE_COMMIT (R114, R118). -/
def execSlateCommit (m : Master) (s : State) : Host.Outcome State Fault Refusal :=
  s.act fun s => (s.settle (.slateCommit m)).slateCmd m false State.slateCommit

/-- The staged slate is discarded. -/
def State.slateEmpty (s : State) : State :=
  ((s.cancel (.nvmLoadComplete true)).cancel .verifyComplete).modSlate (fun z =>
    { z with st := .empty, owner := none, staged := [], total := 0, fromNvm := false })

/-- CMD ABORT: ignored in COMMITTING, and in EMPTY not listed (R114). -/
def State.slateAbort (s : State) : State :=
  if s.slate.st = .committing ∨ s.slate.st = .empty then s.badCmd
  else s.slateEmpty.modSlate (fun z => { z with badcmd := false })

/-- SLATE_ABORT (R113, R114). -/
def execSlateAbort (m : Master) (s : State) : Host.Outcome State Fault Refusal :=
  s.act fun s => s.slateCmd m true State.slateAbort

end Sys2Proof.Machine
end

