-- ==== Sys2Proof/Machine/Dma.lean ====
section
/-! DEFINITION. The DMA channels: commands, walking, moving, scaling, appending, ports (R250-R261). -/

namespace Sys2Proof.Machine

/-! ## Registers of a channel -/

/-- Slate-written word of channel c at offset o (R263). -/
def State.chWord (s : State) (c : ChNo) (o : Nat) : Word := s.cfgAt (0x3000 + 0x40 * c.val + o)

def State.chHaw (s : State) (c : ChNo) : Bool := (s.chWord c 0x20).getLsbD 19
def State.chPace (s : State) (c : ChNo) : Bool := (s.chWord c 0x20).getLsbD 0
def State.chUnit (s : State) (c : ChNo) : Bool := (s.chWord c 0x20).getLsbD 16
def State.chLoop (s : State) (c : ChNo) : Bool := (s.chWord c 0x20).getLsbD 18
def State.chAuto (s : State) (c : ChNo) : Bool := (s.chWord c 0x20).getLsbD 17

/-- The channel is between descriptors: IDLE, DONE or ERROR (R250). -/
def Channel.rests (h : Channel) : Bool := decide (h.st = .idle) || decide (h.st = .done) || decide (h.st = .error)

/-- PERM lets channel c read or write the slice of context u (R252). -/
def State.chRead (s : State) (c : ChNo) (u : CtxNo) : Bool := (s.chWord c 0x24).getLsbD u.val
def State.chWrite (s : State) (c : ChNo) (u : CtxNo) : Bool := (s.chWord c 0x24).getLsbD (8 + u.val)

/-- Channel c may fetch a descriptor at an address (R252). -/
def State.mayFetch (s : State) (c : ChNo) (a : Nat) : Bool :=
  match regionOf s.member a with
  | .slice u => s.chRead c u
  | .shared => true
  | _ => false

/-- Channel c may patch a descriptor at an address (R252). -/
def State.mayPatch (s : State) (c : ChNo) (a : Nat) : Bool :=
  match regionOf s.member a with
  | .slice u => s.chWrite c u
  | .shared => true
  | _ => false

/-- The island of a port array at this base (R260). -/
def portOf (m : Member) (base a : Nat) : Option IslandNo :=
  if base ≤ a ∧ a < base + 4 * m.islands then some (Fin.ofNat 16 ((a - base) / 4)) else none

/-! ## Ports -/

/-- The oldest entry of a result stream is removed; all ones where there is none (R260). -/
def State.rstreamTake (s : State) (n : IslandNo) : State × Word :=
  match s.isl[n].rstream with
  | [] => (s, 0xFFFFFFFF)
  | w :: r => (s.modIsl n (fun i => { i with rstream := r }), w)

/-- RSTREAM_READ (R260). -/
def execRstreamRead (m : Master) (n : IslandNo) (s : State) : Host.Outcome State Fault Refusal :=
  s.act fun s =>
    if s.present n then (let (s, v) := s.rstreamTake n; s.deliver m v)
    else s.accFault .addr m 1 (0x3800 + 4 * n.val)

/-- What IMGR and DMA.IMG return for a number: an image word, or at 16 the ISLMAP word (R228, R260). -/
def State.imgWord (s : State) (k : Nat) : Word := if k < 16 then (s.image (Fin.ofNat 16 k)).2 else s.islmap

/-- Output commands go out for island n: it is RUNNING, and the device does not stand by (R231, R336). -/
def State.takesOut (s : State) (n : IslandNo) : Bool := s.running n && decide (s.tan.role ≠ .standby)

/-- An output command of a master is queued, or discarded (R231, R260, R336). -/
def State.outCmd (s : State) (m : Master) (n : IslandNo) (w : Word) (a : Word) (x : BitVec 19 := 0) : State :=
  if s.takesOut n then s.send n m (.cmd (.output w)) a x else s

/-- OCMD_WRITE (R260). -/
def execOcmdWrite (m : Master) (n : IslandNo) (w : Word) (s : State) : Host.Outcome State Fault Refusal :=
  s.act fun s =>
    if s.present n then s.outCmd m n w (BitVec.ofNat 32 (0x3A00 + 4 * n.val))
    else s.accFault .addr m 2 (0x3A00 + 4 * n.val)

/-! ## Start and disable -/

/-- A disable: CUR, REMAIN and WORDS are free values until the next start (R258, log entry 6). -/
def State.chDisable (s : State) (c : ChNo) : State :=
  let s := islands.foldl (fun (s : State) (n : IslandNo) => s.modIsl n (Island.dropDma c)) ({ s with nvmRd := s.nvmRd.filter (fun r => decide (r.1 ≠ c)) }.cancel (.autoStart c))
  let f := s.free
  { s.modCh c (fun h =>
      { h with st := .idle, err := 0, ppend := false, cur := Config.dmaUndefined f &&& 0xFFFFFFF0,
               remain := (Config.dmaUndefined (f + 1)).setWidth 16, words := Config.dmaUndefined (f + 2), buf := none, scaled := false,
               more := [], reading := 0, fetched := 0, tpl := false }) with free := f + 3 }

/-- DMA_DISABLE (R258). -/
def execDmaDisable (_m : Master) (c : ChNo) (s : State) : Host.Outcome State Fault Refusal := s.act fun s => s.chDisable c

/-- The channel enters MOVE, or WAIT for its pace; a pulse that is kept is consumed (R250, R254). -/
def State.chEnter (s : State) (c : ChNo) : State :=
  s.modCh c (fun h =>
    if s.chPace c then (if h.ppend then { h with st := .move, ppend := false } else { h with st := .wait }) else { h with st := .move })

/-- A chain has ended: DMA_DONE pulses on the next tick, and with LOOP the template starts again on the tick after (R250, R261). -/
def State.chEnd (s : State) (c : ChNo) : State :=
  let s := (s.modCh c (fun h => { h with st := .done })).pulseIn 1 (0x0C0 + c.val)
  if s.chLoop c && !s.chHaw c then s.owe 2 (.autoStart c) else s

/-- The descriptor is complete (R250, R253). -/
def State.chComplete (s : State) (c : ChNo) : State :=
  let h := s.dma[c]
  let s := if h.lenf.getLsbD 31 then s.pulseIn 1 (0x0D0 + c.val) else s
  if s.chHaw c || h.link.getLsbD 0 then s.chEnd c
  else s.modCh c (fun h => { h with st := .fetch, fetched := 0, cur := h.link &&& 0xFFFFFFF0, tpl := false })

/-- A write of channel c to the island does not go on: a descriptor begins with a WADDR of its own (R255). -/
def Island.endRun (c : ChNo) (i : Island) : Island :=
  match i.wrun with
  | some (.dma d, _) => if d = c then { i with wrun := none } else i
  | _ => i

/-- The four words of a descriptor take effect (R250, R251). -/
def State.chDescriptor (s : State) (c : ChNo) : State :=
  let n := s.dma[c].lenf.extractLsb' 0 16
  let s := s.modCh c (fun h => { h with remain := n, buf := none, scaled := false, more := [], reading := 0 })
  let s := islands.foldl (fun (s : State) (n : IslandNo) => s.modIsl n (Island.endRun c)) s
  if n = 0 then s.chComplete c else s.chEnter c

/-- CMD START: an act of NONE in host-assisted mode (R250, R253). -/
def State.chStart (s : State) (c : ChNo) : State :=
  if s.dma[c].rests && !s.chHaw c then
    (s.cancel (.autoStart c)).modCh c (fun h =>
      { h with st := .fetch, err := 0, cur := h.head, remain := 0, words := 0, fetched := 0, seen := [], tpl := false, buf := none })
  else s

/-- DMA_START (R250). -/
def execDmaStart (_m : Master) (c : ChNo) (s : State) : Host.Outcome State Fault Refusal := s.act fun s => s.chStart c

/-- The template is the descriptor (R250, R261); fresh: WORDS counts from 0. It takes k ticks to take, so that no word of it moves
before; a descriptor with LEN = 0 completes at once (R251). -/
def State.chTemplate (s : State) (c : ChNo) (fresh : Bool) (k : Nat) : State :=
  ((s.cancel (.autoStart c)).modCh c (fun h =>
    { h with err := 0, cur := 0, words := if fresh then 0 else h.words, seen := [], tpl := true, src := s.chWord c 0x30,
             dst := s.chWord c 0x34, lenf := s.chWord c 0x38, link := s.chWord c 0x3C,
             goAt := s.tick + BitVec.ofNat 64 k })).chDescriptor c

/-- CMD START_TPL. -/
def State.chStartTpl (s : State) (c : ChNo) : State :=
  if s.dma[c].rests then s.chTemplate c true 1 else s

/-- DMA_START_TPL (R250). -/
def execDmaStartTpl (_m : Master) (c : ChNo) (s : State) : Host.Outcome State Fault Refusal := s.act fun s => s.chStartTpl c

/-- AUTO_START (R261): a commit or reset finds the channel IDLE; a chain with LOOP that ended restarts. -/
def execAutoStart (c : ChNo) (s : State) : Host.Outcome State Fault Refusal :=
  s.act fun s =>
    let s := s.settle (.autoStart c)
    let h := s.dma[c]
    if h.st = .idle ∧ s.chAuto c ∧ (s.slate.committed ∨ s.slate.st = .committing ∧ s.slate.switched) then s.chTemplate c true 1
    else if h.st = .done ∧ s.chLoop c then s.chTemplate c false 1
    else s

/-- A template word is written in host-assisted mode; not while the channel works (R253, R263). -/
def State.tplWrite (s : State) (c : ChNo) (o : Nat) (w : Word) : State :=
  if s.chHaw c && s.dma[c].rests then { s with cfg := sput (cfgReset s.member) s.cfg (0x3000 + 0x40 * c.val + o) w } else s

/-- A write of TLINK: the descriptor is moved at once (R253). -/
def State.tlinkWrite (s : State) (c : ChNo) (w : Word) : State :=
  if s.chHaw c && s.dma[c].rests then
    (s.tplWrite c 0x3C w).chTemplate c (decide (s.dma[c].st = .idle)) 0
  else s

/-- TLINK_WRITE (R253). -/
def execTlinkWrite (_m : Master) (c : ChNo) (w : Word) (s : State) : Host.Outcome State Fault Refusal :=
  s.act fun s => s.tlinkWrite c w

/-! ## Appending -/

/-- What a write of APPEND does when it is served (R257): ARES 1 TAKEN, 2 MISSED, 3 REFUSED; in host-assisted mode it acts as NONE,
which is REFUSED. -/
def State.chAppend (s : State) (c : ChNo) (a : Word) : State :=
  let a := a &&& 0xFFFFFFF0
  let h := s.dma[c]
  if s.chHaw c then s.modCh c (fun h => { h with ares := 3 })
  else if !s.mayFetch c a.toNat || !s.mayPatch c h.tail.toNat then s.modCh c (fun h => { h with ares := 3 })
  else if h.seen.contains h.tail then s.modCh c (fun h => { h with ares := 2, tail := a })
  else (s.putSram (h.tail.toNat + 12) a).modCh c (fun h => { h with ares := 1, tail := a })

/-- A write of APPEND: they are served one per tick, in their order, so that one behind another waits for its own (R80, R257). -/
def State.appendWrite (s : State) (m : Master) (c : ChNo) (a : Word) : State :=
  let wait (u : Tick) : State := { s with appendAt := some u }.oweAt u (.append m c a)
  match s.appendAt with
  | none => ({ s with appendAt := some s.tick } : State).chAppend c a
  | some u => if s.tick ≤ u then wait (u + 1) else ({ s with appendAt := some s.tick } : State).chAppend c a

/-- APPEND (R257): a write, or one that has waited for its tick. -/
def execAppend (m : Master) (c : ChNo) (addr : Word) (s : State) : Host.Outcome State Fault Refusal :=
  s.act fun s =>
    if s.isDue (.append m c addr) then (s.settle (.append m c addr)).chAppend c addr else s.appendWrite m c addr

/-! ## Walking -/

/-- The walker reads descriptor word k of channel c (R251, R253). -/
def State.walkWord (s : State) (c : ChNo) : State :=
  let h := s.dma[c]
  let a := h.cur.toNat + 4 * h.fetched
  if !s.mayFetch c h.cur.toNat then s.dmaFail c 3 h.cur 1
  else
    let w := s.sramWord a
    s.modCh c (fun h =>
      match h.fetched with
      | 0 => { h with src := w, fetched := 1 }
      | 1 => { h with dst := w, fetched := 2 }
      | 2 => { h with lenf := w, fetched := 3 }
      | _ => { h with link := w, fetched := 4, seen := if h.seen.contains h.cur then h.seen else h.cur :: h.seen })

/-- The words of a fetch that are left. -/
def State.walkRest (s : State) (c : ChNo) : Nat → State
  | 0 => s
  | k + 1 => if s.dma[c].st = .fetch ∧ s.dma[c].fetched < 4 then (s.walkWord c).walkRest c k else s

/-- DESCRIPTOR_FETCHED (R253): the LINK word is read on this tick, and what the descriptor says takes effect. -/
def execDescriptorFetched (c : ChNo) (s : State) : Host.Outcome State Fault Refusal :=
  s.act fun s =>
    let s := s.settle (.descriptorFetched c)
    if s.dma[c].st = .fetch ∧ !s.chHaw c then
      let s := s.walkRest c 4
      if s.dma[c].st = .fetch then s.chDescriptor c else s
    else s

/-! ## Moving -/

/-- Words that channel h has read, or is reading, and has not written (R255). -/
def Channel.ahead (h : Channel) : Nat := h.reading + b2n h.buf.isSome + h.more.length

/-- Byte address of the next word that channel c reads (R251, R255). -/
def State.readAddr (s : State) (c : ChNo) : Nat :=
  let h := s.dma[c]
  (h.src.toNat / 4 * 4 + (if h.lenf.getLsbD 30 then 0 else 4 * h.ahead)) % 2 ^ 32

/-- The region of R252 that channel c reads from, or the error of R259: 1 SRC, 4 ISLAND. -/
def State.srcError (s : State) (c : ChNo) : Option (BitVec 3) :=
  let h := s.dma[c]
  let a := s.readAddr c
  match regionOf s.member a with
  | .slice u => if s.chRead c u then none else some 1
  | .shared => none
  | .nvm => if s.flashBusy (a - 0x3000_0000) then some 1 else none
  | .rom => none
  | .islMem n => if s.running n then none else some 4
  | .reg =>
    if h.lenf.getLsbD 30 ∧ ((portOf s.member 0x3800 a).isSome ∨ (portOf s.member 0x3900 a).isSome ∨ a = 0x3940) then none else some 1
  | _ => some 1

/-- The same for a destination: 2 DST. A write of OCMD to an island that is not RUNNING is no failure (R259). -/
def State.dstError (s : State) (c : ChNo) : Option (BitVec 3) :=
  let h := s.dma[c]
  let a := h.dst.toNat / 4 * 4
  match regionOf s.member a with
  | .slice u => if s.chWrite c u then none else some 2
  | .shared => none
  | .islMem n => if s.running n then none else some 4
  | .reg => if h.lenf.getLsbD 29 ∧ ((portOf s.member 0x3A00 a).isSome ∨ a = 0x1008) then none else some 2
  | _ => some 2

/-- A word is read for channel c (R255): an island answers later, so that the channel loses its turn until then, the NVM window on the
eighth tick, and an empty stream lets the channel wait. -/
def State.moveRead (s : State) (c : ChNo) : State :=
  let a := s.readAddr c
  let reads (s : State) : State := s.modCh c (fun h => { h with reading := h.reading + 1 })
  let got (s : State) (v : Word) : State := (reads s).modCh c (fun h => h.take v)
  match s.srcError c with
  | some e => s.dmaFail c e (BitVec.ofNat 32 a) 1
  | none =>
    match regionOf s.member a with
    | .slice _ => got s (s.sramWord a)
    | .shared => got s (s.sramWord a)
    | .nvm => { reads s with nvmRd := some (c, s.tick + 7) }
    | .rom => got s (romWord (a - 0x3F00_0000))
    | .islMem n =>
      if s.queueFull n then s
      else { reads s with moved := c }.send n (.dma c) (.raddr (BitVec.ofNat 32 (2 ^ 31 + a % 0x4000))) (BitVec.ofNat 32 a)
    | .reg =>
      match portOf s.member 0x3800 a with
      | some n => if s.isl[n].rstream = [] then s else (let (s, v) := s.rstreamTake n; got s v)
      | none => got s (s.imgWord ((a - 0x3900) / 4))
    | _ => s

/-- The read of the NVM window for channel c ends: the channel takes the word, if it still moves (R255). -/
def State.nvmRead (s : State) (c : ChNo) : State :=
  let u := { s with nvmRd := none }
  if s.dma[c].st = .move ∧ s.dma[c].reading ≠ 0 then u.modCh c (fun h => h.take (s.windowWord (h.src.toNat / 4 * 4 - 0x3000_0000))) else u

/-- Signed 32-bit saturation. -/
def sat32 (v : Int) : Word := BitVec.ofInt 32 (clampInt (-2147483648) 2147483647 v)

/-- The scaler's y for x (R256). -/
def State.scale (s : State) (c : ChNo) (w : Word) : Word :=
  let cfg := s.chWord c 0x20
  let x : Int := match fld cfg 20 2 with
    | 1 => (w.extractLsb' 0 18).toInt
    | 2 => (w.extractLsb' 0 16).toInt
    | _ => w.toInt
  sat32 ((x * (s.chWord c 0x28).toInt) / ((2 ^ fld cfg 24 5 : Nat) : Int) + (s.chWord c 0x2C).toInt)

/-- The word of channel c waits for the scaler (R255). -/
def Channel.unscaled (h : Channel) : Bool := decide (h.st = .move) && h.buf.isSome && h.lenf.getLsbD 28 && !h.scaled

/-- The scaler does its part in a lent slot (R256). -/
def State.scaleStep (s : State) (c : ChNo) : State :=
  match s.dma[c].buf with
  | some w => if s.dma[c].unscaled then s.modCh c (fun h => { h with buf := some (s.scale c w), scaled := true }) else s
  | none => s

/-- After a word: addresses step, the count falls, and the descriptor ends or waits for its next pulse (R250, R251). -/
def State.moveNext (s : State) (c : ChNo) : State :=
  let s := s.modCh c (fun h =>
    { h with buf := h.more.head?, more := h.more.tail, scaled := false, words := satAdd h.words 1, remain := h.remain - 1,
             src := if h.lenf.getLsbD 30 then h.src else h.src + 4, dst := if h.lenf.getLsbD 29 then h.dst else h.dst + 4 })
  let s := { s with moved := c }
  if s.dma[c].remain = 0 then s.chComplete c else if s.chUnit c then s.chEnter c else s

/-- The cells of a word for island SRAM: a WADDR where the write does not go on from the channel's last word, and a WDATA (R35, R255). -/
def State.moveCells (s : State) (c : ChNo) (n : IslandNo) (a : Nat) (w : Word) : State :=
  let s := if s.isl[n].wrun = some (.dma c, a) then s
    else s.send n (.dma c) (.waddr (BitVec.ofNat 32 (2 ^ 31 + a % 0x4000))) (BitVec.ofNat 32 a)
  s.send n (.dma c) (.wdata w) (BitVec.ofNat 32 a)

/-- The word that channel c holds is written (R255); an island or output queue that is full lets the channel wait. Log entry 22. A write
of UNLOCK fails, and returns its sequence to the start (R408). -/
def State.moveWrite (s : State) (c : ChNo) : State :=
  let h := s.dma[c]
  let a := h.dst.toNat / 4 * 4
  match h.buf with
  | none => s
  | some w =>
    if h.unscaled then s
    else match s.dstError c with
    | some e => (if a = 0x9004 then s.unlockWrite (.dma c) w else s).dmaFail c e (BitVec.ofNat 32 a) 2
    | none =>
      match regionOf s.member a with
      | .slice _ => (s.putSram a w).moveNext c
      | .shared => (s.putSram a w).moveNext c
      | .islMem n =>
        if s.queueFull n then s else (s.moveCells c n a w).moveNext c
      | .reg =>
        match portOf s.member 0x3A00 a with
        | some n =>
          if s.takesOut n && s.queueFull n then s else (s.outCmd (.dma c) n w (BitVec.ofNat 32 a)).moveNext c
        | none => (s.slateStage w).moveNext c
      | _ => s

/-- WORD_MOVE (R255): the word that channel c holds is written, and read before if it holds none. -/
def execWordMove (c : ChNo) (s : State) : Host.Outcome State Fault Refusal :=
  s.act fun s =>
    if s.dma[c].st = .move then
      let s := if s.dma[c].ahead = 0 then s.moveRead c else s
      if s.dma[c].st = .move then s.moveWrite c else s
    else s

end Sys2Proof.Machine
end

