-- ==== Sys2Proof/Machine/Tandem.lean ====
section
/-! DEFINITION. The tandem link, roles, epochs, and the ways into and out of the active role (R329-R348). -/

namespace Sys2Proof.Machine

/-! ## Frames -/

/-- TANDEM after f. -/
def State.modTan (s : State) (f : Tandem → Tandem) : State := { s with tan := f s.tan }

/-- Fields of TANDEM.CFG; a field that no slate set counts as the least legal value, or as R348 says of 0. -/
def State.tanPaired (s : State) : Bool := decide (fld (s.cfgAt 0x8000) 30 2 = 1)
def State.tanHac (s : State) : Bool := (s.cfgAt 0x8000).getLsbD 29
def State.tanE (s : State) : Nat := max 1 (fld (s.cfgAt 0x8000) 16 6)
def State.tanLoss (s : State) : Nat := 1024 * (if fld (s.cfgAt 0x8000) 8 4 = 0 then 4 else fld (s.cfgAt 0x8000) 8 4)
def State.tanGap (s : State) : Nat := 64 * (if fld (s.cfgAt 0x8000) 0 8 = 0 then 8 else fld (s.cfgAt 0x8000) 0 8)

/-- A tandem header word (R329). -/
def tanHdr (type len : Nat) : Word := BitVec.ofNat 32 (0xA500_0000 + type * 2 ^ 20 + len)

/-- A frame of this type with this payload passes its checks (R332). -/
def tanGood (type : Nat) (payload : List Word) (crc : Word) (len : Nat) : Bool :=
  decide (payload.length = len) && decide (crc32c (tanHdr type payload.length :: payload) = crc)

/-- The device takes frames: its role is not SOLO, and its link has been READY since its last loss (R330, R333). -/
def State.tanTakes (s : State) : Bool := decide (s.tan.role ≠ .solo) && decide (s.tan.link = .ready)

/-- The transmitter's next idle beacon is due 1024 tk after it falls idle (R333). -/
def State.beaconDue (s : State) : State := (s.cancel .beaconSend).oweAt (laterTick s.tick s.tan.txBusy + 1024) .beaconSend

/-- A frame is sent: behind what is being sent, and no earlier than k ticks from now (R329, R331, R337). -/
def State.tanSend (s : State) (k type : Nat) (payload : List Word) : State :=
  let start := laterTick (s.tick + BitVec.ofNat 64 k) s.tan.txBusy
  let w := tanHdr type payload.length :: payload
  let done := start + BitVec.ofNat 64 (8 * (payload.length + 2))
  (s.modTan (fun t => { t with sent := t.sent ++ [(start, w ++ [crc32c w])], txBusy := done,
                               recEnd := if type = 1 then done else t.recEnd })).beaconDue

/-- A valid frame arrives: the loss limit starts again (R333). -/
def State.tanHeard (s : State) : State := (s.cancel .tandemLinkLoss).owe s.tanLoss .tandemLinkLoss

/-- TANDEM_EVT with a kind (R347). -/
def State.tanEvt (s : State) (kind : Byte) : State := s.raiseBy 0x39 .tandem 0 kind 0

/-- A frame is discarded (R332). -/
def State.tanDiscard (s : State) (isRecord : Bool) : State :=
  s.modTan (fun t => { t with perr := satAdd t.perr 1, partials := if isRecord then satAdd t.partials 1 else t.partials })

/-- TANDEM_FRAME_DISCARD (R332, R339). -/
def execTandemFrameDiscard (isRecord : Bool) (s : State) : Host.Outcome State Fault Refusal :=
  s.act fun s => if s.tanTakes then s.tanDiscard isRecord else s

/-! ## Training -/

/-- The training word TP (R67, R330). -/
def tpWord : Word := 0x6C93A55A

/-- The training word that answers TP (R330). -/
def tplWord : Word := 0x936C5AA5

/-- What the device sends while its link is not READY: TP until its receiver has locked, then TPL until the partner has locked too, then
idle; in SOLO idle (R330). -/
def Tandem.training (t : Tandem) : Option Word :=
  if t.role = .solo ∨ t.link = .ready then none else if !t.locked then some tpWord else if !t.peerTpl then some tplWord else none

/-- Training starts; what was being sent is cut off (R330). -/
def State.tanTrain (s : State) : State :=
  ((s.cancel .tandemLinkLoss).cancel .beaconSend).modTan (fun t =>
    { t with link := if t.link = .lost then .lost else .training, locked := false, peerTpl := false, sent := [], txBusy := 0, recEnd := 0 })

/-- TANDEM_LOCK (R330): the receiver has locked on TP or TPL; STAT.LINK reads TRAINING. tpl: the partner sends TPL or idle, so it has
locked too. -/
def execTandemLock (tpl : Bool) (s : State) : Host.Outcome State Fault Refusal :=
  s.act fun s =>
    if s.tan.role ≠ .solo ∧ s.tan.link ≠ .ready then s.modTan (fun t => { t with link := .training, locked := true, peerTpl := tpl })
    else s

/-- TANDEM_READY (R330, R333): a receiver that has locked takes 16 idle ticks; after a loss the link is restored. -/
def execTandemReady (s : State) : Host.Outcome State Fault Refusal :=
  s.act fun s =>
    if s.tan.role ≠ .solo ∧ s.tan.link ≠ .ready ∧ s.tan.locked then
      let again := s.tan.lostOnce
      let s := ((s.modTan (fun t => { t with link := .ready, lostOnce := false, peerTpl := true, frames := none })).tanHeard).beaconDue
      if again then s.tanEvt 6 else s
    else s

/-- TANDEM_LINK_LOSS (R333, R339): no valid frame has come for PLOSS x 1024 tk. -/
def execTandemLinkLoss (s : State) : Host.Outcome State Fault Refusal :=
  s.act fun s =>
    let u := s.settle .tandemLinkLoss
    if !s.isDue .tandemLinkLoss then s
    else if s.tan.role ≠ .solo ∧ s.tan.link = .ready then
      let u := u.modTan (fun t => { t with link := .lost, lostOnce := true, stale := t.stale || decide (t.role = .standby) })
      (u.tanTrain).raiseBy 0x38 .tandem 0 0 0
    else u

def Role.code : Role → Nat
  | .solo => 0 | .active => 1 | .standby => 2

/-- Role of a BEACON code (R332); 3 is no role. -/
def roleOfCode (v : Nat) : Role :=
  match v with
  | 1 => .active | 2 => .standby | _ => .solo

/-- The BEACON's payload (R332). -/
def State.beaconWord (s : State) : Word :=
  BitVec.ofNat 32 (s.tan.role.code * 2 ^ 30 + bit s.tan.stale 29 + bit s.fault.lockout 28)

/-- BEACON_SEND (R333): the transmitter has been idle for 1024 tk. -/
def execBeaconSend (s : State) : Host.Outcome State Fault Refusal :=
  s.act fun s =>
    let u := s.settle .beaconSend
    if !s.isDue .beaconSend then s
    else if s.tan.role ≠ .solo ∧ s.tan.link = .ready then u.tanSend 0 2 [s.beaconWord] else u

/-- Both devices report ACTIVE, the partner in the BEACON that has come: DUAL_ACTIVE is raised once (R333). -/
def State.dualCheck (s : State) : State :=
  let d := decide (s.tan.role = .active) && decide (s.tan.prole = .active)
  if d && !s.tan.dual then (s.modTan (fun t => { t with dual := true })).tanEvt 1 else s.modTan (fun t => { t with dual := d })

/-- BEACON (R332, R333). -/
def execBeacon (payload : List Word) (crc : Word) (s : State) : Host.Outcome State Fault Refusal :=
  s.act fun s =>
    if !s.tanTakes then s
    else if !tanGood 2 payload crc 1 then s.tanDiscard false
    else ((s.tanHeard).modTan (fun t => { t with prole := roleOfCode (fld (payload.getD 0 0) 30 2) })).dualCheck

/-! ## Records -/

/-- OUT[n] of a record: the last output word or command that landed; 0 for inputs (R338). -/
def State.recordOut (s : State) (n : IslandNo) : Word := if s.isl[n].pers.output then s.isl[n].lastOut else 0

/-- AUX[n] of a record (R338). -/
def State.recordAux (s : State) (n : IslandNo) : Word :=
  let i := s.isl[n]
  if i.pers = .diCnt then i.din.count
  else if i.pers.output then BitVec.ofNat 32 (bit i.governed 31 + i.safe.held.toNat)
  else 0

/-- EVT.HOLD: islands with a SAFE demand, and with FORCE, of the reflex table (R262). -/
def State.holdWord (s : State) : Nat :=
  islSum (fun n => bit (s.rfxDemand n).safe (16 + n.val) + bit (s.rfxDemand n).force n.val)

/-- Islands that are RUNNING and not in a shadow stage (R338). -/
def State.validMap (s : State) : Nat := islSum (fun n => bit (s.running n && !s.isl[n].shadow) n.val)

/-- Words 5-40 of a record as the device assembles them (R338). -/
def State.recordBody (s : State) : List Word :=
  let h := s.holdWord
  [BitVec.ofNat 32 (s.safe.cmd.toNat * 2 ^ 16 + h % 2 ^ 16), BitVec.ofNat 32 (h / 2 ^ 16 * 2 ^ 16 + s.validMap),
   s.evt.active.setWidth 32, s.evt.active.extractLsb' 32 32] ++ islands.map (fun n => s.recordOut n) ++ islands.map (fun n => s.recordAux n)

/-- Words 1-40 of a record; with HAC the buffer gives words 5-40 (R338, R340). -/
def State.recordWords (s : State) (epoch : Word) : List Word :=
  [epoch, s.tick.setWidth 32, s.tick.extractLsb' 32 32, s.slate.id] ++ (if s.tanHac then s.tan.hbuf.toList else s.recordBody)

/-- A record is captured and sent, from 4 tk after this tick on; without a ready buffer none is (R337, R340). -/
def State.capture (s : State) : State :=
  if s.tanHac && !s.tan.hrdy then s.modTan (fun t => { t with hskip := satAdd t.hskip 1 })
  else
    let e := s.tan.epochTx + 1
    let w := s.recordWords e
    (s.modTan (fun t => { t with epochTx := e, hrdy := t.hrdy && !s.tanHac })).tanSend 4 1 w

/-- The header of a recognised CYCLE frame: an epoch boundary, if it is due and the previous record has been sent (R337, R345). -/
def State.tanCycle (s : State) : State :=
  if s.tan.role = .active ∧ s.tan.link = .ready then
    let k : Nat := (s.tan.frames.getD s.tanE) + (if s.tan.frames.isSome then 1 else 0)
    if s.tan.frames.isSome && decide (k < s.tanE) then s.modTan (fun t => { t with frames := some k })
    else if s.tick < s.tan.recEnd then
      s.modTan (fun t => { t with frames := some k, defer := if t.deferred then t.defer else satAdd t.defer 1, deferred := true })
    else (s.modTan (fun t => { t with frames := some 0, deferred := false })).capture
  else s

/-- RECORD (R339): the standby takes the copy. -/
def execRecord (payload : List Word) (crc : Word) (s : State) : Host.Outcome State Fault Refusal :=
  s.act fun s =>
    if !s.tanTakes then s
    else if !tanGood 1 payload crc 40 then s.tanDiscard true
    else
      let s := s.tanHeard
      if s.tan.role = .standby then
        let mis := decide (payload.getD 3 0 ≠ s.slate.id)
        let new := mis && !s.tan.mismatch
        let s := s.modTan (fun t =>
          { t with copy := payload, epochRx := payload.getD 0 0,
                   rxtick := ((payload.getD 2 0) ++ (payload.getD 1 0) : BitVec 64), nocopy := false, stale := false, mismatch := mis })
        if new then s.tanEvt 2 else s
      else s

/-! ## Roles -/

/-- Every RUNNING island whose personality has a shadow stage is sent a CMD cell (R335). -/
def State.sendShadow (s : State) (on : Bool) : State :=
  islands.foldl (fun (s : State) (n : IslandNo) =>
    if s.running n && shadows (s.pers n) then s.send n .tandem (.cmd (if on then .shadow else .unshadow)) else s) s

/-- The device becomes STANDBY (R335, R339). -/
def State.toStandby (s : State) : State :=
  (s.modTan (fun t => { t with role := .standby, nocopy := true, frames := none, deferred := false })).sendShadow true

/-- An ACTIVE device becomes STANDBY (R347). -/
def State.demoted (s : State) : State := s.toStandby.tanEvt 4

/-- Training starts at a commit that turns SOLO to PAIRED, and the link is OFF and sends idle in SOLO (R330); a device that promotes keeps
its role and link until the promotion ends (R334). Log entry 15. -/
def State.tanLinkFor (s : State) : State :=
  if s.tan.pbusy then s
  else if s.tanPaired then
    if s.tan.link = .off then s.modTan (fun t => { t with link := .training, lostOnce := false, locked := false, peerTpl := false }) else s
  else (((s.cancel .tandemLinkLoss).cancel .beaconSend).cancel .ackSend).modTan (fun t =>
    { t with link := .off, lostOnce := false, ackDue := false, sent := [], txBusy := 0, recEnd := 0 })

/-- A STANDBY becomes SOLO: an output keeps its shadow stage until its first output word or command (R334); any other island leaves it by
an UNSHADOW cell (R335). -/
def State.soloIsland (s : State) (n : IslandNo) : State :=
  if (s.pers n).output then s.modIsl n (fun i => { i with shadowUntilCmd := i.shadow })
  else if s.running n && (s.isl[n].shadow || s.isl[n].down.any (fun c => decide (c.data = .cmd .shadow))) then
    s.send n .tandem (.cmd .unshadow)
  else s

/-- The role row of a commit (R334); while a promotion runs it waits. -/
def State.roleRow (s : State) : State :=
  if s.tan.pbusy then s.modTan (fun t => { t with commitWait := true })
  else
    let s := s.modTan (fun t => { t with commitWait := false })
    match s.tan.role, s.tanPaired with
    | .solo, true =>
      if islands.any (fun n => s.running n) then s.modTan (fun t => { t with role := .active, frames := none, deferred := false })
      else s.toStandby
    | .active, false => s.modTan (fun t => { t with role := .solo, hand := .none })
    | .standby, false => (islands.foldl State.soloIsland s).modTan (fun t => { t with role := .solo, hand := .none })
    | _, _ => s

/-- A promotion has ended: a role row that a commit left is applied (R334). -/
def State.promotionEnds (s : State) : State :=
  let s := s.modTan (fun t => { t with pbusy := false, hand := .none })
  if s.tan.commitWait then s.roleRow.tanLinkFor else s

/-! ## Promotion -/

/-- A counting input takes its count of the copy; an output takes OUT where the copy's VALIDMAP names it, and one that was in its safe
state takes HELD as its captured value, which the entry that the copied demands make on their way keeps (R344). -/
def State.applyOut (s : State) (n : IslandNo) : State :=
  let out := s.tan.copy.getD (8 + n.val) 0
  let aux := s.tan.copy.getD (24 + n.val) 0
  let i := s.isl[n]
  if !s.running n then s
  else if i.pers = .diCnt then s.modIsl n (fun i => { i with din := { i.din with count := aux } })
  else if i.pers.output then
    let s := if aux.getLsbD 31 then
        s.modIsl n (fun i => { i with safe := { i.safe with
          held := aux.extractLsb' 0 16, heldAt := if i.inSafe then none else some (s.tick + 14) } })
      else s
    if (s.tan.copy.getD 5 0).getLsbD n.val then
      s.modIsl n (fun i =>
        { i with cmd := { en := out.getLsbD 31, alm := out.getLsbD 30, value := out.extractLsb' 0 16, raw := false }, lastOut := out,
                 outBit := out.getLsbD 31, lane := { i.lane with out := if i.lane.force then i.lane.out else out.getLsbD 31 } })
    else s
  else s

/-- The copy is applied on one tick (R344). -/
def State.applyCopy (s : State) : State :=
  if s.tan.nocopy then
    islands.foldl (fun (s : State) (n : IslandNo) =>
      if s.isl[n].pers.output then s.modIsl n (fun i => { i with cmd := OutCmd.reset, lastOut := 0, outBit := false }) else s) s
  else
    let act : BitVec 64 := ((s.tan.copy.getD 7 0) ++ (s.tan.copy.getD 6 0) : BitVec 64)
    let s := islands.foldl (fun (s : State) (n : IslandNo) => s.applyOut n) s
    let s := { s with safe := { s.safe with cmd := s.safe.cmd ||| (s.tan.copy.getD 4 0).extractLsb' 16 16 } }
    let s := { s with evt := { s.evt with active := s.evt.active ||| act } }.rfxApply 0xFFFF
    let s := s.modTan (fun t => { t with epochTx := t.epochRx })
    if s.tan.stale || s.tan.mismatch then
      let outs : BitVec 16 := BitVec.ofNat 16 (islSum (fun n => bit (s.pers n).output n.val))
      { s with safe := { s.safe with cmd := s.safe.cmd ||| outs } }.tanEvt 7
    else s

/-- GAP_END (R342-R344): the device applies its copy, unshadows its islands and becomes ACTIVE. -/
def execGapEnd (s : State) : Host.Outcome State Fault Refusal :=
  s.act fun s =>
    let u := s.settle .gapEnd
    if !s.isDue .gapEnd then s
    else if s.tan.hand = .gap ∧ s.tan.role = .standby then
      let u := u.applyCopy
      let u := (u.modTan (fun t => { t with role := .active, frames := none, deferred := false, cres := 0 })).sendShadow false
      (u.lanesUpdate.tanEvt 3).promotionEnds
    else u

/-- The gap of a promotion begins (R342). -/
def State.gapBegin (s : State) : State :=
  ((s.cancel .ackTimeout).modTan (fun t => { t with hand := .gap, pbusy := true })).owe s.tanGap .gapEnd

/-- The final record of an active device, and its EPOCH; with HAC and no ready buffer there is none (R332, R340). -/
def State.finalRecord (s : State) : State :=
  let u := s.capture
  u.modTan (fun t => { t with final := if u.tan.epochTx = s.tan.epochTx then 0xFFFFFFFF else u.tan.epochTx })

/-- The active gives up its role, as at a TAKE (R342): final record, SHADOW cells, and ACK when they are acknowledged. -/
def State.giveUp (s : State) : State :=
  (((s.finalRecord).demoted).modTan (fun t => { t with hand := .none, ackDue := true, pbusy := false })).shadowCheck

/-- TAKE (R342): a STANDBY answers with no epoch. -/
def execTake (payload : List Word) (crc : Word) (s : State) : Host.Outcome State Fault Refusal :=
  s.act fun s =>
    if !s.tanTakes then s
    else if !tanGood 3 payload crc 0 then s.tanDiscard false
    else
      let s := s.tanHeard
      if s.tan.role = .active then s.giveUp else s.tanSend 0 4 [0xFFFFFFFF]

/-- ACK_SEND (R342): 64 tk after the SHADOW cells have been acknowledged; a link that is not READY carries no frame (R330). -/
def execAckSend (s : State) : Host.Outcome State Fault Refusal :=
  s.act fun s =>
    let u := s.settle .ackSend
    if !s.isDue .ackSend then s
    else if s.tan.ackDue then
      let u := u.modTan (fun t => { t with ackDue := false })
      if s.tanTakes then u.tanSend 0 4 [s.tan.final] else u
    else u

/-- ACK (R341, R342): the promoting device waits for its gap; the partner of a HANDOVER promotes as well. -/
def execAck (payload : List Word) (crc : Word) (s : State) : Host.Outcome State Fault Refusal :=
  s.act fun s =>
    if !s.tanTakes then s
    else if !tanGood 4 payload crc 1 then s.tanDiscard false
    else
      let s := s.tanHeard
      if s.tan.role = .standby ∧ (s.tan.hand = .awaitAck ∨ s.tan.hand = .none ∧ !s.tan.ackDue) then s.gapBegin else s

/-- RELEASE (R343). -/
def execRelease (payload : List Word) (crc : Word) (s : State) : Host.Outcome State Fault Refusal :=
  s.act fun s =>
    if !s.tanTakes then s
    else if !tanGood 5 payload crc 1 then s.tanDiscard false
    else
      let s := s.tanHeard
      if s.tan.role = .standby ∧ s.tan.hand ≠ .gap then s.gapBegin else s

/-- ACK_TIMEOUT (R342): no ACK has come within 8192 tk of TAKE. -/
def execAckTimeout (s : State) : Host.Outcome State Fault Refusal :=
  s.act fun s =>
    let u := s.settle .ackTimeout
    if !s.isDue .ackTimeout then s
    else if s.tan.hand = .awaitAck then ((u.modTan (fun t => { t with cres := 2 })).tanEvt 5).promotionEnds else u

/-- The active releases its role before it goes to Bedrock (R343): final record, RELEASE, STANDBY. -/
def State.release (s : State) : State :=
  if s.tan.role = .active then
    let s := s.finalRecord
    let s := s.tanSend 0 5 [s.tan.final]
    s.demoted
  else s

/-- A TANDEM command: the host link alone, and the refusals of R341. -/
def State.tanCmd (s : State) (m : Master) (role : Role) (link : Bool) (f : State → State) : State :=
  s.linkOnly m 0x8008 (fun s =>
    let refuse (k : BitVec 4) : State := s.modTan (fun t => { t with cres := k })
    if s.fault.lockout then refuse 5
    else if s.tan.role ≠ role then refuse 3
    else if s.tan.pbusy then refuse 4
    else if link && decide (s.tan.link ≠ .ready) then refuse 1
    else f (s.modTan (fun t => { t with cres := 0 })))

/-- CMD PROMOTE: TAKE goes out (R342). -/
def State.promote (s : State) (m : Master) : State :=
  s.tanCmd m .standby true (fun s =>
    ((s.modTan (fun t => { t with pbusy := true, hand := .awaitAck })).tanSend 0 3 []).oweAt
      (laterTick s.tick s.tan.txBusy + 8192) .ackTimeout)

/-- PROMOTE (R341, R342). -/
def execPromote (m : Master) (s : State) : Host.Outcome State Fault Refusal := s.act fun s => s.promote m

/-- CMD FORCE_PROMOTE: the copy alone, after GAP (R341). -/
def State.forcePromote (s : State) (m : Master) : State := s.tanCmd m .standby false State.gapBegin

/-- FORCE_PROMOTE (R341). -/
def execForcePromote (m : Master) (s : State) : Host.Outcome State Fault Refusal := s.act fun s => s.forcePromote m

/-- CMD HANDOVER: as though TAKE had come (R341). -/
def State.handover (s : State) (m : Master) : State := s.tanCmd m .active true State.giveUp

/-- HANDOVER (R341). -/
def execHandover (m : Master) (s : State) : Host.Outcome State Fault Refusal := s.act fun s => s.handover m

/-- CMD DEMOTE (R341). -/
def State.demote (s : State) (m : Master) : State := s.tanCmd m .active false State.demoted

/-- DEMOTE (R341). -/
def execDemote (m : Master) (s : State) : Host.Outcome State Fault Refusal := s.act fun s => s.demote m

/-- HRDY_WRITE (R340, R348): the host link or any thread. -/
def execHrdyWrite (_m : Master) (rdy : Bool) (s : State) : Host.Outcome State Fault Refusal :=
  s.act fun s => s.modTan (fun t => { t with hrdy := rdy })

end Sys2Proof.Machine
end

