-- ==== Sys2Proof/Machine/Reset.lean ====
section
/-! DEFINITION. Resets of level K0 to K3 and the start of timers and watchdog channels after them (R9, R241, R277, R353-R356,
R370). -/

namespace Sys2Proof.Machine

/-- The state after f as it stands on the next tick: what begins on the first tick after a reset or a stop. -/
def State.nextTick (s : State) (f : State → State) : State := { f { s with tick := s.tick + 1 } with tick := s.tick }

/-! ## Flint channels -/

/-- A Flint channel's registers begin here (R287). -/
def flintBase : FlintChan → Nat
  | .host => 0x5000 | .core => 0x5020

/-- The channel's state. -/
def State.flintCh (s : State) : FlintChan → FlintCh
  | .host => s.flint.host | .core => s.flint.core

/-- The channel after f. -/
def State.modFlint (s : State) (ch : FlintChan) (f : FlintCh → FlintCh) : State :=
  match ch with
  | .host => { s with flint := { s.flint with host := f s.flint.host } }
  | .core => { s with flint := { s.flint with core := f s.flint.core } }

/-- MODE of the channel: 0 OFF, 1 fixed key, 2 challenge-response (R287). -/
def State.flintMode (s : State) (ch : FlintChan) : Nat := fld (s.cfgAt (flintBase ch)) 30 2

/-- QHA of the channel (R287). -/
def State.flintQha (s : State) (ch : FlintChan) : Bool := (s.cfgAt (flintBase ch)).getLsbD 29

def State.flintWmin (s : State) (ch : FlintChan) : Nat := (s.cfgAt (flintBase ch + 4)).toNat

/-- WMAX: at least the larger of WMIN + 256 and 1024, also where no slate word set it (R287, log entry 24). -/
def State.flintWmax (s : State) (ch : FlintChan) : Nat :=
  max (s.cfgAt (flintBase ch + 8)).toNat (max (s.flintWmin ch + 256) 1024)

def State.flintSeed (s : State) (ch : FlintChan) : Word := s.cfgAt (flintBase ch + 12)

/-- The first question of a start (R279). -/
def firstQuestion (seed : Word) : BitVec 16 :=
  let q := seed.extractLsb' 16 16 ^^^ seed.extractLsb' 0 16
  if q = 0 then 0xACE1 else q

/-- The generator's step (R279). -/
def qStep (v : BitVec 16) : BitVec 16 := if v.getLsbD 0 then (v >>> 1) ^^^ 0xB400 else v >>> 1

/-- 16-bit rotation to the left (R279). -/
def rotl16 (v : BitVec 16) (r : Nat) : BitVec 16 := v.rotateLeft r

/-- One round of the token (R279). -/
def tokenRound (k1 : BitVec 16) (a : BitVec 16) (i : Nat) : BitVec 16 :=
  let b := rotl16 a 5 + k1 + BitVec.ofNat 16 i
  b ^^^ (b >>> 8)

/-- The token for question q under a seed (R279). -/
def token (q : BitVec 16) (seed : Word) : BitVec 16 :=
  tokenRound (seed.extractLsb' 16 16) (tokenRound (seed.extractLsb' 16 16) (q ^^^ seed.extractLsb' 0 16) 0) 1

/-- The window of a channel closes WMAX ticks after its start (R278). -/
def State.flintWindow (s : State) (ch : FlintChan) : State := (s.cancel (.windowClose ch)).owe (s.flintWmax ch) (.windowClose ch)

/-- The channel starts on this tick with elapsed = 0, or stops where the slate disables it (R277, R280). -/
def State.flintStart (s : State) (ch : FlintChan) : State :=
  if s.flintMode ch = 0 then (s.cancel (.windowClose ch)).modFlint ch (fun _ => FlintCh.reset)
  else
    (s.modFlint ch (fun _ =>
      { FlintCh.reset with st := .running, start := s.tick,
                           q := if s.flintMode ch = 2 then firstQuestion (s.flintSeed ch) else 0 })).flintWindow ch

/-- Channels start on the first tick after a K2 or K3 reset, while a slate that enables them is committed (R277). -/
def State.flintRestart (s : State) : State := s.nextTick (fun s => (s.flintStart .host).flintStart .core)

/-! ## K0 -/

/-- K0: fields with Keep "—" return to their reset values, HRAWR with its queue among them (R189); timers start on the next tick (R9,
R241, R370). Log entry 17. -/
def State.k0 (s : State) : State :=
  let s := s.cancel .loopApply
  let s := { s with link := { s.link with loopReq := 0, loopAct := 0 },
                    fault := { s.fault with injSrc := 0, injMid := 0 },
                    slate := { s.slate with keydata := Vector.replicate 8 0 },
                    pow := { s.pow with phase := 0, bank := false, skipped := false, berr := 0, ustep := 0 } }
  let s := islands.foldl (fun (s : State) (n : IslandNo) => s.modIsl n (fun i => { i with hart := { i.hart with rxq := [] } })) s
  s.nextTick State.tmrRestart

/-! ## K1 -/

/-- Link reads of the island are abandoned: their data is discarded when it arrives (R91). -/
def Island.orphanLink (i : Island) : Island :=
  { i with reads := i.reads.map (fun r => if r.1 = .link then (.island 0, r.2) else r),
           down := i.down.map (fun c => if c.req = .link ∧ c.data.rank = 4 then { c with req := .island 0 } else c) }

/-- K1: the command and read queues of the link empty, but for a frame that goes on executing; E is free, LINK_XERR clears (R91,
R370). -/
def State.k1 (s : State) (goesOn : List CmdFrame) : State :=
  let s := s.k0
  let s := islands.foldl (fun (s : State) (n : IslandNo) => s.modIsl n Island.orphanLink) s
  let s := if goesOn = [] then s.cancel .commandExecute else s
  { s with
      link := { s.link with expSeq := 0, eFree := true, queue := goesOn, readq := [], last := [], replay := false,
                            xseq := 0, xtype := 0, xword := 0, xerr := false } }

/-! ## K2 and K3 -/

/-- Work of a context, of the link and of the controller that a reset of level K2 or above ends. -/
def resetEnds : Instr → Bool
  | .intentRecovery => true
  | .counterIncrement => true
  | .markRejected _ _ => true
  | .markTrial _ _ => true
  | .bootBudget _ _ _ => true
  | .slateLoadNvm _ => true
  | .slateVerify _ => true
  | .slateCommit _ => true
  | .nvmLoadComplete _ => true
  | .verifyComplete => true
  | .softReset => true
  | .scanDone => true
  | .bootStart => true
  | .append _ _ _ => true
  | _ => false

/-- A K2 or K3 reset has been requested and has not been applied yet (R281, R353). -/
def State.resetPends (s : State) : Bool := s.pow.k2due || s.flint.resetDue

/-- Every context is killed, and the core returns to its reset state, but for what an instruction that has issued still does, with the
registers it issued with; context 0 starts the boot ROM in its first slot at or after 8 ticks (R215, R355, R357). -/
def State.facetReset (s : State) : State :=
  let s := contexts.foldl (fun (s : State) (t : CtxNo) => s.killCtx t) s
  let u := { s with facet := Facet.reset, pow := { s.pow with bootStep := 0, bootAt := none } }
  let u := contexts.foldl (fun (u : State) (t : CtxNo) =>
    u.modCtx t (fun c => { c with flight := s.facet.ctx[t].flight, old := s.facet.ctx[t].flown, left := s.facet.ctx[t].left })) u
  u.oweAt (slotFrom (s.tick + 8) 0) .bootStart

/-- Every channel is disabled, and its registers return to their reset values (R258, R370). -/
def State.dmaReset (s : State) : State :=
  let s := channels.foldl (fun (s : State) (c : ChNo) => s.chDisable c) s
  channels.foldl (fun (s : State) (c : ChNo) =>
    if s.chAuto c ∧ s.slate.committed then s.owe 1 (.autoStart c) else s) { s with dma := Vector.replicate 16 Channel.reset, nvmRd := none, appendAt := none }

/-- The slate session is discarded, before T_C with the commit it runs; from T_C on the commit goes on, and OWNER and COUNT stay with it
(R114, R118, R127; DEDUCED, log entry 71). -/
def State.sessionReset (s : State) : State :=
  if s.slate.st = .committing ∧ s.slate.switched then s
  else (s.cancel .commitSwitch).modSlate (fun z => { z with st := .empty, owner := none, staged := [], total := 0, fromNvm := false })

/-- The controller's step is over, its intent stays open, and it scans its journal (R310, R313). BOOTW, and what an image check found of
a bank, stand until the selection that follows (Keep K3 beside R320, R321; DESIGN CHOICE, log entry 73). -/
def State.nvmReset (s : State) : State :=
  let s := s.nvmCut true s.stepping
  ({ s with nvm := { s.nvm with st := .scan, rejectA := false, rejectB := false,
                                pbuf := Vector.replicate 64 0 },
            due := s.due.filter (fun e => !resetEnds e.2) }).owe 40960 .scanDone

/-- A test cell that has not left is discarded with its loopback. -/
def Island.dropTest (i : Island) : Island :=
  { i with loop := Loopback.reset,
           down := i.down.filter (fun c => c.sent || (match c.data with | .cmd (.test _) => false | _ => true)) }

/-- Every loopback ends, and its registers return to their reset values (R403, R410). -/
def State.loopReset (s : State) : State :=
  islands.foldl (fun (s : State) (n : IslandNo) => (s.loopEnd n 0 0).modIsl n Island.dropTest) s

/-- K2: what R355 and R370 say, for fields that keep less than K2. -/
def State.k2 (s : State) (c : Cause) : State :=
  let s := ((((s.nvmReset.facetReset).dmaReset).sessionReset).loopReset).k1 []
  let s := { s with
    link := { s.link with pres := if s.link.cur.isNone then 15 else s.link.pres, cur := s.link.cur.map (fun (f : CurFrame) => { f with void := true }) },
    pow := { s.pow with rcause := c, k2due := false } }
  s.flintRestart

/-- A K2 reset that waits comes when what it waited for has ended: a slice, or COMMITTING (R354). -/
def State.k2Wake (s : State) (k : Nat) : State :=
  if s.pow.k2due && !s.due.any (fun e => decide (e.2 = Instr.softReset)) then s.owe k .softReset else s

/-- Fields with Keep K2 return to their reset values at a K3 reset (R370). -/
def State.dropK2 (s : State) : State :=
  let s := s.cancel .budgetExpiry
  { s with
    rate := 0, clampLink := 0, clampT := Vector.replicate 8 0, clampSlate := 0, clampDma := 0,
    link := { s.link with errCrc := 0, errSeq := 0, errSync := 0, errFormat := 0, evDup := 0, evBusy := 0, evDown := 0,
                          evShort := 0 },
    slate := { s.slate with err := 0, errSec := 0, badcmd := false, sections := 0, clamps := 0, nvmaddr := 0, kres := 0 },
    nvm := { s.nvm with addr := 0, res := 0, steps := 0, skey := 0, slen := 0, hwstep := 0 },
    flint := { s.flint with armed := false, resetDue := false },
    tan := { s.tan with cres := 0 },
    pow := { s.pow with k1cnt := 0, k0cnt := 0 } }

/-- K3 (R281, R355). -/
def State.k3 (s : State) : State := (s.k2 .flint).dropK2

end Sys2Proof.Machine
end

