-- ==== Sys2Proof/Machine/Fault.lean ====
section
/-! DEFINITION. The fault collector's reactions: classes, reclaim, decisions, Halt recovery, escalation, injection (R288-R303). -/

namespace Sys2Proof.Machine

/-- The collector after f. -/
def State.modFault (s : State) (f : Collector → Collector) : State := { s with fault := f s.fault }

/-! ## Classes -/

/-- The Halt recovers QP x 256 ticks after its latest restart (R297). -/
def State.haltWait (s : State) : State :=
  (s.cancel .haltRecovery).oweAt
    (laterTick s.tick (s.fault.restart + BitVec.ofNat 64 (256 * (s.cfgAt 0x6028).toNat))) .haltRecovery

/-- A Halt comes into force, or restarts; not in a Lockout (R290, R297). -/
def State.haltOn (s : State) : State :=
  if s.fault.lockout then s
  else
    let s := s.modFault (fun f => { f with halt := true, restart := s.tick })
    (if s.fault.escalating then s else s.haltWait).lanesUpdate

/-- A commit that has not switched is abandoned (R118). -/
def State.abandonCommit (s : State) : State :=
  if s.slate.st = .committing ∧ !s.slate.switched then
    ((s.cancel .commitSwitch).modSlate (fun z => { z with st := .empty, owner := none, staged := [], total := 0, fromNvm := false })).k2Wake 1
  else s

/-- A Lockout comes into force: a Halt ends, an ACTIVE device releases its role, every island falls to Bedrock, and the Lockout
is counted (R290, R297, R299, R343). -/
def State.lockoutOn (s : State) : State :=
  if s.fault.lockout then s
  else
    let s := s.release
    let s := ((s.cancel .haltRecovery).cancel .escalationLockout).modFault (fun f =>
      { f with lockout := true, halt := false, escalating := false, rpend := f.rpend ||| 2 })
    let s := s.abandonCommit.killAll
    let s := islands.foldl (fun (s : State) (n : IslandNo) => s.modIsl n (fun i => { i with en := false })) s
    (s.lanesUpdate.marksEnd).nvmNext

/-- A Channel fault of island n: its CHFAULT bit, and the demand in a CMD cell; a RUNNING island alone (R290). -/
def State.channelOn (s : State) (n : IslandNo) : State :=
  if s.running n then
    (s.modFault (fun f => { f with chFault := f.chFault ||| (1#16 <<< n.val) })).send n .collector (.cmd .chanFault)
  else s

/-- A thread that dies by a reclaim takes with it the operation of the controller that it started (R301). -/
def State.reclaimNvm (s : State) (m : Byte) : State := if s.nvm.owner = m ∧ !s.nvm.redo then s.nvmReclaim else s

/-- RECLAIM takes back what the fault's master holds (R301). -/
def State.reclaim (s : State) (m : Byte) : State :=
  let k := m.toNat
  if 0x10 ≤ k ∧ k < 0x18 then (s.killCtx (Fin.ofNat 8 (k - 0x10))).reclaimNvm m
  else if 0x20 ≤ k ∧ k < 0x30 then s.chDisable (Fin.ofNat 16 (k - 0x20))
  else if k = 0x40 then s.nvmReclaim
  else if k = 0x41 ∧ s.slate.st ≠ .committing ∧ s.slate.st ≠ .empty then s.slateAbort
  else s

/-- The class of a fault acts, and its RECLAIM (R290, R301). -/
def State.react (s : State) (r : FaultRec) : State :=
  let s :=
    if r.cls = 1 then (if 0x30 ≤ r.mid.toNat ∧ r.mid.toNat < 0x40 then s.channelOn (Fin.ofNat 16 (r.mid.toNat - 0x30)) else s)
    else if r.cls = 2 then s.haltOn
    else if r.cls = 3 then s.lockoutOn
    else s
  if r.mtx.getLsbD 3 then s.reclaim r.mid else s

/-- FAULT_REACTION (R290): the classes that act on this tick. -/
def execFaultReaction (s : State) : Host.Outcome State Fault Refusal :=
  s.act fun s =>
    let s := s.settle .faultReaction
    let now := s.fault.react.filter (fun r => decide (r.act ≤ s.tick))
    now.foldl State.react (s.modFault (fun f => { f with react := f.react.filter (fun r => !decide (r.act ≤ s.tick)) }))

/-! ## Decisions -/

/-- The capture takes the class and DEC of its fault once they are known (R293). -/
def Collector.known (f : Collector) (r : FaultRec) : Collector :=
  if f.feValid ∧ r.capt ∧ f.fe.seq = r.seq then { f with fe := { f.fe with cls := r.cls, dec := r.dec } } else f

/-- A queued fault leaves the decision queue with a class, and its grace time ends: its record is written (R292, R296). Where a fault that
is 256 places younger waits under the same tag, that one stays with its own grace time. x: the fault as it stood in the queue. -/
def State.decided (s : State) (x r : FaultRec) : State :=
  ({ s with due := s.due.eraseP (fun e => decide (e.2 = .graceExpiry x.dtag) && decide (e.1 = x.act)) } : State).modFault
    (fun f => ({ f with dq := f.dq.erase x }.known r).log r)

/-- A DECIDE: a tag that names no fault within its grace sets DLATE (R292); a class that R291 limits counts as a clamp of the master
(R12, R304). -/
def State.decideWrite (s : State) (m : Master) (dtag : Byte) (cls : BitVec 2) : State :=
  match s.fault.dq.find? (fun x => decide (x.dtag = dtag) && decide (s.tick < x.act)) with
  | none => s.modFault (fun f => { f with dlate := true })
  | some x =>
    let r := { x with cls := BitVec.ofNat 2 (classClamp x.src.toNat cls.toNat), dec := 1, act := s.tick + 4 }
    let s := if r.cls = cls then s else s.clamped m 1
    ((s.decided x r).modFault (fun f => { f with react := f.react ++ [r] })).owe 4 .faultReaction

/-- DECIDE (R292): the host link or any thread. -/
def execDecide (m : Master) (dtag : Byte) (cls : BitVec 2) (s : State) : Host.Outcome State Fault Refusal :=
  s.act fun s =>
    match m with
    | .link => s.decideWrite m dtag cls
    | .thread _ => s.decideWrite m dtag cls
    | _ => s.accFault .master m 2 0x6020

/-- GRACE_EXPIRY (R292): the matrix class acts on c + G. -/
def execGraceExpiry (dtag : Byte) (s : State) : Host.Outcome State Fault Refusal :=
  s.act fun s =>
    match s.fault.dq.find? (fun x => decide (x.dtag = dtag) && decide (x.act ≤ s.tick)) with
    | none => s
    | some x =>
      let r := { x with cls := x.mtx.extractLsb' 0 2, dec := 2 }
      (s.decided x r).react r

/-! ## Recovery and escalation -/

/-- Window W of ESCW in ticks (R298). -/
def State.escWindow (s : State) : Nat := 65536 * (s.cfgAt 0x6030).toNat

/-- FAULT.HIST.RECENT: recoveries within the last W ticks (R298, R304). -/
def State.recent (s : State) : Nat :=
  (s.fault.hist.filter (fun t => decide (s.tick.toNat - t.toNat ≤ s.escWindow))).length

/-- A recovery that falls due escalates: K - 1 recoveries lie within W (R298). -/
def State.escalates (s : State) : Bool :=
  let k := fld (s.cfgAt 0x602C) 0 4
  decide (k ≠ 0) && decide (k - 1 ≤ s.recent)

/-- ESCALATE is raised, and a Lockout follows 4 ticks later (R298). -/
def State.escalate (s : State) : State :=
  ((s.modFault (fun f => { f with escalating := true })).raiseBy 0x2B .collector 0 0 0).owe 4 .escalationLockout

/-- The K0 reset of a recovery, and its count (R299, R372); one that is pending of a higher level absorbs it (R354). -/
def State.haltReset (s : State) : State :=
  if s.resetPends then s else s.k0.modPow (fun p => { p with k0cnt := satAdd p.k0cnt 1 })

/-- The Halt recovers: a K0 reset, the end of its marks and SAFE bits, and a count (R297-R299). -/
def State.recoverHalt (s : State) : State :=
  let s := s.haltReset
  let s := { s with fault := { s.fault with halt := false, hist := (s.tick :: s.fault.hist).take 15, rpend := s.fault.rpend ||| 1 } }
  (s.lanesUpdate.marksEnd).nvmNext

/-- HALT_RECOVERY (R297, R298). -/
def execHaltRecovery (s : State) : Host.Outcome State Fault Refusal :=
  s.act fun s =>
    let s := s.settle .haltRecovery
    if s.fault.halt ∧ !s.fault.escalating ∧
        (s.fault.restart + BitVec.ofNat 64 (256 * (s.cfgAt 0x6028).toNat)) ≤ s.tick then
      (if s.escalates then s.escalate else s.recoverHalt)
    else s

/-- ESCALATION_LOCKOUT (R298). -/
def execEscalationLockout (s : State) : Host.Outcome State Fault Refusal :=
  s.act fun s =>
    let u := s.settle .escalationLockout
    if !s.isDue .escalationLockout then s else if s.fault.escalating then u.lockoutOn else u

/-! ## Channel faults -/

/-- A write of FAULT.CHCLR: a clear cell to every island of the mask that has a Channel fault (R302). Log entry 46. -/
def State.chclr (s : State) (mask : BitVec 16) : State :=
  islands.foldl (fun (s : State) (n : IslandNo) =>
    if mask.getLsbD n.val && s.fault.chFault.getLsbD n.val then s.send n .collector (.cmd .clear) else s) s

/-- CHCLR (R302): the host link or any thread. -/
def execChclr (m : Master) (mask : BitVec 16) (s : State) : Host.Outcome State Fault Refusal :=
  s.act fun s =>
    match m with
    | .link => s.chclr mask
    | .thread _ => s.chclr mask
    | _ => s.accFault .master m 2 0x6018

/-! ## Injection -/

/-- FLINT.LAST (R287): HOST's reason where HOST expired, else CORE's; CREASON where both did. -/
def ExpReason.code : ExpReason → Nat
  | .none => 0 | .early => 1 | .badkey => 2 | .late => 3 | .boot => 4

def Flint.lastWord (f : Flint) : Word :=
  BitVec.ofNat 32 (f.lastTick.toNat * 2 ^ 16 + (if f.chan = 3 then f.coreReason.code * 2 ^ 8 else 0) +
    (if f.chan.getLsbD 0 then f.hostReason.code else f.coreReason.code) * 2 ^ 4 + f.chan.toNat)

/-- DETAIL of a source's record (R295). -/
def State.detailOf (s : State) (src m : Byte) : Word :=
  if src = 0x28 then s.flint.lastWord
  else if 0x30 ≤ m.toNat ∧ m.toNat < 0x40 ∧ (src = 0x31 ∨ 0x40 ≤ src.toNat) then
    let i := s.isl[(Fin.ofNat 16 (m.toNat - 0x30) : IslandNo)]
    if i.pers.analog then i.adiag.setWidth 32 else i.diag.setWidth 32
  else 0

/-- A write of FAULT.INJ (R303). -/
def State.inject (s : State) (m : Master) (go : Bool) (src midv : Byte) : State :=
  if !s.pow.ftm then s
  else if m ≠ .link then s.accFault .master m 2 0x6060
  else
    let s := s.modFault (fun f => { f with injSrc := src, injMid := midv })
    if go && srcListed src.toNat then s.raise src midv 7 0 0 (s.detailOf src midv) true else s

/-- FAULT_INJECT (R303): GO. -/
def execFaultInject (m : Master) (src mid : Byte) (s : State) : Host.Outcome State Fault Refusal :=
  s.act fun s => s.inject m true src mid

/-! ## Host-die temperature -/

/-- HOST_HOT (R288): the condition raises once. -/
def execHostHot (s : State) : Host.Outcome State Fault Refusal :=
  s.taken .hostHot fun s =>
    if s.pow.hot then s else ({ s with pow := { s.pow with hot := true, above115 := true } }).raiseBy 0x30 .thermal 6 0 0

/-- HOST_HOT_END (R288, R309): the die is not above the limit of HOST_HOT, and above115 tells on which side of 115 °C it is, the
limit of NVM operations; a die that crosses 115 °C without having been hot comes with this row as well (log entry 38). -/
def execHostHotEnd (above115 : Bool) (s : State) : Host.Outcome State Fault Refusal :=
  s.taken (.hostHotEnd above115) fun s =>
    ({ s with pow := { s.pow with hot := false, above115 := above115 } }).nvmNext

end Sys2Proof.Machine
end

