-- ==== Sys2Proof/Machine/Safe.lean ====
section
/-! DEFINITION. Safe-state latches of the host die, the stillness guard and Flint (R269-R287). -/

namespace Sys2Proof.Machine

/-- The latches after f; every lane follows (R269). -/
def State.modSafe (s : State) (f : Safety → Safety) : State := ({ s with safe := f s.safe }).lanesUpdate

/-- A safe demand ends: SAFE marks without a cause end with it (R268, R269). -/
def State.safeEnds (s : State) (f : Safety → Safety) : State := (s.modSafe f).marksEnd

/-! ## SAFE_N and the stillness guard -/

/-- SAFE_N_ASSERT (R270): the land is low for long enough. SAFE_IN is recorded on this tick, or on the first tick after a stop.
A K4 reset holds the latch clear. -/
def execSafeNAssert (s : State) : Host.Outcome State Fault Refusal :=
  let s := { s with safe := { s.safe with safePin := true, safeHigh := false } }
  .next (
    if s.pow.k4 ∨ s.safe.safeN then s
    else if s.clocked then (s.modSafe (fun z => { z with safeN := true })).raiseBy 0x2A .safeN 0 0 0
    else s.modSafe (fun z => { z with safeN := true, recSafeN := true }))

/-- SAFE_N_HIGH (R276): held tells whether the land has been high for 0.5 us. -/
def execSafeNHigh (held : Bool) (s : State) : Host.Outcome State Fault Refusal :=
  .next { s with safe := { s.safe with safePin := false, safeHigh := held } }

/-- GUARD.ARMED (R275). -/
def State.armed (s : State) : Bool := (s.cfgAt 0x14C).getLsbD 31 && islands.any (fun n => s.isl[n].powered)

/-- STILLNESS_TRIP (R275): an armed guard sets the stillness latch once. STILL_TRIP is recorded on the first tick after the
stop (R270). -/
def execStillnessTrip (s : State) : Host.Outcome State Fault Refusal :=
  .next (
    if !s.armed || !s.safe.charged || s.safe.still || s.pow.k4 then s
    else if s.clocked then (s.modSafe (fun z => { z with still := true })).raiseBy 0x29 .guard 0 0 0
    else s.modSafe (fun z => { z with still := true, recStill := true }))

/-- INTEGRATOR_DISCHARGED (R274): 32 edges in a row have come. -/
def execIntegratorDischarged (s : State) : Host.Outcome State Fault Refusal :=
  .next (if s.pow.hck ∧ s.isDue .integratorDischarged then
      { s.settle .integratorDischarged with safe := { s.safe with charged := false } } else s)

/-- CLR_STILL of SAFE_CTRL (R276). -/
def State.clrStill (s : State) : State := if s.safe.charged then s else s.safeEnds (fun z => { z with still := false })

/-- CLR_SAFEN of SAFE_CTRL (R276). -/
def State.clrSafeN (s : State) : State := if s.safe.safeHigh then s.safeEnds (fun z => { z with safeN := false }) else s

/-- CLR_FRESET of SAFE_CTRL (R285). -/
def State.clrFreset (s : State) : State := s.safeEnds (fun z => { z with flint := false })

/-- CLR_STILL (R276). -/
def execClrStill (m : Master) (s : State) : Host.Outcome State Fault Refusal := s.act fun s => s.linkOnly m 0x148 State.clrStill

/-- CLR_SAFEN (R276). -/
def execClrSafen (m : Master) (s : State) : Host.Outcome State Fault Refusal := s.act fun s => s.linkOnly m 0x148 State.clrSafeN

/-- CLR_FRESET (R285). -/
def execClrFreset (m : Master) (s : State) : Host.Outcome State Fault Refusal := s.act fun s => s.linkOnly m 0x148 State.clrFreset

/-- SAFE_CMD_WRITE (R285): by any master. -/
def State.safeCmdWrite (s : State) (w : Word) : State := s.safeEnds (fun z => { z with cmd := w.extractLsb' 0 16 })

def execSafeCmdWrite (_m : Master) (w : Word) (s : State) : Host.Outcome State Fault Refusal :=
  s.act fun s => s.safeCmdWrite w

/-! ## Flint -/

/-- Elapsed count of a channel (R277, R281). -/
def State.elapsed (s : State) (ch : FlintChan) : Nat :=
  let c := s.flintCh ch
  match c.st with
  | .off => 0
  | .expired => c.stood.toNat
  | .running => s.tick.toNat - c.start.toNat

/-- The current question; one that is on its way is taken from its tick on (R278, R280). -/
def State.question (s : State) (ch : FlintChan) : BitVec 16 :=
  match (s.flintCh ch).qnew with
  | some (t, q) => if t ≤ s.tick then q else (s.flintCh ch).q
  | none => (s.flintCh ch).q

/-- Bit of a channel in LAST.CHAN and PEND. -/
def flintBit : FlintChan → BitVec 2
  | .host => 1 | .core => 2

/-- A channel expires: the Flint latch, LAST, PEND, FLINT_EXPIRE, and one K3 reset 32 ticks after the first (R281). -/
def State.expire (s : State) (ch : FlintChan) (r : ExpReason) : State :=
  let first := !s.flint.resetDue
  let e := BitVec.ofNat 64 (s.elapsed ch)
  let s := (s.cancel (.windowClose ch)).modFlint ch (fun c => { c with st := .expired, stood := e })
  let f := s.flint
  let f := { f with
    lastTick := if first then s.tick.extractLsb' 0 16 else f.lastTick,
    chan := (if first then 0 else f.chan) ||| flintBit ch,
    hostReason := if ch = .host then r else if first then .none else f.hostReason,
    coreReason := if ch = .core then r else if first then .none else f.coreReason,
    pend := f.pend ||| flintBit ch, resetDue := true }
  let s := ({ s with flint := f }.modSafe (fun z => { z with flint := true })).raise 0x28 (mid .flint) 0 0 0 f.lastWord false
  (if first then s.owe 32 .flintReset else s).nvmNext

/-- A question is on its way on tick t: it was written before a kick of that tick, and is the next one (R280). -/
def FlintCh.asked (c : FlintCh) (t : Tick) : Bool := match c.qnew with | some (u, _) => decide (t < u) | none => false

/-- A kick is judged (R278). -/
def State.judge (s : State) (ch : FlintChan) (key : BitVec 16) : State :=
  if (s.flintCh ch).st ≠ .running then s
  else if s.elapsed ch < s.flintWmin ch then s.expire ch .early
  else if s.flintWmax ch ≤ s.elapsed ch then s.expire ch .late
  else
    let q := s.question ch
    let want := if s.flintMode ch = 2 then token q (s.flintSeed ch) else 0xC35A
    if key ≠ want then s.expire ch .badkey
    else
      let t := s.tick
      let two := decide (s.flintMode ch = 2)
      let qha := s.flintQha ch
      (s.modFlint ch (fun c =>
        { c with start := t, q := q,
                 qnew := if two && !qha then some (t + 1, qStep q) else if c.asked t then c.qnew else none,
                 qstale := if two && qha && !c.asked t then true else c.qstale })).flintWindow ch

/-- CFG.OWNER of the CORE channel admits the thread (R277). -/
def State.flintOwner (s : State) (t : CtxNo) : Bool :=
  let o := fld (s.cfgAt 0x5020) 0 4
  decide (o = t.val) || decide (8 ≤ o)

/-- The master may kick the channel (R278). -/
def State.mayKick (s : State) (m : Master) (ch : FlintChan) : Bool :=
  match ch, m with
  | .host, .link => true
  | .core, .thread t => s.flintOwner t
  | _, _ => false

/-- A write of KICK (R278). -/
def State.kick (s : State) (m : Master) (ch : FlintChan) (key : BitVec 16) : State :=
  if s.mayKick m ch then s.judge ch key else s.accFault .master m 2 (flintBase ch + 0x18)

/-- KICK (R278). -/
def execKick (m : Master) (ch : FlintChan) (key : BitVec 16) (s : State) : Host.Outcome State Fault Refusal :=
  s.act fun s => s.kick m ch key

/-- The master may supply questions of the channel (R280). -/
def mayAsk (m : Master) (ch : FlintChan) : Bool :=
  match ch, m with
  | .host, .thread _ => true
  | .core, .link => true
  | _, _ => false

/-- A write of QW: the question is ready one tick later; without QHA the write is ignored (R280). Log entry 29. -/
def State.qwWrite (s : State) (m : Master) (ch : FlintChan) (q : BitVec 16) : State :=
  if !mayAsk m ch then s.accFault .master m 2 (flintBase ch + 0x14)
  else if s.flintQha ch ∧ (s.flintCh ch).st = .running then
    let cur := s.question ch
    s.modFlint ch (fun c => { c with q := cur, qnew := some (s.tick + 1, q), qstale := false })
  else s

/-- QW_WRITE (R280). -/
def execQwWrite (m : Master) (ch : FlintChan) (q : BitVec 16) (s : State) : Host.Outcome State Fault Refusal :=
  s.act fun s => s.qwWrite m ch q

/-- WINDOW_CLOSE (R278): elapsed has reached WMAX. -/
def execWindowClose (ch : FlintChan) (s : State) : Host.Outcome State Fault Refusal :=
  s.act fun s =>
    let s := s.settle (.windowClose ch)
    if (s.flintCh ch).st = .running ∧ s.flintWmax ch ≤ s.elapsed ch then s.expire ch .late else s

/-- FLINT_RESET (R281): the K3 reset, 32 tk after the first expiry, which waits for the end of an NVM slice. -/
def execFlintReset (s : State) : Host.Outcome State Fault Refusal :=
  s.act fun s =>
    let u := s.settle .flintReset
    if !s.isDue .flintReset then s else if s.flint.resetDue ∧ !s.slicing then u.k3 else u

/-! ## The trial-boot budget -/

/-- CONFIRM clears ARMED (R283). -/
def State.bootConfirm (s : State) : State := { s.cancel .budgetExpiry with flint := { s.flint with armed := false } }

/-- A write of FLINT.BOOT (R283): a budget only from context 0 in the boot ROM; CONFIRM from any master. -/
def State.bootWrite (s : State) (m : Master) (budget : BitVec 16) (confirm : Bool) : State :=
  let s :=
    if budget = 0 then s
    else if m = .thread 0 ∧ s.inRom 0 then
      ({ s.cancel .budgetExpiry with flint := { s.flint with armed := true } }).owe (65536 * budget.toNat) .budgetExpiry
    else s.accFault .master m 2 0x5050
  if confirm then s.bootConfirm else s

/-- BOOT_BUDGET (R283). -/
def execBootBudget (m : Master) (budget : BitVec 16) (confirm : Bool) (s : State) : Host.Outcome State Fault Refusal :=
  s.act fun s => (s.settle (.bootBudget m budget confirm)).bootWrite m budget confirm

/-- BOOT_CONFIRM (R283): by any master. -/
def execBootConfirm (_m : Master) (s : State) : Host.Outcome State Fault Refusal := s.act State.bootConfirm

/-- BUDGET_EXPIRY (R283): the count has ended; it counts on the CORE channel with reason BOOT. Log entry 43. -/
def execBudgetExpiry (s : State) : Host.Outcome State Fault Refusal :=
  s.act fun s =>
    let u := s.settle .budgetExpiry
    if !s.isDue .budgetExpiry then s
    else if s.flint.armed then
      let u := { u with flint := { u.flint with armed := false } }
      if u.flint.core.st = .expired then u else u.expire .core .boot
    else u

end Sys2Proof.Machine
end

