-- ==== Sys2Proof/Machine/Commit.lean ====
section
/-! DEFINITION. The commit from T_C on: switch, island phase, full pass, completion, and orphaned reflex holds (R118-R126). -/

namespace Sys2Proof.Machine

/-! ## Before and after the switch -/

/-- A register word differs between two configurations. -/
def State.changedAt (s : State) (old : Words) (a : Nat) : Bool :=
  decide (sget (cfgReset s.member) old a ≠ s.cfgAt a)

/-- One of k words from an address up differs. -/
def State.changedFrom (s : State) (old : Words) (a k : Nat) : Bool :=
  (List.range k).any (fun i => s.changedAt old (a + 4 * i))

/-- The record of island n differs from the one committed before (R118). -/
def State.recordChanged (s o : State) (n : IslandNo) : Bool := decide (s.recordOf n ≠ o.recordOf n)

/-! ## The switch -/

/-- The slate's requests take the place of those written before (R61, R108). -/
def Island.requestsOf (w : Word) (i : Island) : Island :=
  { i with led := { i.led with reqRung := w.extractLsb' 0 2, reqHart := w.extractLsb' 2 2, reqChar := w.getLsbD 4 } }

/-- The island phase of island n: PREP where PERS changed, and the record and APPLY once PREP has left; an island that turns OFF
falls to Bedrock (R118, R121). On a device that stays STANDBY the shadow stage that the new personality asks for is in place before APPLY
(R334, R335). In a Lockout no cell is sent. -/
def State.islandPhase (s o : State) (n : IslandNo) : State :=
  if s.pers n = .off ∧ o.pers n ≠ .off then (s.modIsl n (fun i => { i with en := false })).killPowered n
  else if s.running n && s.recordChanged o n && !s.fault.lockout then
    if s.pers n = o.pers n then s.sendRecord n
    else
      let s := s.send n .slate (.cmd .prep)
      if o.tan.role = .standby ∧ (s.tanPaired ∨ s.tan.pbusy) then s.send n .tandem (.cmd (if shadows (s.pers n) then .shadow else .unshadow)) else s
  else s

/-- An entry of the reflex table that was active and is no longer there leaves its hold behind (R122). -/
def State.orphan (s o : State) (i : Fin 64) : State :=
  if s.evt.active.getLsbD i && (s.changedAt o.cfg (0x2400 + 8 * i.val) || s.changedAt o.cfg (0x2404 + 8 * i.val)) then
    let a := o.rfxAct i
    let s := { s with evt := { s.evt with active := s.evt.active &&& ~~~(1#64 <<< i.val), trig := s.evt.trig.set i none } }
    islands.foldl (fun (s : State) (n : IslandNo) =>
      if !a.getLsbD (16 + n.val) then s
      else if a.getLsbD 15 then s.modIsl n (fun i => { i with orphSafe := true })
      else s.modIsl n (fun i =>
        { i with orphForce := true, orphOut := (if i.orphForce then i.orphOut else true) && a.getLsbD 14,
                 orphPsel := if i.orphForce then i.orphPsel else a.extractLsb' 12 2 })) s
  else s

/-- Dividers of changed lines start afresh, and changed timers restart (R121, R238, R241). -/
def State.wire (s o : State) : State :=
  let s := (List.range 256).foldl (fun (s : State) (l : Nat) =>
    if s.changedAt o.cfg (0x2000 + 4 * l) then { s with evt := { s.evt with div := s.evt.div.set (Fin.ofNat 256 l) 0 } } else s) s
  timers.foldl (fun (s : State) (k : Fin 16) => if s.changedFrom o.cfg (0x2600 + 0x10 * k.val) 3 then s.tmrStart k else s) s

/-- Changed channels are disabled, and those with AUTO start on the next tick (R121, R261). -/
def State.dmaSwitch (s o : State) : State :=
  channels.foldl (fun (s : State) (c : ChNo) =>
    let s := if s.changedFrom o.cfg (0x3000 + 0x40 * c.val) 16 then s.chDisable c else s
    if s.chAuto c then s.owe 1 (.autoStart c) else s) s

/-- A changed channel of Flint restarts, or stops where the slate disables it; an expired one stands until its reset (R121,
R277, R281). -/
def State.flintSwitch (s o : State) (ch : FlintChan) : State :=
  if s.changedFrom o.cfg (flintBase ch) 4 ∧ (s.flintCh ch).st ≠ .expired then s.flintStart ch else s

/-- The configuration takes the staged values (R118). -/
def State.takeSlate (s : State) : State :=
  let w := s.slate.staged
  let x := stage s.member (sections w.length (w.drop 8)).1
  let s := { s with cfg := x.cfg, clampSlate := satAdd s.clampSlate s.slate.clamps.toNat }
  let s := s.modSlate (fun z =>
    { z with islmem := x.islmem, switched := true, tc := s.tick, id := w.getD 3 0, schema := (w.getD 4 0).extractLsb' 16 16 })
  islands.foldl (fun (s : State) (n : IslandNo) => s.modIsl n (Island.requestsOf (s.recAt n 0x10))) s

/-- T_C (R118, R121, R122). -/
def State.commitSwitch (o : State) : State :=
  let s := o.takeSlate.pulse 0x122
  let s := islands.foldl (fun (s : State) (n : IslandNo) => s.islandPhase o n) s
  let s := entries.foldl (fun (s : State) (i : Fin 64) => s.orphan o i) s
  let s := ((s.wire o).rfxApply 0xFFFF).tapEval s.itk
  let s := ((s.dmaSwitch o).flintSwitch o .host).flintSwitch o .core
  let s := if s.changedFrom o.cfg 0x6038 2 then s.modFault (fun f => { f with index := 0, logMoved := decide (f.logWord ≠ 0) }) else s
  let s := if s.fault.halt && !s.fault.escalating then s.haltWait else s
  (s.roleRow).tanLinkFor.commitCheck

/-- COMMIT_SWITCH (R118). -/
def execCommitSwitch (s : State) : Host.Outcome State Fault Refusal :=
  s.act fun s =>
    let s := s.settle .commitSwitch
    if s.slate.st = .committing ∧ !s.slate.switched then s.commitSwitch else s

/-- T_C has come: the switch goes before every event of the tick, which uses the new wiring (R121). -/
def State.commitDue (s : State) : State :=
  if s.isDue .commitSwitch then
    let s := s.settle .commitSwitch
    if s.slate.st = .committing ∧ !s.slate.switched then s.commitSwitch else s
  else s

/-! ## The full pass and the end -/

/-- FULL_PASS (R54, R60, R118): on the edge that is owed (R20); the arbiter is busy until the commit ends, within 512 tk (R119). -/
def execFullPass (s : State) : Host.Outcome State Fault Refusal :=
  s.timed .fullPass fun s =>
    if s.slate.st = .committing ∧ s.slate.switched ∧ !s.slate.passed then
      ({ s.fullPass with busy := true }.modSlate (fun z => { z with passed := true })).owe 512 .commitComplete
    else s

/-- RATE_MATCH (R126): DRATE is 0, or RATE is within 1 % of it. -/
def rateMatch (drate rate : Nat) : Bool :=
  decide (drate = 0) || (decide (100 * rate ≤ 101 * drate) && decide (99 * drate ≤ 100 * rate))

/-- COMMIT_COMPLETE (R60, R114): on the edge that is owed BUSY clears, and what waited for the commit goes on (R56, R354). -/
def execCommitComplete (s : State) : Host.Outcome State Fault Refusal :=
  s.timed .commitComplete fun s =>
    if s.slate.st = .committing ∧ s.slate.passed then
      let w := s.slate.staged
      let r := s.rate.toNat
      ({ s with busy := s.due.any (fun e => decide (e.2 = Instr.admissionComplete)) }.modSlate (fun z =>
        { z with st := .empty, owner := none, staged := [], total := 0, fromNvm := false, switched := false, passed := false,
                 committed := true, authed := (w.getD 1 0).getLsbD 0, rateMatch := rateMatch (fld (w.getD 5 0) 0 18) r,
                 ctick := z.tc })).k2Wake 0
    else s

/-! ## Orphaned holds -/

/-- A write of SLATE.HOLDCLR (R122). -/
def State.holdclr (s : State) (w : Word) : State :=
  (islands.foldl (fun (s : State) (n : IslandNo) =>
    if w.getLsbD n.val then s.modIsl n (fun i => { i with orphForce := false, orphOut := false, orphPsel := 0, orphSafe := false })
    else s) s).rfxApply (w.extractLsb' 0 16)

/-- HOLDCLR (R122). -/
def execHoldclr (_m : Master) (w : Word) (s : State) : Host.Outcome State Fault Refusal :=
  s.act fun s => s.holdclr w

end Sys2Proof.Machine
end

