-- ==== Sys2Proof/Machine/Power.lean ====
section
/-! DEFINITION. Supplies, K4 resets, soft resets, Park and Dormant, and stops of HCK (R14-R19, R349-R372). -/

namespace Sys2Proof.Machine

/-! ## K4 -/

/-- The cause takes VH away (R371). -/
def Cause.vh : Cause → Bool
  | .powerOn => true | .brownOut => true | .prsnt => true | _ => false

/-- The host side of an island at a K4 reset: its registers return to their reset values, and a KILL mark is out. What the island
itself holds ends when the mark arrives (R350). -/
def Island.hostReset (i : Island) : Island :=
  { Island.reset with
    rungs := i.rungs, rungNext := none, recd := i.recd, mem := i.mem, waddr := i.waddr, prep := i.prep, shadow := i.shadow,
    hold := i.hold, safe := i.safe, cmd := i.cmd, lastOut := i.lastOut, shadowUntilCmd := i.shadowUntilCmd, lane := i.lane,
    din := i.din, dout := i.dout, ana := i.ana, hart := i.hart, adc := i.adc, diag := i.diag, adiag := i.adiag, vfLow := i.vfLow,
    discharge := i.discharge }

/-- The controller after a K4 reset: what the store holds is kept, and so is an increment that waits while VH stays (R310, R315,
R371). -/
def Nvm.k4 (v : Nvm) (vh : Bool) : Nvm :=
  { Nvm.reset with mem := v.mem, rcnt := v.rcnt, cseq := v.cseq, cpos := v.cpos, jpos := v.jpos, iseq := v.iseq,
                   sseq := v.sseq, spos := v.spos, intents := v.intents, jtorn := v.jtorn, cpend := if vh then 0 else v.cpend }

/-- Flint after a K4 reset: LAST and PEND are held on VH (R371). -/
def Flint.k4 (f : Flint) (vh : Bool) : Flint :=
  if vh then Flint.reset
  else { Flint.reset with lastTick := f.lastTick, hostReason := f.hostReason, coreReason := f.coreReason, chan := f.chan, pend := f.pend }

/-- The power state while a K4 reset is asserted: pins and supplies stand, the cause is recorded (R356). -/
def Power.k4of (p : Power) (c : Cause) (vh : Bool) : Power :=
  { Power.reset with hck := p.hck, k4 := true, k4cause := c, vhLost := vh, rcause := c, vmicaOk := p.vmicaOk, prsntLow := p.prsntLow,
                     above115 := p.above115, lmodeHigh := p.lmodeHigh, almh0 := p.almh0, almh1 := p.almh1, testLow := p.testLow, ir := p.ir }

/-- The K4 reset is asserted: KILL marks go to every island, and every field that does not survive it returns to its reset value
(R350, R370, R371). SRAM is undefined from here; an unwritten byte reads 0 (log entry 7). Log entry 18. -/
def State.k4Assert (s : State) (c : Cause) : State :=
  let vh := s.pow.vhLost || c.vh
  if s.pow.k4 then
    { s with pow := { s.pow with vhLost := vh }, flint := s.flint.k4 vh, nvm := s.nvm.k4 vh,
             fault := { s.fault with rpend := if vh then 0 else s.fault.rpend } }
  else
    let s := s.nvmCut true s.stepping
    { State.reset with
      pending := s.pending, due := [], transit := [], member := s.member, isl := s.isl.map Island.hostReset,
      slate := { Slate.reset with keys := s.slate.keys, authReq := s.slate.authReq },
      flint := s.flint.k4 vh, nvm := s.nvm.k4 vh, fault := { Collector.reset with rpend := if vh then 0 else s.fault.rpend },
      safe := { Safety.reset with charged := s.safe.charged, scanMark := s.safe.scanMark, safePin := s.safe.safePin,
                                  safeHigh := s.safe.safeHigh },
      pow := s.pow.k4of c vh, free := s.free }

/-- A reset that an ACTIVE device may defer: the final RECORD and RELEASE leave first, at most 1024 tk later; the KILL marks are
not deferred (R343, R350). -/
def State.k4Defer (s : State) (c : Cause) : State :=
  if s.tan.role = .active ∧ s.pow.hck ∧ !s.pow.k4 ∧ !s.pow.deferral then
    let s := s.release.killAll
    let s := s.nvmCut true s.stepping
    let last := if s.tan.txBusy ≤ s.tick + 1024 then laterTick s.tick s.tan.txBusy else s.tick + 1024
    ({ s with due := [], transit := [], pow := { s.pow with deferral := true, k4cause := c, vhLost := c.vh } }).oweAt last .deferralEnd
  else s.k4Assert c

/-- BROWN_OUT (R349, R350): VH falls; never deferred. -/
def execBrownOut (s : State) : Host.Outcome State Fault Refusal := .next (s.k4Assert .brownOut)

/-- RST_N_ASSERT (R350): never deferred. -/
def execRstNAssert (s : State) : Host.Outcome State Fault Refusal := .next (s.k4Assert .rstN)

/-- PRSNT_N_REMOVAL (R270, R350). -/
def execPrsntNRemoval (s : State) : Host.Outcome State Fault Refusal :=
  .next ((s.modPow (fun p => { p with prsntLow := false })).k4Defer .prsnt)

/-- THERMAL_SHUTDOWN (R349, R350). -/
def execThermalShutdown (s : State) : Host.Outcome State Fault Refusal :=
  .next ((s.modPow (fun p => { p with above115 := true })).k4Defer .thermal)

/-- DEFERRAL_END (R350): RELEASE has left, or the limit or the analog timer has expired. -/
def execDeferralEnd (s : State) : Host.Outcome State Fault Refusal :=
  let s := s.settle .deferralEnd
  .next (if s.pow.deferral then s.k4Assert s.pow.k4cause else s)

/-- K4_RELEASE (R350, R351): the tick counter starts at 0, the straps are sampled, context 0 is due on tick 8 and the journal scan
within 40 960 tk. The 64 edges have discharged the guard (R274). A SAFE_N that is low sets its latch on this edge (R270). -/
def execK4Release (c : ReleaseLands) (s : State) : Host.Outcome State Fault Refusal :=
  .next (
    if s.pow.k4 ∧ s.pow.hck then
      let s := { s with
        tick := 0, due := [(8, .bootStart), (40960, .scanDone)], isl := Vector.replicate 16 Island.reset,
        link := { Link.reset with lmode := c.lmode, st := if c.lmode then .ready else .untrained },
        safe := { s.safe with safePin := c.safeLow, safeHigh := !c.safeLow, charged := false },
        pow := { s.pow with k4 := false, vhLost := false, prsntLow := true, lmodeHigh := c.lmode, almh0 := c.almh0, almh1 := c.almh1 } }
      if c.safeLow then (s.modSafe (fun z => { z with safeN := true })).raiseBy 0x2A .safeN 0 0 0 else s
    else s)

/-! ## VMICA -/

/-- VMICA_UNDERVOLTAGE (R352): every coupler stops; each island finds its carrier gone by itself (R46). -/
def execVmicaUndervoltage (s : State) : Host.Outcome State Fault Refusal :=
  .next (islands.foldl (fun (s : State) (n : IslandNo) => s.cancel (.vmicaHoldEnd n))
    ((s.cancel .vmicaReturn).modPow (fun p => { p with vmicaOk := false })))

/-- VMICA_RETURN (R352): islands that are still RUNNING on reservoir energy recharge from the reserve, two at a time; where V_CV
stands at V_CV_OK the 4096 itk begin. The ledger learns of it when clocked logic takes it (R16, R414). -/
def execVmicaReturn (s : State) : Host.Outcome State Fault Refusal :=
  (s.modPow (fun p => { p with vmicaOk := true })).taken .vmicaReturn fun s =>
    (islands.foldl (fun (s : State) (n : IslandNo) =>
      if s.running n && s.isl[n].safe.noCarrier then
        let s := if s.isl[n].charging then s else s.modIsl n (fun i => { i with waitCharge := true })
        if s.isl[n].cvOk then (s.cancel (.vmicaHoldEnd n)).owe (8192 + s.itk) (.vmicaHoldEnd n) else s
      else s) s).grantCharge

/-- VMICA_HOLD_END (R352): the 4096 itk have passed; the island leaves its safe state, unless another demand remains. -/
def execVmicaHoldEnd (n : IslandNo) (s : State) : Host.Outcome State Fault Refusal :=
  s.timed (.vmicaHoldEnd n) fun s =>
    if s.pow.vmicaOk ∧ s.running n ∧ s.isl[n].cvOk ∧ s.isl[n].safe.noCarrier then
      s.demands n (fun i => { i with safe := { i.safe with noCarrier := false } })
    else s

/-! ## Soft reset -/

/-- A write of HOST.RESET: the key and SOFT request a K2 reset on the 32nd tick (R353, R372). -/
def State.resetWrite (s : State) (w : Word) : State :=
  if fld w 16 16 = 0xA5C3 ∧ w.getLsbD 0 ∧ !s.pow.k2due then (s.modPow (fun p => { p with k2due := true })).owe 32 .softReset else s

/-- RESET (R372): by any master. -/
def execReset (_m : Master) (w : Word) (s : State) : Host.Outcome State Fault Refusal :=
  s.act fun s => (s.settle (.reset _m w)).resetWrite w

/-- SOFT_RESET (R353-R355): the 32nd tick after the request has come; it waits for a slice and for COMMITTING, and a Flint reset that is
pending absorbs it. -/
def execSoftReset (s : State) : Host.Outcome State Fault Refusal :=
  s.act fun s =>
    let u := s.settle .softReset
    if !s.isDue .softReset then s
    else if !s.pow.k2due || s.slicing || decide (s.slate.st = .committing) then u
    else if s.flint.resetDue then u.modPow (fun p => { p with k2due := false })
    else u.k2 .soft

/-! ## Park and Dormant -/

/-- STATE of HOST.PSTATE (R372). -/
def Power.psCode (p : Power) : Nat :=
  match p.ps with
  | .run => 0 | .parking => 1 | .park => 2 | .toDormant => p.psWas.toNat | .dormant => 3

/-- REQ = RUN (R366). Log entry 41. -/
def State.reqRun (s : State) (m : Master) : State :=
  match s.pow.ps with
  | .parking => (s.modPow (fun p => { p with ps := .run, refused := false })).ledPut (.unpark m)
  | .park => (s.modPow (fun p => { p with ps := .run, refused := false })).ledPut (.unpark m)
  | .dormant =>
    let w := s.pow.resume
    islands.foldl (fun (s : State) (n : IslandNo) => s.writeEn m n (w.getLsbD n.val)) (s.modPow (fun p => { p with ps := .run, refused := false }))
  | _ => s

/-- REQ = PARK (R366): the arbiter is asked to lower every RUNNING island to rung 0. -/
def State.reqPark (s : State) (m : Master) : State :=
  match s.pow.ps with
  | .run => (s.modPow (fun p => { p with ps := .parking, refused := false })).ledPut (.park m)
  | _ => s

/-- REQ = DORMANT (R366): EN is saved and every island killed; an ACTIVE device refuses. -/
def State.reqDormant (s : State) : State :=
  match s.pow.ps with
  | .dormant => s
  | .toDormant => s
  | _ =>
    if s.tan.role = .active then s.modPow (fun p => { p with refused := true })
    else
      let en := BitVec.ofNat 16 (islSum (fun n => bit s.isl[n].en n.val))
      let s := s.modPow (fun p => { p with ps := .toDormant, psWas := BitVec.ofNat 2 p.psCode, refused := false, resume := en })
      (islands.foldl (fun (s : State) (n : IslandNo) => (s.modIsl n (fun i => { i with en := false })).killPowered n) s).dormantCheck

/-- REQ_RUN (R366). -/
def execReqRun (m : Master) (s : State) : Host.Outcome State Fault Refusal := s.act fun s => s.reqRun m

/-- REQ_PARK (R366). -/
def execReqPark (m : Master) (s : State) : Host.Outcome State Fault Refusal := s.act fun s => s.reqPark m

/-- REQ_DORMANT (R366). -/
def execReqDormant (_m : Master) (s : State) : Host.Outcome State Fault Refusal := s.act State.reqDormant

/-! ## HCK -/

/-- A change of the image bits that island n holds goes to the host image; from PREP to APPLY nothing is sent (R14, R26, R121).
Log entry 12. -/
def State.shipImage (s : State) (n : IslandNo) : State :=
  if s.running n && !s.isl[n].prep && decide (s.islImage n ≠ s.isl[n].imgSent) then
    (s.modIsl n (fun i => { i with imgSent := s.islImage n })).sendLane (12 + s.itk) (.img n (s.islImage n))
  else s

/-- The image bits of every island at the end of a tick. What changed in a stop waits for the first itk after it (R414). -/
def State.shipImages (s : State) : State :=
  if s.pow.resumeAt = some (s.tick + 1) then s else islands.foldl (fun (s : State) (n : IslandNo) => s.shipImage n) s

/-- HCK_STOP (R16, R267, R273): everything that counts stands, outputs hold their levels, the guard's integrator charges, and a
PWM that a safe state governs is on at 0xFFFF or off. -/
def execHckStop (s : State) : Host.Outcome State Fault Refusal :=
  let s := if s.clocked then s.shipImages else s
  let s := { (s.cancel .integratorDischarged) with
      pow := { s.pow with hck := false }, safe := { s.safe with charged := true } }
  .next (islands.foldl (fun (s : State) (n : IslandNo) =>
    if s.isl[n].pers = .doPwm ∧ s.isl[n].inSafe then s.digOutputs n true else s) s)

/-- What a stop cut or kept on the host die is dealt with on the first tick after it (R18, R270, R310). -/
def State.hostResumed (s : State) : State :=
  let s := s.nvmResume
  let s := if s.safe.recStill then s.raiseBy 0x29 .guard 0 0 0 else s
  let s := if s.safe.recSafeN then s.raiseBy 0x2A .safeN 0 0 0 else s
  { s with safe := { s.safe with recStill := false, recSafeN := false } }

/-- What a stop cut or kept in the islands is dealt with on the first itk after it, before anything else of it (R17, R18, R138, R183,
R201, R205, R267). first: the first tick after the stop. -/
def State.islandsResumed (s : State) (first : Tick) : State :=
  islands.foldl (fun (s : State) (n : IslandNo) =>
    if s.running n then
      let s := (((s.adcResume n).inputResume n first).hartResume n).loopResume n
      if s.isl[n].pers = .doPwm then s.digOutputs n true else s
    else s) s

/-- What the present tick deals with, where a stop ended before it. -/
def State.resumed (s : State) : State :=
  match s.pow.resumeAt with
  | none => s
  | some t =>
    let s := if s.tick = t then s.hostResumed else s
    if s.tick.getLsbD 0 then s else s.islandsResumed t

/-- The first itk after a stop ends: latched edges are counted behind the cells that have landed on it (R144). -/
def State.resumeEnds (s : State) : State :=
  if s.pow.resumeAt.isSome && !s.tick.getLsbD 0 then
    (islands.foldl (fun (s : State) (n : IslandNo) => s.countLatched n) s).modPow (fun p => { p with resumeAt := none })
  else s

/-- HCK_RESUME (R17, R18): 32 edges discharge the integrator (R274), and the next tick is the first after the stop. -/
def execHckResume (s : State) : Host.Outcome State Fault Refusal :=
  .next (
    if s.pow.hck then s
    else
      let s := (s.modPow (fun p => { p with hck := true })).owe 32 .integratorDischarged
      if s.pow.k4 then s else s.modPow (fun p => { p with resumeAt := some (s.tick + 1) }))

end Sys2Proof.Machine
end

