-- ==== Sys2Proof/Machine/Boot.lean ====
section
/-! DEFINITION. The boot ROM: its documented phases, as context 0 runs them (R321, R357-R360, log entry 31). -/

namespace Sys2Proof.Machine

/-- HOST.BOOTSTAT (R372). -/
def Power.bootWord (p : Power) : Word :=
  BitVec.ofNat 32 (p.berr.toNat * 2 ^ 8 + bit p.skipped 5 + bit p.bank 4 + p.phase.toNat)

/-- The boot enters a step, and shows its phase. Steps 9 to 14 are parts of the phases 3 and 4. -/
def State.bootGo (s : State) (step phase : Nat) : State :=
  s.modPow (fun p => { p with bootStep := BitVec.ofNat 4 step, phase := BitVec.ofNat 4 phase, bootAt := none })

/-- Its next action comes k ticks from now. -/
def State.bootWait (s : State) (k : Nat) : State := s.modPow (fun p => { p with bootAt := some (s.tick + BitVec.ofNat 64 k) })

/-- The bank counts as BAD for this boot (R320, R321). -/
def State.bootBad (s : State) : Bank → State
  | .bankA => { s with nvm := { s.nvm with badA := true } }
  | .bankB => { s with nvm := { s.nvm with badB := true } }

/-- REJECTED is to be programmed on the bank (R321, R359). -/
def State.bootReject (s : State) : Bank → State
  | .bankA => { s with nvm := { s.nvm with rejectA := true } }
  | .bankB => { s with nvm := { s.nvm with rejectB := true } }

/-- A selection begins: what an earlier one found of the images counts no more (R320, R321; DESIGN CHOICE, log entry 73). -/
def State.bootFresh (s : State) : State := { s with nvm := { s.nvm with badA := false, badB := false } }

/-- Rule 1 of R321. -/
def State.bootTrialFailed (s : State) (b : Bank) : State := if s.bankSt b = 3 then ((s.bootBad b).bootReject b).nvmNext else s

/-- The bank qualifies under rule 2 of R321: READY, and newer than every GOOD bank. -/
def State.bootReady (s : State) (b : Bank) : Bool :=
  decide (s.bankSt b = 2) && (decide (s.bankSt (otherBank b) ≠ 4) || decide ((s.gen (otherBank b)).toNat < (s.gen b).toNat))

/-- The bank that rules 2 to 4 of R321 select, and whether it is a trial: the larger GEN, and bank A where they are equal. -/
def State.bootPick (s : State) : Option (Bank × Bool) :=
  let better : Bank := if (s.gen .bankA).toNat < (s.gen .bankB).toNat then .bankB else .bankA
  let choose (p : Bank → Bool) : Option Bank :=
    if p .bankA && p .bankB then some better else if p .bankA then some .bankA else if p .bankB then some .bankB else none
  match choose s.bootReady with
  | some b => some (b, true)
  | none => (choose (fun b => decide (s.bankSt b = 4))).map (fun b => (b, false))

/-- SELECT: the picked image is checked within 8 x LEN + 256 tk (R357); without one the boot ends in NOSLATE. -/
def State.bootSelect (s : State) : State :=
  let s := (s.bootGo 2 2).modPow (fun p => { p with bootSel := s.bootPick })
  match s.pow.bootSel with
  | some (b, _) => (s.modPow (fun p => { p with bank := decide (b = .bankB) })).bootWait (8 * (s.img b 2).toNat + 256)
  | none => s.bootWait 256

/-- The bank in work. -/
def State.bootBank (s : State) : Bank := match s.pow.bootSel with | some (b, _) => b | none => .bankA

/-- The slate of the image lies here: byte offset in the store (R318). -/
def State.bootSlateAt (s : State) : Nat := bankBase s.member s.bootBank + 4 * (s.img s.bootBank 4).toNat

/-- TASKS: 32 tk per word (R357). -/
def State.bootTasks (s : State) : State := (s.bootGo 5 5).bootWait (32 * (s.img s.bootBank 7).toNat)

/-- SLATE: skipped where the image's slate is committed already (R358). -/
def State.bootSlate (s : State) : State :=
  let s := s.bootGo 4 4
  if s.slate.committed && decide (s.slate.id = s.flashWord (s.bootSlateAt + 12)) then
    (s.modPow (fun p => { p with skipped := true })).bootTasks
  else s

/-- The bank becomes the active one (R322, R325). -/
def State.bootBoots (s : State) (b : Bank) : State :=
  { s with nvm := { s.nvm with active := b, booted := true, bootw := false, smin := if s.mig b then s.wseq b else 0 } }

/-- No bank boots: none is active (R321, R322, R325). -/
def State.bootNone (s : State) : State := { s with nvm := { s.nvm with active := .bankA, booted := false, bootw := false, smin := 0 } }

/-- The end of SELECT: an image that fails its checks makes its bank BAD, and selection goes on (R320, R321). -/
def State.bootChosen (s : State) : State :=
  match s.pow.bootSel with
  | none => (s.bootNone.bootGo 7 7).endCtx 0 0 false 8
  | some (b, trial) =>
    if !s.imageOk b then (s.bootBad b).bootSelect
    else if trial then
      { s.bootGo 3 3 with nvm := { (s.bootGo 3 3).nvm with bootw := true } }
    else (s.bootBoots b).bootSlate

/-- WAIT_RATE: TRIAL is programmed once recovery and REJECTED allow it (R321). -/
def State.bootTrial (s : State) (b : Bank) : State :=
  if s.nvmRefusal.isNone && !s.nvm.rejectA && !s.nvm.rejectB && !s.due.any (fun e => decide (e.2 = .markTrial (.thread 0) b)) then
    (s.bootGo 9 3).owe 0 (.markTrial (.thread 0) b)
  else s

/-- BUDGET of an image; 0 selects 256 (R318). -/
def State.bootBudgetOf (s : State) (b : Bank) : BitVec 16 :=
  let v := (s.img b 10).extractLsb' 0 16
  if v = 0 then 256 else v

/-- TRIAL has been programmed: the budget starts, and the bank boots (R283, R321). A mark that failed is tried again. -/
def State.bootTrialDone (s : State) (b : Bank) : State :=
  if s.nvm.jobs ≠ [] ∨ s.due.any (fun e => decide (e.2 = .markTrial (.thread 0) b)) then s
  else if s.marked b 1 then ((s.bootWrite (.thread 0) (s.bootBudgetOf b) false).bootBoots b).bootSlate
  else s.bootGo 3 3

/-- The slate failed: a TRIAL bank is rejected and the card resets, a GOOD one ends in SLATE_FAIL (R359). -/
def State.bootSlateFail (s : State) : State :=
  if s.bankSt s.bootBank = 3 then ((s.bootReject s.bootBank).bootGo 13 4).nvmNext
  else (((s.bootGo 8 8).modPow (fun p => { p with berr := s.slate.err })).endCtx 0 1 false 8)

/-- RUN: the jump to the entry PC with g1 = BOOTSTAT (R357). -/
def State.bootRun (s : State) : State :=
  let b := s.bootBank
  let n := (s.img b 7).toNat
  let a := bankBase s.member b + 4 * (s.img b 6).toNat
  let dst := (s.img b 8).toNat
  let s := (List.range n).foldl (fun (s : State) (k : Nat) =>
    match regionOf s.member (dst + 4 * k) with
    | .slice _ => s.putSram (dst + 4 * k) (s.flashWord (a + 4 * k))
    | .shared => s.putSram (dst + 4 * k) (s.flashWord (a + 4 * k))
    | _ => s) s
  let s := s.bootGo 6 6
  s.modCtx 0 (fun c => { (c.put 1 s.pow.bootWord) with pc := s.img b 9 })

/-- The boot ROM's session has reached a state. -/
def State.bootOwns (s : State) (st : SlateState) : Bool := decide (s.slate.st = st) && decide (s.slate.owner = some (.thread 0))

/-- The boot ROM's session has failed, or another master has ended it. -/
def State.bootLost (s : State) : Bool := decide (s.slate.st = .failed) || decide (s.slate.owner ≠ some (.thread 0))

/-- The session that the boot ROM opened, step by step (R114, R357). -/
def State.bootSession (s : State) : State :=
  match s.pow.bootStep.toNat with
  | 4 =>
    if s.slate.st = .empty then
      ((s.bootGo 10 4).modSlate (fun z => { z with nvmaddr := BitVec.ofNat 19 (s.bootSlateAt / 4) })).owe 0 (.slateLoadNvm (.thread 0))
    else s
  | 10 => if s.bootOwns .loaded then (s.bootGo 11 4).owe 0 (.slateVerify (.thread 0)) else if s.bootLost then s.bootSlateFail else s
  | 11 => if s.bootOwns .verified then (s.bootGo 12 4).owe 0 (.slateCommit (.thread 0)) else if s.bootLost then s.bootSlateFail else s
  | 12 =>
    if s.slate.st = .empty then
      (if s.slate.committed && decide (s.slate.id = s.flashWord (s.bootSlateAt + 12)) then s.bootTasks else s.bootSlateFail)
    else if s.bootOwns .verified ∧ !s.fault.halt ∧ !s.fault.lockout then s.owe 0 (.slateCommit (.thread 0))
    else s
  | _ => s

/-- The boot ROM's work on a tick; it runs while context 0 executes from the boot ROM (R357, R360). -/
def State.bootTick (s : State) : State :=
  let now := match s.pow.bootAt with | some t => decide (t ≤ s.tick) | none => false
  let b := s.bootBank
  if !s.inRom 0 ∨ s.facet.ctx[0].st ≠ .run then s
  else match s.pow.bootStep.toNat with
    | 1 => if s.nvm.st = .scan then s else ((s.bootFresh.bootTrialFailed .bankA).bootTrialFailed .bankB).bootSelect
    | 2 => if now then s.bootChosen else s
    | 3 => s.bootTrial b
    | 9 => s.bootTrialDone b
    | 5 => if now then s.bootRun else s
    | 13 =>
      if s.marked s.bootBank 3 ∧ s.nvm.jobs = [] then (s.resetWrite 0xA5C30001).bootGo 14 4 else s
    | _ => s.bootSession

/-- BOOT_START (R357): context 0 issues for the first time, in the boot ROM. -/
def execBootStart (s : State) : Host.Outcome State Fault Refusal :=
  s.act fun s =>
    if s.isDue .bootStart ∧ s.inRom 0 ∧ s.pow.bootStep = 0 then (s.settle .bootStart).bootGo 1 1 else s.settle .bootStart

end Sys2Proof.Machine
end

