-- ==== Sys2Proof/Machine/Test.lean ====
section
/-! DEFINITION. Island loopbacks, factory test mode and the TAP (R400-R410). -/

namespace Sys2Proof.Machine

/-! ## Island loopbacks -/

/-- REASON codes of IRES (R410): 1 NOT_RUNNING, 2 RUNG0, 3 SHADOW, 4 PEER. -/
def State.loopRefusal (s : State) (n : IslandNo) (depth : Nat) : Option Nat :=
  let i := s.isl[n]
  let p := s.isl[peerOf n]
  if !s.running n then some 1
  else if 2 ≤ depth ∧ i.led.admRung = 0 then some 2
  else if i.shadow then some 3
  else if depth = 4 ∧ (!s.present (peerOf n) ∨ !s.running (peerOf n) ∨ p.led.admRung = 0 ∨ p.shadow) then some 4
  else none

/-- A measurement starts: an ECHO cell (R401), or a test cell that puts the island into service hold, and with CROSS its peer as
well, of which it is no peer any more (R402, R405). -/
def State.loopRun (s : State) (n : IslandNo) (depth : Fin 5) : State :=
  let w := s.isl[n].loop.pattern
  let t := s.tick
  let s := s.modLoop n (fun l => { l with st := 1, depth := depth, pass := false, reason := 0, code := 0, start := t, doneAt := none })
  if depth = 1 then s.send n .ledger (.cmd (.echo (~~~w ++ w : BitVec 32)))
  else
    let s := s.send n .ledger (.cmd (.test depth))
    if depth = 4 then
      ((s.modLoop n (fun l => { l with cross := true, peer := false })).modLoop (peerOf n) (fun l =>
        { l with depth := 4, cross := false, peer := true })).send (peerOf n) .ledger (.cmd (.test 4))
    else s

/-- A measurement of island n runs, or the one that holds it as the peer of a cross loop (R400, R405). -/
def State.loopBusy (s : State) (n : IslandNo) : Bool :=
  decide (s.isl[n].loop.st = 1) || (s.isl[n].loop.peer && decide (s.isl[peerOf n].loop.st = 1) && s.isl[peerOf n].loop.cross)

/-- A write of ILOOP[n]: by the host link and threads; while a measurement runs it is ignored and counts as a clamp (R400, R403,
R410). -/
def State.iloop (s : State) (m : Master) (n : IslandNo) (depth : Fin 5) (pattern : BitVec 16) (term : BitVec 2) : State :=
  let go (s : State) : State :=
    if !s.present n then s.accFault .addr m 2 (0x9040 + 4 * n.val)
    else if s.loopBusy n then s.clamped m 1
    else
      let s := if term = 3 then s.clamped m 1 else s
      let s := s.modLoop n (fun l => { l with pattern := pattern, term := if term = 3 then 0 else term })
      if depth = 0 then s.loopStop n 0 0
      else match s.loopRefusal n depth.val with
        | some r => s.modLoop n (fun l => { l with st := 3, pass := false, reason := BitVec.ofNat 4 r })
        | none => s.loopRun n depth
  match m with
  | .link => go s
  | .thread _ => go s
  | _ => s.accFault .master m 2 (0x9040 + 4 * n.val)

/-- ILOOP_OFF (R403). -/
def execIloopOff (m : Master) (n : IslandNo) (s : State) : Host.Outcome State Fault Refusal :=
  s.act fun s => s.iloop m n 0 s.isl[n].loop.pattern s.isl[n].loop.term

/-- ILOOP_ECHO (R401). -/
def execIloopEcho (m : Master) (n : IslandNo) (pattern : BitVec 16) (s : State) : Host.Outcome State Fault Refusal :=
  s.act fun s => s.iloop m n 1 pattern s.isl[n].loop.term

/-- ILOOP_DAC_ADC (R402, R404). -/
def execIloopDacAdc (m : Master) (n : IslandNo) (pattern : BitVec 16) (s : State) : Host.Outcome State Fault Refusal :=
  s.act fun s => s.iloop m n 2 pattern s.isl[n].loop.term

/-- ILOOP_TERMINAL (R404). -/
def execIloopTerminal (m : Master) (n : IslandNo) (pattern : BitVec 16) (term : BitVec 2) (s : State) :
    Host.Outcome State Fault Refusal :=
  s.act fun s => s.iloop m n 3 pattern term

/-- ILOOP_CROSS (R405). -/
def execIloopCross (m : Master) (n : IslandNo) (pattern : BitVec 16) (s : State) : Host.Outcome State Fault Refusal :=
  s.act fun s => s.iloop m n 4 pattern s.isl[n].loop.term

/-- A test cell lands: the island enters service hold, its stages go dark and give Bedrock levels, and its sequence is suspended with
the conversion in progress (R402). -/
def State.testLand (s : State) (n : IslandNo) (depth : Fin 5) : State :=
  let s := s.landed n (.cmd (.test depth))
  if s.running n ∧ s.isl[n].loop.depth = depth then
    let s := ((s.modIsl n (fun i => { i with hold := true })).outputs n true).inputStart n
    (((s.hartOff n).adcCancel n).modAdc n (fun a => { a with conv := false })).loopTime n
  else s

/-- MEASUREMENT_DONE (R404): the island writes the result, 2 itk behind the last conversion and not before, and it returns in a
STATUS cell. code: what the converter found, as a code, in mV or as a raw code. -/
def execMeasurementDone (n : IslandNo) (code : BitVec 18) (s : State) : Host.Outcome State Fault Refusal :=
  s.act fun s =>
    let l := s.isl[n].loop
    if s.running n && s.isl[n].hold && decide (l.st = 1) && decide (2 ≤ l.depth.val) &&
        (match l.doneAt with | some t => decide (t ≤ s.tick) | none => false) then
      (s.modLoop n (fun l => { l with doneAt := none })).sendUp n (.status (.measured code))
    else s

/-! ## Factory test mode -/

/-- UNLOCK (R408). A thread's write outside factory test mode is an access error as well (R409). -/
def State.unlock (s : State) (m : Master) (w : Word) : State :=
  let ok := match m with | .link => true | .thread _ => s.pow.ftm | _ => false
  (if ok then s else s.accFault .master m 2 0x9004).unlockWrite m w

def execUnlock (m : Master) (w : Word) (s : State) : Host.Outcome State Fault Refusal := s.act fun s => s.unlock m w

/-- TEST_N_HIGH (R408): the unlock sequence returns to its start, and factory test mode clears on the first tick on which the level
is sampled. -/
def execTestNHigh (s : State) : Host.Outcome State Fault Refusal :=
  ((s.settle .testNHigh).modPow (fun p => { p with testLow := false })).taken .testNHigh fun s =>
    s.modPow (fun p => { p with ftm := false, ustep := 0 })

/-- TEST_N_LOW (R408). -/
def execTestNLow (s : State) : Host.Outcome State Fault Refusal :=
  .next ((s.cancel .testNHigh).modPow (fun p => { p with testLow := true }))

/-! ## The TAP -/

/-- The instruction that a code of the instruction register selects; every code without one of its own is BYPASS (R406). -/
def TapInstr.ofCode (c : BitVec 4) : TapInstr :=
  if c = 0 then .extest else if c = 1 then .idcode else if c = 2 then .sample else if c = 4 then .highz else if c = 5 then .clamp
  else .bypass

/-- The instruction that is current. -/
def Power.tap (p : Power) : TapInstr := TapInstr.ofCode p.ir

/-- The instruction gives the host lands to the scan (R407). -/
def TapInstr.scans : TapInstr → Bool
  | .extest => true | .highz => true | .clamp => true | _ => false

/-- A code becomes current: the SAFE marks of a scan stand while it scans, and end with it (R407). -/
def State.tapTake (s : State) (c : BitVec 4) : State :=
  ({ s with pow := { s.pow with ir := c }, safe := { s.safe with scanMark := (TapInstr.ofCode c).scans } }).marksEnd

/-- EXTEST (R407). -/
def execExtest (s : State) : Host.Outcome State Fault Refusal := .next (s.tapTake 0)

/-- IDCODE (R406). -/
def execIdcode (s : State) : Host.Outcome State Fault Refusal := .next (s.tapTake 1)

/-- SAMPLE_PRELOAD (R406). -/
def execSamplePreload (s : State) : Host.Outcome State Fault Refusal := .next (s.tapTake 2)

/-- HIGHZ (R407). -/
def execHighz (s : State) : Host.Outcome State Fault Refusal := .next (s.tapTake 4)

/-- CLAMP (R407). -/
def execClamp (s : State) : Host.Outcome State Fault Refusal := .next (s.tapTake 5)

/-- BYPASS (R406). -/
def execBypass (s : State) : Host.Outcome State Fault Refusal := .next (s.tapTake 0xF)

/-- TAP_RESET (R407): Test-Logic-Reset selects IDCODE. -/
def execTapReset (s : State) : Host.Outcome State Fault Refusal := .next (s.tapTake 1)

/-- The identification register (R406). -/
def idcodeWord : Word := 0x25316001

end Sys2Proof.Machine
end

