-- ==== Sys2Proof/Machine/Flags.lean ====
section
/-! DEFINITION. Status words that the block computes from its state: ALERT_N, STATUS, the status registers of each block
(R59-R61, R85, R101, R127, R235, R262, R263, R285, R287, R304, R327, R348, R372, R410). -/

namespace Sys2Proof.Machine

/-- A bit for every island of the member that satisfies p. -/
def State.islBits (s : State) (p : IslandNo → Bool) : Nat := islSum (fun n => bit (s.present n && p n) n.val)

/-! ## Alert and STATUS -/

/-- ALERT_N is asserted (R285, R304, R408); a K4 reset leaves it released (R351). -/
def State.alert (s : State) : Bool :=
  !s.pow.k4 &&
  (s.safe.still || s.safe.safeN || s.safe.flint || s.fault.halt || s.fault.lockout || decide (s.fault.chFault ≠ 0) || s.pow.ftm ||
   (s.fault.feValid && (s.matrix s.fault.fe.src).getLsbD 4))

/-- A safe-state trigger of R269 is in force (R85); that of an island lost, or killed by EN written 0, until EN is written 1. -/
def State.anyTrigger (s : State) : Bool :=
  s.safe.still || s.safe.safeN || s.safe.flint || s.fault.halt || s.fault.lockout || decide (s.safe.cmd ≠ 0) ||
  decide (s.fault.chFault ≠ 0) || islands.any (fun n => (s.rfxDemand n).safe || s.isl[n].down0)

/-- The STATUS word of a twin (R85): with PRES = NONE there is no previous frame, and PSEQ reads 0 (log entry 36). -/
def State.statusWord (s : State) : Word :=
  BitVec.ofNat 32 ((if s.link.pres = 15 then 0 else s.link.pseq.toNat) * 2 ^ 28 + s.link.pres.toNat * 2 ^ 24 + bit s.alert 23 + bit s.fault.feValid 22 +
    bit s.anyTrigger 21 + bit s.fault.halt 20 + bit s.fault.lockout 19 + bit (decide (s.rate = 0)) 18 +
    bit s.slate.committed 17 + bit (decide (2 ≤ s.link.queue.length)) 16 + s.tan.role.code * 2 ^ 14 + bit s.link.xerr 13 +
    s.link.errCrc.toNat)

/-! ## HOST -/

def IslPower.code : IslPower → Nat
  | .bedrock => 0 | .charging => 1 | .running => 2 | .lost => 3

/-- HOST.ISLAND_POWER (R59). -/
def State.powerWord (s : State) : Word := BitVec.ofNat 32 (s.islBits (fun n => s.isl[n].en))

/-- HOST.ISLAND_STATE (R59). -/
def State.stateWord (s : State) : Word :=
  BitVec.ofNat 32 (islSum (fun n => if s.present n then s.isl[n].power.code * 4 ^ n.val else 0))

/-- ADMITTED as a read shows it, 4 tk behind the arbiter (R21, R60). -/
def State.admittedSeen (s : State) : Nat := islSum (fun n => s.isl[n].ledSeen.admGr)

/-- HOST.LEDGER_STAT (R21, R60). -/
def State.ledgerStat (s : State) : Word :=
  BitVec.ofNat 32 (bit s.busySeen 31 + (s.member.admissible - s.admittedSeen) * 2 ^ 16 + s.admittedSeen)

/-- HOST.LEDGER_RSV (R21, R60). -/
def State.ledgerRsv (s : State) : Word := s.rsvSeen

def LinkState.code : LinkState → Nat
  | .untrained => 0 | .lock => 1 | .echo => 2 | .ready => 3

/-- HOST.LINK_STAT (R101). -/
def Link.stat (l : Link) : Word :=
  BitVec.ofNat 32 (l.st.code * 2 ^ 28 + bit l.lmode 27 + l.loopAct.toNat * 2 ^ 24 + l.expSeq.toNat * 2 ^ 20 + bit l.eFree 19 +
    min 2 l.queue.length * 2 ^ 16 + l.tap1.toNat * 2 ^ 12 + l.tap0.toNat * 2 ^ 8 + min 64 l.readq.length)

/-- HOST.LINK_CTRL (R101). -/
def Link.ctrl (l : Link) : Word := BitVec.ofNat 32 (l.loopReq.toNat * 2 ^ 8 + l.downLimit.toNat)

/-- Four 8-bit counts in one word, the first in [31:24]. -/
def fourBytes (a b c d : Byte) : Word := bytesWord a b c d

/-- HOST.LINK_XERR (R101). -/
def Link.xerrWord (l : Link) : Word := BitVec.ofNat 32 (l.xseq.toNat * 2 ^ 28 + l.xtype.toNat * 2 ^ 24 + l.xword.toNat)

/-- Island n has a safe demand, or is in Bedrock or LOST (R285). -/
def State.inSafeBit (s : State) (n : IslandNo) : Bool :=
  !s.isl[n].powered || s.safeBit n || s.markAll || s.fault.chFault.getLsbD n.val || s.isl[n].inSafe

/-- HOST.SAFE_STAT (R285): an island in Bedrock counts from the K4 reset on (DEDUCED, log entry 74). -/
def State.safeStat (s : State) : Word :=
  BitVec.ofNat 32 (bit s.safe.still 31 + bit s.safe.safeN 30 + bit s.safe.safePin 29 + bit s.safe.flint 28 + s.islBits s.inSafeBit)

/-- HOST.GUARD (R285). -/
def State.guardWord (s : State) : Word :=
  (s.cfgAt 0x14C &&& 0x8000000F) ||| BitVec.ofNat 32 (bit s.armed 30 + bit s.safe.charged 29)

def Cause.code : Cause → Nat
  | .powerOn => 1 | .brownOut => 2 | .prsnt => 3 | .rstN => 4 | .thermal => 5 | .flint => 6 | .soft => 7

/-- HOST.RCAUSE (R372). -/
def Power.causeWord (p : Power) : Word := BitVec.ofNat 32 (p.k0cnt.toNat * 2 ^ 16 + p.k1cnt.toNat * 2 ^ 8 + p.rcause.code)

/-- HOST.PSTATE (R372). -/
def Power.stateWord (p : Power) : Word := BitVec.ofNat 32 (p.resume.toNat * 2 ^ 16 + bit p.refused 6 + p.psCode * 2 ^ 4)

/-- HOST.PWRSTAT (R372). -/
def Power.pwrWord (p : Power) : Word := BitVec.ofNat 32 (bit p.hot 2 + bit p.prsntLow 1 + bit p.vmicaOk 0)

/-! ## SLATE -/

def SlateState.code : SlateState → Nat
  | .empty => 0 | .loading => 1 | .loaded => 2 | .verifying => 3 | .verified => 4 | .failed => 5 | .committing => 6

/-- SLATE.STAT (R127). -/
def Slate.stat (z : Slate) : Word :=
  BitVec.ofNat 32 (z.errSec.toNat * 2 ^ 24 + z.err.toNat * 2 ^ 16 + bit z.badcmd 11 + bit z.rateMatch 10 + bit z.authed 9 +
    bit z.committed 8 + ownerCode z.owner * 2 ^ 4 + z.st.code)

/-- SLATE.COUNT (R127). -/
def Slate.count (z : Slate) : Word := BitVec.ofNat 32 (z.total % 2 ^ 16 * 2 ^ 16 + z.staged.length)

/-- SLATE.ISLFAIL (R127). -/
def State.islFail (s : State) : Word := BitVec.ofNat 32 (s.islBits (fun n => s.isl[n].slateFail))

def KeySlot.code : KeySlot → Nat
  | .empty => 0 | .set _ => 1 | .revoked => 2

/-- SLATE.KEYSTAT (R127). -/
def Slate.keyStat (z : Slate) : Word :=
  BitVec.ofNat 32 (bit z.authReq 31 + bit z.kbusy 30 + z.kres.toNat * 2 ^ 27 +
    ((List.range 8).map (fun k => z.keys[(Fin.ofNat 8 k)].code * 4 ^ k)).sum)

/-! ## EVT and DMA -/

/-- EVT.HOLD (R262). -/
def State.holdReg (s : State) : Word :=
  BitVec.ofNat 32 (s.islBits (fun n => (s.rfxDemand n).safe) * 2 ^ 16 + s.islBits (fun n => (s.rfxDemand n).force))

def DmaState.code : DmaState → Nat
  | .idle => 0 | .fetch => 1 | .wait => 2 | .move => 3 | .done => 4 | .error => 5

/-- STAT of a channel (R263). -/
def Channel.stat (h : Channel) : Word :=
  BitVec.ofNat 32 (h.st.code * 2 ^ 29 + h.err.toNat * 2 ^ 26 + h.ares.toNat * 2 ^ 24 + bit h.ppend 23 + h.povr.toNat * 2 ^ 8)

/-! ## FACET -/

/-- A bit for every context that satisfies p. -/
def ctxBits (p : CtxNo → Bool) : Nat := (contexts.map (fun t => bit (p t) t.val)).sum

/-- FACET.POOL (R235). -/
def State.poolWord (s : State) : Word :=
  BitVec.ofNat 32 (ctxBits (fun t => decide (s.ctxState t = .faulted)) * 2 ^ 16 +
    ctxBits (fun t => decide (s.ctxState t = .wait)) * 2 ^ 8 + ctxBits (fun t => decide (s.ctxState t ≠ .free)))

/-- FACET.LSTAT (R235). -/
def Facet.lstat (f : Facet) : Word := BitVec.ofNat 32 (bit f.lfail 31 + f.lreason.toNat * 2 ^ 8 + f.lctx.toNat)

def CtxState.code : CtxState → Nat
  | .free => 0 | .run => 1 | .wait => 2 | .stall => 3 | .faulted => 4

/-- FACET.TSTAT[t] (R235). -/
def State.tstat (s : State) (t : CtxNo) : Word :=
  let c := s.facet.ctx[t]
  BitVec.ofNat 32 ((s.ctxState t).code * 2 ^ 29 + bit c.killed 28 + bit c.eovr 27 + bit c.ierr 26 + bit c.pwerr 25 + bit c.el 24 +
    c.w.toNat * 2 ^ 16 + bit c.warm 15 + c.cause.toNat * 2 ^ 12)

/-- FACET.LOCKOWN[j] (R235). -/
def Facet.lockOwn (f : Facet) (j : Nat) : Word :=
  BitVec.ofNat 32 (((List.range 8).map (fun k =>
    (match f.locks[(Fin.ofNat 64 (8 * j + k))].owner with | some t => t.val | none => 15) * 16 ^ k)).sum)

/-- FACET.POISON_LO and POISON_HI (R235). -/
def Facet.poisonWord (f : Facet) (hi : Bool) : Word :=
  BitVec.ofNat 32 (((List.range 32).map (fun k => bit f.locks[(Fin.ofNat 64 (k + if hi then 32 else 0))].poison k)).sum)

/-! ## FLINT -/

/-- STAT of a Flint channel: 0 OFF, 1 CLOSED, 2 OPEN, 3 EXPIRED (R287). -/
def State.flintStat (s : State) (ch : FlintChan) : Word :=
  let st := match (s.flintCh ch).st with
    | .off => 0
    | .expired => 3
    | .running => if s.flintWmin ch ≤ s.elapsed ch then 2 else 1
  BitVec.ofNat 32 (st * 2 ^ 30 + bit (s.flintCh ch).qstale 29)

/-! ## FAULT -/

/-- FAULT.STAT (R304). -/
def Collector.stat (f : Collector) : Word :=
  BitVec.ofNat 32 (bit f.lockout 31 + bit f.halt 30 + bit f.feValid 29 + bit f.dlate 28 + min 4 f.dq.length * 2 ^ 24 + f.chFault.toNat)

/-- FAULT.FE_INFO (R304). -/
def FaultRec.info (r : FaultRec) : Word :=
  BitVec.ofNat 32 (r.src.toNat * 2 ^ 24 + r.mid.toNat * 2 ^ 16 + r.typ.toNat * 2 ^ 12 + r.cls.toNat * 2 ^ 10 + r.dec.toNat * 2 ^ 8 +
    r.kind.toNat)

/-- FAULT.DQ: the oldest fault that awaits a decision (R292, R304). -/
def Collector.dqWord (f : Collector) : Word :=
  match f.dq with
  | [] => 0
  | r :: _ => BitVec.ofNat 32 (2 ^ 31 + r.src.toNat * 2 ^ 16 + r.mid.toNat * 2 ^ 8 + r.dtag.toNat)

/-- FAULT.QCNT: units of 256 tk until the Halt recovers, the one in progress included (R297, R304). -/
def State.qcnt (s : State) : Word :=
  if s.fault.halt then
    BitVec.ofNat 32 ((s.fault.restart.toNat + 256 * (s.cfgAt 0x6028).toNat - s.tick.toNat + 255) / 256)
  else 0

/-! ## NVM, TANDEM, TEST -/

def NvmState.code : NvmState → Nat
  | .idle => 0 | .busy => 1 | .stepWait => 2 | .recovering => 3 | .scan => 4

/-- NVM.STAT (R327). -/
def Nvm.stat (v : Nvm) : Word :=
  BitVec.ofNat 32 (v.st.code * 2 ^ 29 + v.res.toNat * 2 ^ 24 + bit (decide (v.active = .bankB)) 23 + bit v.bootw 21 +
    (if v.scanned then min 31 v.intents.length else 0) * 2 ^ 16 + v.steps.toNat)

def TLink.code : TLink → Nat
  | .off => 0 | .training => 1 | .ready => 2 | .lost => 3

/-- TANDEM.STAT (R348). -/
def Tandem.stat (t : Tandem) : Word :=
  BitVec.ofNat 32 (t.role.code * 2 ^ 30 + t.link.code * 2 ^ 28 + bit t.stale 27 + bit t.mismatch 26 + bit t.nocopy 25 + bit t.pbusy 24 +
    t.cres.toNat * 2 ^ 20 + t.prole.code * 2 ^ 18)

/-- TEST.MODE (R410). -/
def Power.modeWord (p : Power) : Word := BitVec.ofNat 32 (p.ustep.toNat * 2 ^ 8 + bit p.testLow 1 + bit p.ftm 0)

/-- TEST.ILOOP[n] (R410). -/
def Loopback.ctrl (l : Loopback) : Word :=
  BitVec.ofNat 32 (l.pattern.toNat * 2 ^ 16 + l.term.toNat * 2 ^ 4 + bit l.peer 3 + l.depth.val)

/-- TEST.IRES[n] (R410). -/
def Loopback.res (l : Loopback) : Word :=
  BitVec.ofNat 32 (l.st.toNat * 2 ^ 30 + bit l.pass 29 + l.reason.toNat * 2 ^ 25 + l.code.toNat)

/-! ## ISL[n] registers that the host die holds -/

/-- The request fields of LEDGER, as the arbiter last took them (R61). -/
def State.requestOf (s : State) (n : IslandNo) : Nat :=
  let l := s.isl[n].led
  bit l.reqChar 4 + l.reqHart.toNat * 2 ^ 2 + l.reqRung.toNat

/-- ISL[n].LEDGER (R21, R61), with the arbiter's fields as they crossed. ADM_GR shows what the island is charged: after a kill, until
its release, its earlier grains too (R43). -/
def State.ledgerWord (s : State) (n : IslandNo) : Word :=
  let l := s.isl[n].ledSeen
  BitVec.ofNat 32 (s.prio n * 2 ^ 30 + s.modeGr n * 2 ^ 24 + min 63 l.admGr * 2 ^ 16 + bit l.pendingBit 14 + bit l.clamped 13 +
    bit l.admChar 12 + l.admHart.toNat * 2 ^ 10 + l.admRung.toNat * 2 ^ 8 + s.requestOf n)

/-- A SAFE mark is being issued to the island (R61, R269). -/
def State.markTo (s : State) (n : IslandNo) : Bool := s.markAll && s.isl[n].powered

/-- ISL[n].MICA (R61). -/
def State.micaWord (s : State) (n : IslandNo) : Word :=
  let i := s.isl[n]
  BitVec.ofNat 32 (bit (s.markTo n) 25 + bit i.cvOk 24 + i.cellDrop.toNat * 2 ^ 16 + i.cellRetry.toNat * 2 ^ 8 + i.symErr.toNat)

end Sys2Proof.Machine
end

