-- ==== Sys2Proof/Machine/Regs.lean ====
section
/-! DEFINITION. The host-die registers and the island registers that the host die holds, as the link and threads read and write
them: access codes, clamps, commands (R10-R12, R22-R25, R411-R413 and the register tables). -/

namespace Sys2Proof.Machine

/-! ## Helpers -/

/-- A row of an array of registers at base, one word each. -/
def rowOf (base rows a : Nat) : Option Nat := if base ≤ a ∧ a < base + 4 * rows then some ((a - base) / 4) else none

/-- A read without an effect. -/
def got (s : State) (w : Word) : Option (State × Word) := some (s, w)

/-- The register of timer k at offset o reads (R262). -/
def State.tmrRead (s : State) (k : Fin 16) (o : Nat) : Word := if o = 12 then s.tmrCnt k else s.tmrWord k o

/-- A read of TICK_LO at a tick: the high word is kept in the snapshot (R25). -/
def State.tickRead (s : State) (t : Tick) : State × Word := ({ s with snapHi := t.extractLsb' 32 32 }, t.extractLsb' 0 32)

/-! ## Reads -/

/-- HOST, SLATE and EVT blocks; at is the tick that a read of TICK_LO returns. -/
def State.readHost (s : State) (at' : Tick) (a : Nat) : Option (State × Word) :=
  match a with
  | 0x000 => got s (BitVec.ofNat 32 (0x53 * 2 ^ 24 + s.member.code.toNat * 2 ^ 16 + 0x02))
  | 0x010 => got s (s.rate.setWidth 32)
  | 0x018 => some (s.tickRead at')
  | 0x01C => got s s.snapHi
  | 0x040 => got s s.powerWord
  | 0x044 => got s s.stateWord
  | 0x080 => got s 0
  | 0x084 => got s s.ledgerStat
  | 0x088 => got s s.ledgerRsv
  | 0x0C0 => some ({ s with clampLink := 0 }, s.clampLink.setWidth 32)
  | 0x0E4 => some ({ s with clampSlate := 0 }, s.clampSlate.setWidth 32)
  | 0x0E8 => some ({ s with clampDma := 0 }, s.clampDma.setWidth 32)
  | 0x100 => got s s.link.stat
  | 0x104 => got s s.link.ctrl
  | 0x108 => some ({ s with link := { s.link with errCrc := 0, errSeq := 0, errSync := 0, errFormat := 0 } },
                   fourBytes s.link.errCrc s.link.errSeq s.link.errSync s.link.errFormat)
  | 0x10C => some ({ s with link := { s.link with evDup := 0, evBusy := 0, evDown := 0, evShort := 0 } },
                   fourBytes s.link.evDup s.link.evBusy s.link.evDown s.link.evShort)
  | 0x110 => got s s.link.xerrWord
  | 0x140 => got s (s.safe.cmd.setWidth 32)
  | 0x144 => got s s.safeStat
  | 0x148 => got s 0
  | 0x14C => got s s.guardWord
  | 0x180 => got s 0
  | 0x184 => some (s.modPow (fun p => { p with k0cnt := 0, k1cnt := 0 }), s.pow.causeWord)
  | 0x188 => got s s.pow.bootWord
  | 0x18C => got s s.pow.stateWord
  | 0x190 => got s s.pow.pwrWord
  | _ =>
    match rowOf 0x0C4 8 a with
    | some t => some ({ s with clampT := s.clampT.set (Fin.ofNat 8 t) 0 }, s.clampT[(Fin.ofNat 8 t)].setWidth 32)
    | none => none

def State.readSlate (s : State) (a : Nat) : Option (State × Word) :=
  match a with
  | 0x1000 => got s 0
  | 0x1004 => got s s.slate.stat
  | 0x1008 => got s 0
  | 0x100C => got s s.slate.count
  | 0x1010 => got s (BitVec.ofNat 32 (4 * s.slate.nvmaddr.toNat))
  | 0x1014 => got s s.slate.id
  | 0x1018 => got s (BitVec.ofNat 32 (s.slate.sections.toNat * 2 ^ 16 + s.slate.clamps.toNat))
  | 0x101C => got s (s.slate.ctick.extractLsb' 0 32)
  | 0x1020 => got s (s.slate.ctick.extractLsb' 32 32)
  | 0x1024 => got s 0
  | 0x1028 => some (islands.foldl (fun (s : State) (n : IslandNo) => s.modIsl n (fun i => { i with slateFail := false })) s, s.islFail)
  | 0x102C => got s s.slate.keyStat
  | 0x1030 => got s 0
  | _ => if (rowOf 0x1040 8 a).isSome then got s 0 else none

def State.readEvt (s : State) (a : Nat) : Option (State × Word) :=
  if 0x2000 ≤ a ∧ a < 0x2600 then got s (s.cfgAt a)
  else if 0x2600 ≤ a ∧ a < 0x2700 then got s (s.tmrRead (Fin.ofNat 16 ((a - 0x2600) / 16)) (a % 16))
  else match portOf s.member 0x2700 a with
    | some n => some ({ s with evt := { s.evt with drop := s.evt.drop.set n 0 } },
                      s.cfgAt a ||| BitVec.ofNat 32 (s.evt.drop[n].toNat * 2 ^ 16))
    | none =>
      match a with
      | 0x2780 => got s 0
      | 0x2784 => got s (s.evt.active.extractLsb' 0 32)
      | 0x2788 => got s (s.evt.active.extractLsb' 32 32)
      | 0x278C => got s 0
      | 0x2790 => got s 0
      | 0x2794 => got s s.holdReg
      | _ => none

/-- Registers of DMA channel c at offset o (R263). -/
def State.readCh (s : State) (c : ChNo) (o : Nat) : Option (State × Word) :=
  let h := s.dma[c]
  match o with
  | 0x00 => got s 0
  | 0x04 => some (s.modCh c (fun h => { h with povr := 0 }), h.stat)
  | 0x08 => got s h.head
  | 0x0C => got s h.tail
  | 0x10 => got s 0
  | 0x14 => got s h.cur
  | 0x18 => got s (h.remain.setWidth 32)
  | 0x1C => some (s.modCh c (fun h => { h with words := 0 }), h.words)
  | _ => got s (s.chWord c o)

def State.readDma (s : State) (a : Nat) : Option (State × Word) :=
  if 0x3000 ≤ a ∧ a < 0x3400 then s.readCh (Fin.ofNat 16 ((a - 0x3000) / 0x40)) (a % 0x40)
  else match portOf s.member 0x3800 a with
    | some n => some (s.rstreamTake n)
    | none =>
      match portOf s.member 0x3880 a with
      | some n => some (s.modIsl n (fun i => { i with rsOvr := 0 }),
                        BitVec.ofNat 32 (s.isl[n].rsOvr.toNat * 2 ^ 24 + s.isl[n].rstream.length))
      | none =>
        if (portOf s.member 0x3900 a).isSome ∨ a = 0x3940 then got s (s.imgWord ((a - 0x3900) / 4))
        else if (portOf s.member 0x3A00 a).isSome then got s 0
        else none

/-- Registers of context t at offset o (R235). -/
def State.readCtx (s : State) (t : CtxNo) (o : Nat) : Word :=
  match o with
  | 0 => s.tstat t
  | 4 => s.facet.ctx[t].pc
  | 8 => s.facet.ctx[t].exit
  | _ => s.facet.ctx[t].cnt

def State.readFacet (s : State) (a : Nat) : Option (State × Word) :=
  if 0x4040 ≤ a ∧ a < 0x40C0 then got s (s.readCtx (Fin.ofNat 8 ((a - 0x4040) / 16)) (a % 16))
  else match rowOf 0x4100 8 a with
    | some j => got s (s.facet.lockOwn j)
    | none =>
      match a with
      | 0x4000 => got s s.poolWord
      | 0x4004 => got s (s.cfgAt 0x4004)
      | 0x4008 => got s s.facet.launchPc
      | 0x400C => got s s.facet.launchArg
      | 0x4010 => got s 0
      | 0x4014 => got s s.facet.lstat
      | 0x4018 => got s 0
      | 0x401C => some ({ s with facet := { s.facet with hslots := 0 } }, s.facet.hslots)
      | 0x4120 => got s (s.facet.poisonWord false)
      | 0x4124 => got s (s.facet.poisonWord true)
      | 0x4128 => got s 0
      | _ => none

/-- Registers of a Flint channel at offset o (R287). -/
def State.readFlintCh (s : State) (ch : FlintChan) (o : Nat) : Word :=
  match o with
  | 0x10 => (s.question ch).setWidth 32
  | 0x1C => s.flintStat ch
  | 0x0C => 0
  | 0x14 => 0
  | 0x18 => 0
  | o => s.cfgAt (flintBase ch + o)

def State.readFlint (s : State) (a : Nat) : Option (State × Word) :=
  if (rowOf 0x5000 8 a).isSome then got s (s.readFlintCh .host (a - 0x5000))
  else if (rowOf 0x5020 8 a).isSome then got s (s.readFlintCh .core (a - 0x5020))
  else match a with
    | 0x5040 => got s s.flint.lastWord
    | 0x5044 => got s s.nvm.rcnt[(0 : Fin 7)]
    | 0x5048 => got s s.nvm.rcnt[(1 : Fin 7)]
    | 0x504C => got s (s.flint.pend.setWidth 32)
    | 0x5050 => got s (BitVec.ofNat 32 (bit s.flint.armed 1))
    | _ => none

def State.readFault (s : State) (a : Nat) : Option (State × Word) :=
  if 0x6100 ≤ a ∧ a < 0x6300 then got s (s.cfgAt a)
  else match a with
    | 0x6000 => got s s.fault.stat
    | 0x6004 => got s s.fault.fe.info
    | 0x6008 => got s s.fault.fe.addr
    | 0x600C => got s (s.fault.fe.tick.extractLsb' 0 32)
    | 0x6010 => got s (s.fault.fe.tick.extractLsb' 32 32)
    | 0x6014 => some (s.modFault (fun f => { f with feMore := 0 }), s.fault.feMore.setWidth 32)
    | 0x6018 => got s 0
    | 0x601C => got s s.fault.dqWord
    | 0x6020 => got s 0
    | 0x6034 => got s s.qcnt
    | 0x6040 => got s (BitVec.ofNat 32 (s.fault.seq.toNat * 2 ^ 16 + s.fault.index.toNat))
    | 0x6044 => some (s.modFault (fun f => { f with lost := 0 }),
                      BitVec.ofNat 32 (s.fault.lost.toNat * 2 ^ 16 + s.fault.logq.length))
    | 0x6048 => got s s.nvm.rcnt[(2 : Fin 7)]
    | 0x604C => got s s.nvm.rcnt[(3 : Fin 7)]
    | 0x6050 => got s (s.fault.rpend.setWidth 32)
    | 0x6054 => got s (BitVec.ofNat 32 (min 15 s.recent))
    | 0x6060 => got s (if s.pow.ftm then BitVec.ofNat 32 (s.fault.injSrc.toNat * 2 ^ 16 + s.fault.injMid.toNat * 2 ^ 8) else 0)
    | _ => if (rowOf 0x6024 4 a).isSome ∨ (rowOf 0x6038 2 a).isSome then got s (s.cfgAt a) else none

def State.readNvm (s : State) (a : Nat) : Option (State × Word) :=
  match rowOf 0x7100 64 a with
  | some k => got s s.nvm.pbuf[(Fin.ofNat 64 k)]
  | none =>
    match a with
    | 0x7000 => got s 0
    | 0x7004 => got s (BitVec.ofNat 32 s.nvm.offset)
    | 0x7008 => got s s.nvm.stat
    | 0x700C => got s (BitVec.ofNat 32 (s.nvm.skey.toNat * 2 ^ 16 + s.nvm.slen.toNat))
    | 0x7010 => got s 0
    | 0x7014 => got s s.nvm.hwstep
    | 0x7018 => got s (s.cfgAt a)
    | 0x701C => got s (BitVec.ofNat 32 (s.slate.schema.toNat * 2 ^ 16))
    | 0x7020 => got s s.nvm.smin
    | 0x7024 => got s (s.found s.nvm.sseq)
    | 0x7028 => got s (s.found (BitVec.ofNat 32 s.sjFree))
    | 0x702C => got s (s.found (BitVec.ofNat 32 (s.bankSt .bankB * 2 ^ 4 + s.bankSt .bankA)))
    | 0x7030 => got s (s.found (s.gen .bankA))
    | 0x7034 => got s (s.found (s.gen .bankB))
    | 0x7038 => got s s.nvm.rcnt[(4 : Fin 7)]
    | 0x703C => got s s.nvm.rcnt[(5 : Fin 7)]
    | 0x7040 => got s s.nvm.rcnt[(6 : Fin 7)]
    | 0x7044 => got s (s.nvm.owner.setWidth 32)
    | 0x7048 => got s (s.nvm.erraddr.setWidth 32)
    | _ => none

def State.readTan (s : State) (a : Nat) : Option (State × Word) :=
  match rowOf 0x8100 36 a with
  | some k => got s s.tan.hbuf[(Fin.ofNat 36 k)]
  | none =>
    match a with
    | 0x8000 => got s (s.cfgAt a)
    | 0x8004 => got s s.tan.stat
    | 0x8008 => got s 0
    | 0x800C => got s s.tan.epochTx
    | 0x8010 => got s s.tan.epochRx
    | 0x8014 => got s (s.tan.rxtick.extractLsb' 0 32)
    | 0x8018 => got s (s.tan.rxtick.extractLsb' 32 32)
    | 0x801C => some (s.modTan (fun t => { t with perr := 0, partials := 0, defer := 0, hskip := 0 }),
                      fourBytes s.tan.perr s.tan.partials s.tan.defer s.tan.hskip)
    | 0x8020 => got s (BitVec.ofNat 32 (bit s.tan.hrdy 0))
    | _ => none

def State.readTest (s : State) (a : Nat) : Option (State × Word) :=
  match portOf s.member 0x9040 a with
  | some n => got s s.isl[n].loop.ctrl
  | none =>
    match portOf s.member 0x9080 a with
    | some n => got s s.isl[n].loop.res
    | none =>
      match a with
      | 0x9000 => got s s.pow.modeWord
      | 0x9004 => got s 0
      | _ => none

/-- A read of a host-die register by its word address; none where the index lists none (R412). -/
def State.readReg (s : State) (at' : Tick) (a : Nat) : Option (State × Word) :=
  if a < 0x1000 then s.readHost at' a
  else if a < 0x2000 then s.readSlate a
  else if a < 0x3000 then s.readEvt a
  else if a < 0x4000 then s.readDma a
  else if a < 0x5000 then s.readFacet a
  else if a < 0x6000 then s.readFlint a
  else if a < 0x7000 then s.readFault a
  else if a < 0x8000 then s.readNvm a
  else if a < 0x9000 then s.readTan a
  else s.readTest a

/-! ## Permissions -/

/-- Registers of the TEST block but ILOOP (R218, R410). -/
def testOnly (a : Nat) : Bool := decide (0x9000 ≤ a ∧ a < 0xA000) && !(decide (0x9040 ≤ a ∧ a < 0x9080))

/-- Host-die registers that no thread may store to (R218). -/
def State.threadBarred (s : State) (a : Nat) : Bool :=
  decide (a = 0x1030) || (rowOf 0x1040 8 a).isSome || decide (a = 0x4010) || decide (a = 0x4128) || (testOnly a && !s.pow.ftm)

/-- A write of this master is an access error (R113, R216, R225, R276, R278, R280, R283, R303, R341, R409). -/
def State.denied (s : State) (m : Master) (a : Nat) (w : Word) : Bool :=
  let link := decide (m = .link)
  let outsider : Bool := match m with | .link => false | .thread _ => false | _ => true
  outsider || (!link && s.threadBarred a) ||
  (match a with
   | 0x0148 => !link
   | 0x1000 => !(decide (s.slate.owner = none) || decide (s.slate.owner = some m) ||
                 (link && decide (fld w 0 3 = 4) && decide (s.slate.st ≠ .committing)))
   | 0x1008 => !s.mayStage m
   | 0x5014 => !mayAsk m .host
   | 0x5018 => !s.mayKick m .host
   | 0x5034 => !mayAsk m .core
   | 0x5038 => !s.mayKick m .core
   | 0x5050 => decide (fld w 16 16 ≠ 0) && !(decide (m = .thread 0) && s.inRom 0)
   | 0x6060 => s.pow.ftm && !link
   | 0x8008 => !link
   | _ => false)

/-! ## Writes -/

/-- A clamp is counted to the master where p holds (R12, R124). -/
def State.clampIf (s : State) (m : Master) (p : Bool) : State := if p then s.clamped m 1 else s

/-- The legal rate next to the one written (R22). -/
def rateClamp (lmode : Bool) (r : Nat) : Nat :=
  if r = 0 then 0 else if lmode then max 100 (min 25000 r) else max 25000 (min 200000 r)

/-- A write of TICKRATE (R22): the first declaration of 50 000 or more since a K4 reset counts a boot (R315). -/
def State.writeRate (s : State) (m : Master) (w : Word) : State :=
  let r := rateClamp s.link.lmode (fld w 0 18)
  let s := { s.clampIf m (decide (r ≠ fld w 0 18)) with rate := BitVec.ofNat 18 r }
  let s := if s.nvm.bootDue && decide (50000 ≤ r) then { s.counterWant 5 with nvm := { (s.counterWant 5).nvm with bootDue := false } } else s
  s.nvmNext

/-- A request at the end of the current transaction's tail (R14, R66, R101). -/
def State.atTail (s : State) (c : Instr) : State := (s.cancel c).oweAt (laterTick s.tick s.link.tail) c

/-- RETRAIN is asked for: without effect in bring-up mode and outside READY (R66, R101). -/
def State.askRetrain (s : State) : State :=
  if s.link.lmode ∨ s.link.st ≠ .ready then s
  else { s with link := { s.link with retrain := true } }.atTail .retrainApply

/-- A loopback depth is asked for; 4-7 fall back to 0 (R97, R101). -/
def State.askLoop (s : State) (m : Master) (d : Nat) : State :=
  let s := s.clampIf m (decide (3 < d))
  { s with link := { s.link with loopReq := if 3 < d then 0 else BitVec.ofNat 3 d } }.atTail .loopApply

/-- A write of LINK_CTRL (R101). -/
def State.writeLinkCtrl (s : State) (m : Master) (w : Word) : State :=
  let s := s.clampIf m (decide (fld w 0 8 = 0))
  let s := { s with link := { s.link with downLimit := BitVec.ofNat 8 (max 1 (fld w 0 8)) } }
  let s := s.askLoop m (fld w 8 3)
  if w.getLsbD 11 then s.askRetrain else s

/-- A write of SAFE_CTRL (R276, R285). -/
def State.writeSafeCtrl (s : State) (w : Word) : State :=
  let s := if w.getLsbD 0 then s.clrStill else s
  let s := if w.getLsbD 1 then s.clrSafeN else s
  if w.getLsbD 2 then s.clrFreset else s

/-- A write of PSTATE (R366, R372). -/
def State.writePstate (s : State) (m : Master) (w : Word) : State :=
  match fld w 0 2 with
  | 1 => s.reqRun m
  | 2 => s.reqPark m
  | 3 => s.reqDormant
  | _ => s

/-- A write of SLATE.CTRL: 6-7 fall back to NONE (R114, R127). -/
def State.writeSlateCtrl (s : State) (m : Master) (w : Word) : State :=
  match fld w 0 3 with
  | 1 => s.slateCmd m false (fun s => s.slateOpen m)
  | 2 => s.slateCmd m false State.slateVerify
  | 3 => s.slateCmd m false State.slateCommit
  | 4 => s.slateCmd m true State.slateAbort
  | 5 => s.slateCmd m false (fun s => s.slateLoadNvm m)
  | 0 => s
  | _ => s.clamped m 1

/-- A write of KEYCTRL: reserved codes fall back to NONE (R110, R409). -/
def State.writeKeyCtrl (s : State) (m : Master) (w : Word) : State :=
  let k : Fin 8 := Fin.ofNat 8 (fld w 0 3)
  match fld w 28 4 with
  | 0 => s
  | 1 => s.keyProgram m k
  | 2 => s.keyRevoke m k
  | 3 => s.setAuthReq m
  | 4 => if s.pow.ftm then s.keyEraseAll m else s.clamped m 1
  | _ => s.clamped m 1

def State.writeHost (s : State) (m : Master) (a : Nat) (w : Word) : State :=
  match a with
  | 0x010 => s.writeRate m w
  | 0x040 => s.writePower m w
  | 0x080 => if w.getLsbD 0 then s.ledPut (.readmit m) else s
  | 0x104 => s.writeLinkCtrl m w
  | 0x140 => s.safeCmdWrite w
  | 0x148 => s.writeSafeCtrl w
  | 0x180 => s.resetWrite w
  | 0x18C => s.writePstate m w
  | _ => s

def State.writeSlate (s : State) (m : Master) (a : Nat) (w : Word) : State :=
  match a with
  | 0x1000 => s.writeSlateCtrl m w
  | 0x1008 => s.slateStage w
  | 0x1010 => s.modSlate (fun z => { z with nvmaddr := w.extractLsb' 2 19 })
  | 0x1024 => s.holdclr w
  | 0x1030 => s.writeKeyCtrl m w
  | _ =>
    match rowOf 0x1040 8 a with
    | some k => s.modSlate (fun z => { z with keydata := z.keydata.set (Fin.ofNat 8 k) w })
    | none => s

/-- A write of SW pulses the SW sources whose bits are 1 (R240). -/
def State.swPulse (s : State) (w : Word) : State :=
  (List.range 32).foldl (fun (s : State) (k : Nat) => if w.getLsbD k then s.pulse (0x100 + k) else s) s

/-- A write of RFXCLR releases the entries of its half whose bits are 1 (R247). -/
def State.rfxClr (s : State) (hi : Bool) (w : Word) : State :=
  entries.foldl (fun (s : State) (i : Fin 64) =>
    if (decide (32 ≤ i.val) == hi) && w.getLsbD (i.val % 32) then s.rfxRelease i else s) s

def State.writeEvt (s : State) (a : Nat) (w : Word) : State :=
  match a with
  | 0x2780 => s.swPulse w
  | 0x278C => s.rfxClr false w
  | 0x2790 => s.rfxClr true w
  | _ => s

/-- A write of channel c's register at offset o: 4-7 of CMD fall back to NONE, and TAIL is writable only while the channel rests (R250,
R257, R263). -/
def State.writeCh (s : State) (m : Master) (c : ChNo) (o : Nat) (w : Word) : State :=
  match o with
  | 0x00 =>
    match fld w 0 3 with
    | 0 => s
    | 1 => s.chStart c
    | 2 => s.chStartTpl c
    | 3 => s.chDisable c
    | _ => s.clamped m 1
  | 0x08 => s.modCh c (fun h => { h with head := w &&& 0xFFFFFFF0 })
  | 0x0C => if s.dma[c].rests then s.modCh c (fun h => { h with tail := w &&& 0xFFFFFFF0 }) else s
  | 0x10 => s.appendWrite m c w
  | 0x30 => s.tplWrite c o w
  | 0x34 => s.tplWrite c o w
  | 0x38 => s.tplWrite c o w
  | 0x3C => s.tlinkWrite c w
  | _ => s

def State.writeDma (s : State) (m : Master) (a : Nat) (w : Word) (x : BitVec 19) : State :=
  if 0x3000 ≤ a ∧ a < 0x3400 then s.writeCh m (Fin.ofNat 16 ((a - 0x3000) / 0x40)) (a % 0x40) w
  else match portOf s.member 0x3A00 a with
    | some n => s.outCmd m n w (BitVec.ofNat 32 a) x
    | none => s

/-- W1C bits of TSTAT[t]: for the host link and thread t alone (R235). -/
def State.tstatClear (s : State) (m : Master) (t : CtxNo) (w : Word) : State :=
  if m = .link ∨ m = .thread t then
    s.modCtx t (fun c => { c with eovr := c.eovr && !w.getLsbD 27, ierr := c.ierr && !w.getLsbD 26, pwerr := c.pwerr && !w.getLsbD 25 })
  else s

/-- A write of LOCKCTL: 3 falls back to NONE (R224, R235). -/
def State.writeLockCtl (s : State) (m : Master) (w : Word) : State :=
  let k : Fin 64 := Fin.ofNat 64 (fld w 0 6)
  match fld w 30 2 with
  | 0 => s
  | 1 => s.forceRelease k
  | 2 => s.clearPoison k
  | _ => s.clamped m 1

def State.writeFacet (s : State) (m : Master) (a : Nat) (w : Word) : State :=
  if 0x4040 ≤ a ∧ a < 0x40C0 then (if a % 16 = 0 then s.tstatClear m (Fin.ofNat 8 ((a - 0x4040) / 16)) w else s)
  else match a with
    | 0x4008 => { s with facet := { s.facet with launchPc := w &&& 0xFFFFFFFC } }
    | 0x400C => { s with facet := { s.facet with launchArg := w } }
    | 0x4010 => (s.clampIf m (decide (8 < fld w 0 4))).launch (min 8 (fld w 0 4))
    | 0x4018 => contexts.foldl (fun (s : State) (t : CtxNo) => if w.getLsbD t.val then s.killCtx t else s) s
    | 0x4128 => s.writeLockCtl m w
    | _ => s

def State.writeFlint (s : State) (m : Master) (a : Nat) (w : Word) : State :=
  match a with
  | 0x5014 => s.qwWrite m .host (w.extractLsb' 0 16)
  | 0x5018 => s.kick m .host (w.extractLsb' 0 16)
  | 0x5034 => s.qwWrite m .core (w.extractLsb' 0 16)
  | 0x5038 => s.kick m .core (w.extractLsb' 0 16)
  | 0x5050 => s.bootWrite m (w.extractLsb' 16 16) (w.getLsbD 0)
  | _ => s

def State.writeFault (s : State) (m : Master) (a : Nat) (w : Word) : State :=
  match a with
  | 0x6000 => s.modFault (fun f => { f with feValid := f.feValid && !w.getLsbD 29, dlate := f.dlate && !w.getLsbD 28 })
  | 0x6018 => s.chclr (w.extractLsb' 0 16)
  | 0x6020 => s.decideWrite m (w.extractLsb' 8 8) (w.extractLsb' 0 2)
  | 0x6060 => s.inject m (w.getLsbD 31) (w.extractLsb' 16 8) (w.extractLsb' 8 8)
  | _ => s

/-- A write of NVM.CTRL: 7-15 fall back to NONE (R327). -/
def State.writeNvmCtrl (s : State) (m : Master) (w : Word) : State :=
  let b : Bank := if w.getLsbD 22 then .bankB else .bankA
  match fld w 28 4 with
  | 0 => s
  | 1 => s.nvmErase m
  | 2 => s.nvmProgram m (w.extractLsb' 16 4)
  | 3 => s.nvmAppend m
  | 4 =>
    match fld w 24 2 with
    | 0 => s.markWritten m b
    | 1 => s.markTrial m b
    | 2 => s.markConfirmed m b
    | _ => s.markRejected m b
  | 5 => s.nvmCompact m
  | 6 => s.nvmAbort
  | _ => s.clamped m 1

def State.writeNvm (s : State) (m : Master) (a : Nat) (w : Word) : State :=
  match rowOf 0x7100 64 a with
  | some k => { s with nvm := { s.nvm with pbuf := s.nvm.pbuf.set (Fin.ofNat 64 k) w } }
  | none =>
    match a with
    | 0x7000 => s.writeNvmCtrl m w
    | 0x7004 => { s with nvm := { s.nvm with addr := w.extractLsb' 2 19 } }
    | 0x700C =>
      let s := s.clampIf m (decide (60 < fld w 0 6))
      { s with nvm := { s.nvm with skey := w.extractLsb' 16 16, slen := BitVec.ofNat 6 (min 60 (fld w 0 6)) } }
    | 0x7010 => s.nvmStepWrite m w
    | _ => s

/-- A write of TANDEM.CMD: 5-7 fall back to NONE (R341, R348). -/
def State.writeTanCmd (s : State) (m : Master) (w : Word) : State :=
  match fld w 0 3 with
  | 0 => s
  | 1 => s.promote m
  | 2 => s.forcePromote m
  | 3 => s.handover m
  | 4 => s.demote m
  | _ => s.clamped m 1

def State.writeTan (s : State) (m : Master) (a : Nat) (w : Word) : State :=
  match rowOf 0x8100 36 a with
  | some k => s.modTan (fun t => { t with hbuf := t.hbuf.set (Fin.ofNat 36 k) w })
  | none =>
    match a with
    | 0x8008 => s.writeTanCmd m w
    | 0x8020 => s.modTan (fun t => { t with hrdy := w.getLsbD 0 })
    | _ => s

/-- A write of ILOOP[n]: depths 5-7 fall back to 0 (R403, R410). -/
def State.writeLoop (s : State) (m : Master) (n : IslandNo) (w : Word) : State :=
  let d := fld w 0 3
  let s := s.clampIf m (decide (4 < d) && decide (s.isl[n].loop.st ≠ 1))
  s.iloop m n (if 4 < d then 0 else Fin.ofNat 5 d) (w.extractLsb' 16 16) (w.extractLsb' 4 2)

def State.writeTest (s : State) (m : Master) (a : Nat) (w : Word) : State :=
  match portOf s.member 0x9040 a with
  | some n => s.writeLoop m n w
  | none => if a = 0x9004 then s.unlockWrite m w else s

/-- A host-die register takes a written word; fields that only a slate writes, RO and RC fields ignore it (R10). x: the frame and word
of a link write (R88). -/
def State.putReg (s : State) (m : Master) (a : Nat) (w : Word) (x : BitVec 19 := 0) : State :=
  if a < 0x1000 then s.writeHost m a w
  else if a < 0x2000 then s.writeSlate m a w
  else if a < 0x3000 then s.writeEvt a w
  else if a < 0x4000 then s.writeDma m a w x
  else if a < 0x5000 then s.writeFacet m a w
  else if a < 0x6000 then s.writeFlint m a w
  else if a < 0x7000 then s.writeFault m a w
  else if a < 0x8000 then s.writeNvm m a w
  else if a < 0x9000 then s.writeTan m a w
  else s.writeTest m a w

/-- The error of a write to a host-die register (R88, R113, R412). -/
def State.regWriteError (s : State) (m : Master) (a : Nat) (w : Word) : Option AccErr :=
  if (s.readReg s.tick a).isNone then some .addr else if s.denied m a w then some .master else none

/-- What a refused write still does: one of UNLOCK returns its sequence to the start (R408), and CONFIRM beside a refused BUDGET acts
(R283). -/
def State.refusedWrite (s : State) (m : Master) (a : Nat) (w : Word) : State :=
  if a = 0x9004 then s.unlockWrite m w else if a = 0x5050 ∧ w.getLsbD 0 then s.bootConfirm else s

/-- A write to a host-die register: done, or an access error. -/
def State.writeReg (s : State) (m : Master) (a : Nat) (w : Word) : State :=
  match s.regWriteError m a w with
  | none => s.putReg m a w
  | some e => (s.refusedWrite m a w).accFault e m 2 a

/-- What the RW fields of a register hold: a narrow store leaves them as they are (R10, log entry 32). -/
def State.heldWord (s : State) (a : Nat) : Word :=
  let held : Bool :=
    decide (a = 0x010) || decide (a = 0x040) || decide (a = 0x104) || decide (a = 0x140) || decide (a = 0x1010) ||
    (decide (0x3000 ≤ a ∧ a < 0x3400) && (decide (a % 0x40 = 8) || decide (a % 0x40 = 12) || decide (0x30 ≤ a % 0x40))) ||
    decide (a = 0x4008) || decide (a = 0x400C) || decide (a = 0x6060) || decide (a = 0x7004) || decide (a = 0x700C) ||
    (rowOf 0x7100 64 a).isSome || decide (a = 0x8020) || (rowOf 0x8100 36 a).isSome || (rowOf 0x9040 16 a).isSome
  if held then (match s.readReg s.tick a with | some (_, w) => w | none => 0) else 0

/-! ## Island windows -/

/-- Offsets of an island's window that the index lists (R412, R413). -/
def islListed (o : Nat) : Bool :=
  decide (o ∈ [0x000, 0x010, 0x020, 0x030, 0x034, 0x040, 0x044, 0x048, 0x04C, 0x050, 0x054, 0x060, 0x064, 0x068, 0x070, 0x074, 0x080,
    0x084, 0x088, 0x08C, 0x090, 0x0A0, 0x0A8, 0x0AC, 0x0B0, 0x0B4, 0x0C0, 0x0C4, 0x0D0, 0x0D4, 0x0D8, 0x0DC, 0x0E0]) ||
  (decide (o % 4 = 0) && (decide (0x100 ≤ o ∧ o ≤ 0x160) || decide (0x180 ≤ o ∧ o ≤ 0x1CC)))

/-- LEDGER and MICA lie on the host die, whatever the island's state (R54, R61). -/
def hostSide (o : Nat) : Bool := decide (o = 0x010) || decide (o = 0x020)

/-- A read of LEDGER or MICA; the cell counts clear (R61). -/
def State.hostSideRead (s : State) (n : IslandNo) (o : Nat) : State × Word :=
  if o = 0x010 then (s, s.ledgerWord n)
  else (s.modIsl n (fun i => { i with cellDrop := 0, cellRetry := 0, symErr := 0 }), s.micaWord n)

/-- A write of LEDGER; MICA is RO (R54, R61). -/
def State.hostSideWrite (s : State) (m : Master) (n : IslandNo) (o : Nat) (w : Word) : State :=
  if o = 0x010 then s.ledPut (.write n w m) else s

/-- ADCCMD travels as a CMD cell, whatever its OP; 5-15 fall back to NONE (R207). -/
def State.adcPut (s : State) (m : Master) (n : IslandNo) (w : Word) (x : BitVec 19) : State :=
  let op := fld w 28 4
  (s.clampIf m (decide (4 < op))).send n m
    (.cmd (.adc (if 4 < op then 0 else BitVec.ofNat 4 op) (if op = 1 then w.extractLsb' 0 4 else 0))) (BitVec.ofNat 32 (islBase n + 0x158)) x

/-- Registers whose writes do not travel as WADDR and WDATA cells (R186, R207). -/
def ownCell (o : Nat) : Bool := decide (o = 0x158) || decide (o = 0x0DC)

/-- A write of ADCCMD or HRAW. -/
def State.ownCellPut (s : State) (m : Master) (n : IslandNo) (o : Nat) (w : Word) (x : BitVec 19) : State :=
  if o = 0x158 then s.adcPut m n w x else s.hrawPut m n (w.extractLsb' 0 8) (w.getLsbD 8) x

/-! ## Rows -/

/-- TICK_LO_READ (R25): the count, with its high word kept in the snapshot; the value reaches the reader. -/
def execTickLoRead (m : Master) (s : State) : Host.Outcome State Fault Refusal :=
  s.act fun s => (s.tickRead s.tick).1.deliver m (s.tickRead s.tick).2

/-- A write to a register that lies on island n: an access error unless the island runs, and otherwise cells in its queue, which the
writer waits for (R37, R38, R88, R230, R413). -/
def State.islCells (s : State) (m : Master) (n : IslandNo) (a : Nat) (w : Word) : State :=
  if !s.running n then (match m with | .link => s.accFault .island .link 2 a | _ => s.writeFailed m (BitVec.ofNat 32 a) 0)
  else if s.queueFull n then s.owe 1 (.registerWrite m (BitVec.ofNat 32 a) w)
  else if ownCell (a % 0x1000) then s.ownCellPut m n (a % 0x1000) w 0
  else (s.send n m (.waddr (BitVec.ofNat 32 (a % 0x1000))) (BitVec.ofNat 32 a)).send n m (.wdata w) (BitVec.ofNat 32 a)

/-- REGISTER_WRITE (R10-R12, R412, R413): a write of the link or a thread to a register of the host die or of an island. -/
def execRegisterWrite (m : Master) (addr : Word) (val : Word) (s : State) : Host.Outcome State Fault Refusal :=
  s.act fun s =>
    let s := s.settle (.registerWrite m addr val)
    let a := addr.toNat / 4 * 4
    match regionOf s.member a with
    | .reg => s.writeReg m a val
    | .isl n =>
      if !islListed (a % 0x1000) then s.accFault .addr m 2 a
      else if hostSide (a % 0x1000) then s.hostSideWrite m n (a % 0x1000) val
      else s.islCells m n a val
    | _ => s.accFault .addr m 2 a

end Sys2Proof.Machine
end

