-- ==== Sys2Proof/Machine/Operands.lean ====
section
/-! DEFINITION. Operand forms: the immediates, targets and shift counts of Facet instructions (R233, R234), and the address and byte
lanes of an access. -/

namespace Sys2Proof.Machine

/-! ## Immediates -/

/-- IMM18 or OFF18 sign-extended (R233). -/
def sext18 (i : BitVec 18) : Word := i.signExtend 32

/-- IMM18 zero-extended, for ORI and XORI (R234). -/
def zext18 (i : BitVec 18) : Word := i.setWidth 32

/-- A branch target: PC + 4 x OFF18 (R234). -/
def branchTo (pc : Word) (off : BitVec 18) : Word := pc + (sext18 off <<< 2)

/-- JAL's target: PC + 4 x IMM22 (R234). -/
def jumpTo (pc : Word) (imm : BitVec 22) : Word := pc + (imm.signExtend 32 <<< 2)

/-- A shift count: bits [4:0] (R234). -/
def shiftOf {w : Nat} (v : BitVec w) : Nat := fld v 0 5

/-! ## Loads and stores -/

/-- Bytes of a load. -/
def LoadKind.bytes : LoadKind → Nat
  | .word => 4 | .half => 2 | .halfU => 2 | .byte => 1 | .byteU => 1

/-- The loaded value out of the word that holds it; the byte at the lowest address is the most significant (R234, log entry 9). -/
def LoadKind.narrow (k : LoadKind) (addr : Word) (w : Word) : Word :=
  let b := addr.toNat % 4
  match k with
  | .word => w
  | .half => (w.extractLsb' (8 * (2 - b)) 16).signExtend 32
  | .halfU => (w.extractLsb' (8 * (2 - b)) 16).setWidth 32
  | .byte => (w.extractLsb' (8 * (3 - b)) 8).signExtend 32
  | .byteU => (w.extractLsb' (8 * (3 - b)) 8).setWidth 32

/-- Byte lanes of a store of k bytes at an address; lane 3 is the most significant byte, at the lowest address. -/
def storeLanes (k : Nat) (addr : Word) : BitVec 4 :=
  let b := addr.toNat % 4
  BitVec.ofNat 4 ((2 ^ k - 1) * 2 ^ (4 - b - k))

/-- A stored value moved to its byte lanes. -/
def storeWord (k : Nat) (addr : Word) (v : Word) : Word := v <<< (8 * (4 - addr.toNat % 4 - k))

/-- Address of a word that holds an access. -/
def wordAddr (addr : Word) : Nat := addr.toNat / 4 * 4

end Sys2Proof.Machine
end

