-- ==== Sys2Proof/Machine/FacetInstr.lean ====
section
/-! DEFINITION. The Facet instructions (R208-R234). An instruction takes its effects on its issue tick s; one that accesses host-die
memory, registers, a lock or the image takes them on s + 3, or on s + 4 behind an access of the link (R210, R225, R228). Log entry
33. -/

namespace Sys2Proof.Machine

/-! ## Issue and completion -/

/-- The context can issue: HCK runs, and the context runs, has been started, no access of its last instruction is to come, and no stall
or wait of it has ended on this tick (R13, R209, R211, R217, R222, R229). -/
def State.canIssue (s : State) (t : CtxNo) : Bool :=
  s.clocked && decide (s.facet.ctx[t].st = .run) && !s.facet.ctx[t].starting && decide (s.facet.ctx[t].flight = .none) &&
  decide (s.facet.ctx[t].wokeAt ≠ some s.tick)

/-- PC goes on to the next word, and the instruction is counted (R235). -/
def State.stepPc (s : State) (t : CtxNo) : State := s.modCtx t (fun c => { c with pc := c.pc + 4, cnt := c.cnt + 1 })

/-- An instruction of context t issues: it is counted, and PC goes on to the next word unless the instruction says otherwise
(R209, R235). A context that cannot issue executes nothing, nor does any while HCK stands. -/
def State.issue (s : State) (t : CtxNo) (f : State → State) : State :=
  if s.canIssue t then f (s.stepPc t) else s

/-- The link has accessed this bank or register on this tick (R210). -/
def State.linkMet (s : State) (key : Option Nat) : Bool :=
  match key with
  | some k => decide (s.link.touch = some (s.tick, k))
  | none => false

/-- Context t accesses this bank or register on this tick (R210, R255). -/
def State.touched (s : State) (key : Option Nat) : State :=
  match key with
  | some k => { s with facet := { s.facet with touch := some (s.tick, k) } }
  | none => s

/-- The access of an instruction that has issued: f, on the context as it stands. Where the context has ended since, its own part stays as
it is, and the access completes as issued, with the registers that the instruction issued with (R215). -/
def State.flightDone (s : State) (t : CtxNo) (f : State → State) : State :=
  let c := s.facet.ctx[t]
  if c.st = .run ∧ c.starting = false ∧ c.old = none then (f s).modCtx t (fun c => { c with flight := .none })
  else
    let x := c.old.getD (c.regs, c.pc)
    (f (s.modCtx t (fun c => { c with st := .run, regs := x.1, pc := x.2 }))).modCtx t (fun _ => { c with flight := .none, old := none })

/-- An instruction c of context t that accesses the bank or register key: where it issued in its slot, its access comes now, or one tick
later behind the link's (R80, R210). A command that finds no instruction in flight issues and accesses on this tick. -/
def State.access (s : State) (t : CtxNo) (c : Instr) (key : Option Nat) (f : State → State) : State :=
  if s.facet.ctx[t].flight = .none then (s.settle c).issue t (fun s => f (s.touched key))
  else if s.clocked && s.isDue c then
    let u := s.settle c
    if s.facet.ctx[t].flight = .issued && s.linkMet key then (u.modCtx t (fun x => { x with flight := .late })).owe 1 c
    else (u.touched key).flightDone t f
  else s

/-- Ticks since the instruction issued. -/
def State.sinceIssue (s : State) (t : CtxNo) : Nat :=
  match s.facet.ctx[t].flight with
  | .none => 0
  | .issued => 3
  | .late => 4

/-- Address of the instruction that has issued. -/
def State.ipc (s : State) (t : CtxNo) : Word := s.facet.ctx[t].pc - 4

/-- Register rd of context t takes a value (R233). -/
def State.setReg (s : State) (t : CtxNo) (rd : RegNo) (v : Word) : State := s.modCtx t (fun c => c.put rd v)

/-- An instruction that computes a register value. -/
def State.alu (s : State) (t : CtxNo) (rd : RegNo) (v : Word) : State := s.issue t (fun s => s.setReg t rd v)

/-- The context stalls. -/
def State.stallOn (s : State) (t : CtxNo) (x : Stall) : State := s.modCtx t (fun c => { c with st := .stall, stall := x })

/-- A multi-slot instruction: the value is ready k ticks after the issue (R209, R234). -/
def State.slow (s : State) (t : CtxNo) (k : Nat) (rd : RegNo) (v : Word) : State :=
  (s.stallOn t (.multi rd v)).owe (k - 1) (.multiSlotDone t)

/-! ## Exceptions -/

/-- Causes of an exception (R235). -/
inductive Exc where
  | illegal | fetch | align | slice | address | priv | type
  deriving DecidableEq, Repr

def Exc.code : Exc → BitVec 3
  | .illegal => 1 | .fetch => 2 | .align => 3 | .slice => 4 | .address => 5 | .priv => 6 | .type => 7

/-- The access error that goes with an exception (R88, R288). -/
def Exc.acc : Exc → Option AccErr
  | .address => some .addr
  | .priv => some .master
  | .type => some .type
  | _ => none

/-- An exception of context t at address a (R219): the context is FAULTED with its PC at the instruction, and THREAD_EXC is raised;
typ 1 read, 2 write, 3 fetch. -/
def State.exception (s : State) (t : CtxNo) (e : Exc) (typ : BitVec 4) (a : Word) : State :=
  let s := s.modCtx t (fun c => { c with st := .faulted, cause := e.code, pc := c.pc - 4 })
  let s := match e.acc with | some x => s.accFault x (.thread t) typ a.toNat | none => s
  s.raiseBy 0x18 (.thread t) typ 0 a

/-- An illegal instruction: the address is its PC (R219). -/
def State.illegal (s : State) (t : CtxNo) : State := s.exception t .illegal 3 (s.ipc t)

/-! ## Loads -/

/-- A loaded word reaches its register. -/
def State.loaded (s : State) (t : CtxNo) (rd : RegNo) (k : LoadKind) (a : Word) (w : Word) : State := s.setReg t rd (k.narrow a w)

/-- A load from an island fails: RD gets 0, IERR is set, and the access error names the thread (R229). -/
def State.loadFails (s : State) (t : CtxNo) (rd : RegNo) (a : Word) : State :=
  ((s.setReg t rd 0).modCtx t (fun c => { c with ierr := true })).accFault .island (.thread t) 1 a.toNat

/-- The RADDR cell of a load goes into the island's queue (R229). -/
def State.loadSend (s : State) (t : CtxNo) (rd : RegNo) (k : LoadKind) (n : IslandNo) (a : Word) : State :=
  let mem := decide (regionOf s.member a.toNat = .islMem n)
  let ra : Word := if mem then BitVec.ofNat 32 (2 ^ 31 + wordAddr a % 0x4000) else BitVec.ofNat 32 (wordAddr a % 0x1000)
  (s.stallOn t (.load rd k n a none false)).send n (.thread t) (.raddr ra) (BitVec.ofNat 32 (wordAddr a))

/-- A load from an island's window or SRAM: at once where the island is not RUNNING, else by a RADDR cell, which waits while the
queue is full (R37, R229). -/
def State.loadIsl (s : State) (t : CtxNo) (rd : RegNo) (k : LoadKind) (n : IslandNo) (a : Word) : State :=
  if !s.running n then s.loadFails t rd a
  else if s.queueFull n then s.stallOn t (.loadq rd k n a)
  else s.loadSend t rd k n a

/-- A load by context t from an address (R210, R218, R219, R229). -/
def State.loadAt (s : State) (t : CtxNo) (rd : RegNo) (k : LoadKind) (a : Word) : State :=
  let w := wordAddr a
  if a.toNat % k.bytes ≠ 0 then s.exception t .align 1 a
  else match regionOf s.member a.toNat with
    | .reg =>
      match s.readReg s.tick w with
      | some (s, v) => s.loaded t rd k a v
      | none => s.exception t .address 1 a
    | .isl n =>
      if !islListed (w % 0x1000) then s.exception t .address 1 a
      else if hostSide (w % 0x1000) then
        (let r := s.hostSideRead n (w % 0x1000); r.1.loaded t rd k a r.2)
      else if w % 0x1000 = 0x0E0 then
        if s.running n then (let r := s.hrawrTake n; r.1.loaded t rd k a r.2) else s.loadFails t rd a
      else s.loadIsl t rd k n a
    | .islMem n => s.loadIsl t rd k n a
    | .slice u => if u = t ∨ s.inRom t then s.loaded t rd k a (s.sramWord w) else s.exception t .slice 1 a
    | .shared => s.loaded t rd k a (s.sramWord w)
    | .nvm =>
      if s.flashBusy (w - 0x3000_0000) then (s.accFault .type (.thread t) 1 a.toNat).slow t (24 - s.sinceIssue t) rd 0
      else s.slow t (24 - s.sinceIssue t) rd (k.narrow a (s.windowWord (w - 0x3000_0000)))
    | .rom => s.loaded t rd k a (romWord (w - 0x3F00_0000))
    | .none => s.exception t .address 1 a

/-- The bank or register that a load or store of an address takes on the host die. -/
def State.keyAt (s : State) (a : Word) : Option Nat := touchOf s.member a.toNat

/-- A load instruction c. -/
def State.load (s : State) (c : Instr) (t : CtxNo) (rd ra : RegNo) (imm : BitVec 18) (k : LoadKind) : State :=
  s.access t c (s.keyAt (s.greg t ra + sext18 imm)) (fun s => s.loadAt t rd k (s.greg t ra + sext18 imm))

/-! ## Stores -/

/-- The cells of a posted store go into the island's queue (R230). -/
def State.storeSend (s : State) (t : CtxNo) (n : IslandNo) (a : Word) (v : Word) (lanes : BitVec 4) : State :=
  let w := wordAddr a
  let m : Master := .thread t
  if regionOf s.member a.toNat = .islMem n then
    (s.send n m (.waddr (BitVec.ofNat 32 (2 ^ 31 + w % 0x4000))) (BitVec.ofNat 32 w)).send n m (.wdata v) (BitVec.ofNat 32 w)
      (lanes.setWidth 19)
  else if ownCell (w % 0x1000) then s.ownCellPut m n (w % 0x1000) (v &&& laneMask lanes) 0
  else
    (s.send n m (.waddr (BitVec.ofNat 32 (w % 0x1000))) (BitVec.ofNat 32 w)).send n m (.wdata v) (BitVec.ofNat 32 w)
      (lanes.setWidth 19)

/-- A store to an island is posted; it fails where the island is not RUNNING, and waits while the queue is full (R37, R230). -/
def State.storeIsl (s : State) (t : CtxNo) (n : IslandNo) (a : Word) (v : Word) (lanes : BitVec 4) : State :=
  if !s.running n then s.writeFailed (.thread t) a 0
  else if s.queueFull n then s.stallOn t (.store n a v lanes)
  else s.storeSend t n a v lanes

/-- The low k bytes of a value are stored in SRAM from an address up, the most significant first. -/
def State.putNarrow (s : State) (a : Nat) (k : Nat) (v : Word) : State := s.putBytes a ((wordsBytes [v]).drop (4 - k))

/-- A store of k bytes by context t (R210, R218, R219, R230). -/
def State.storeAt (s : State) (t : CtxNo) (k : Nat) (a : Word) (v : Word) : State :=
  let w := wordAddr a
  let lanes := storeLanes k a
  let x := storeWord k a v
  if a.toNat % k ≠ 0 then s.exception t .align 2 a
  else match regionOf s.member a.toNat with
    | .reg =>
      if (s.readReg s.tick w).isNone then s.exception t .address 2 a
      else if s.threadBarred w then (if w = 0x9004 then s.unlockWrite (.thread t) 0 else s).exception t .priv 2 a
      else s.writeReg (.thread t) w (if k = 4 then v else mergeLanes lanes (s.heldWord w) x)
    | .isl n =>
      if !islListed (w % 0x1000) then s.exception t .address 2 a
      else if hostSide (w % 0x1000) then
        s.hostSideWrite (.thread t) n (w % 0x1000) (if k = 4 then v else mergeLanes lanes (s.ledgerWord n) x)
      else s.storeIsl t n a x lanes
    | .islMem n => s.storeIsl t n a x lanes
    | .slice u => if u = t ∨ s.inRom t then s.putNarrow a.toNat k v else s.exception t .slice 2 a
    | .shared => if (s.cfgAt 0x4004).getLsbD t.val then s.putNarrow a.toNat k v else s.exception t .priv 2 a
    | .nvm => s.exception t .type 2 a
    | .rom => s.exception t .type 2 a
    | .none => s.exception t .address 2 a

/-- A store instruction c. -/
def State.store (s : State) (c : Instr) (t : CtxNo) (ra rb : RegNo) (off : BitVec 18) (k : Nat) : State :=
  s.access t c (s.keyAt (s.greg t ra + sext18 off)) (fun s => s.storeAt t k (s.greg t ra + sext18 off) (s.greg t rb))

/-! ## Arithmetic -/

/-- Signed division truncated toward 0; 0 for a divisor of 0 (R234). -/
def divS (a b : Word) : Word := if b = 0 then 0 else BitVec.ofInt 32 (a.toInt.tdiv b.toInt)

/-- The remainder of divS; a for a divisor of 0 (R234). -/
def remS (a b : Word) : Word := if b = 0 then a else BitVec.ofInt 32 (a.toInt.tmod b.toInt)

/-- 1 where p holds. -/
def flag (p : Bool) : Word := if p then 1 else 0

/-- ADD (R234). -/
def execAdd (t : CtxNo) (rd ra rb : RegNo) (s : State) : Host.Outcome State Fault Refusal :=
  .next (s.alu t rd (s.greg t ra + s.greg t rb))

/-- SUB (R234). -/
def execSub (t : CtxNo) (rd ra rb : RegNo) (s : State) : Host.Outcome State Fault Refusal :=
  .next (s.alu t rd (s.greg t ra - s.greg t rb))

/-- AND (R234). -/
def execAnd (t : CtxNo) (rd ra rb : RegNo) (s : State) : Host.Outcome State Fault Refusal :=
  .next (s.alu t rd (s.greg t ra &&& s.greg t rb))

/-- OR (R234). -/
def execOr (t : CtxNo) (rd ra rb : RegNo) (s : State) : Host.Outcome State Fault Refusal :=
  .next (s.alu t rd (s.greg t ra ||| s.greg t rb))

/-- XOR (R234). -/
def execXor (t : CtxNo) (rd ra rb : RegNo) (s : State) : Host.Outcome State Fault Refusal :=
  .next (s.alu t rd (s.greg t ra ^^^ s.greg t rb))

/-- SLL (R234). -/
def execSll (t : CtxNo) (rd ra rb : RegNo) (s : State) : Host.Outcome State Fault Refusal :=
  .next (s.alu t rd (s.greg t ra <<< shiftOf (s.greg t rb)))

/-- SRL (R234). -/
def execSrl (t : CtxNo) (rd ra rb : RegNo) (s : State) : Host.Outcome State Fault Refusal :=
  .next (s.alu t rd (s.greg t ra >>> shiftOf (s.greg t rb)))

/-- SRA (R234). -/
def execSra (t : CtxNo) (rd ra rb : RegNo) (s : State) : Host.Outcome State Fault Refusal :=
  .next (s.alu t rd ((s.greg t ra).sshiftRight (shiftOf (s.greg t rb))))

/-- SLT (R234). -/
def execSlt (t : CtxNo) (rd ra rb : RegNo) (s : State) : Host.Outcome State Fault Refusal :=
  .next (s.alu t rd (flag ((s.greg t ra).slt (s.greg t rb))))

/-- SLTU (R234). -/
def execSltu (t : CtxNo) (rd ra rb : RegNo) (s : State) : Host.Outcome State Fault Refusal :=
  .next (s.alu t rd (flag ((s.greg t ra).ult (s.greg t rb))))

/-- MUL (R234). -/
def execMul (t : CtxNo) (rd ra rb : RegNo) (s : State) : Host.Outcome State Fault Refusal :=
  .next (s.alu t rd (s.greg t ra * s.greg t rb))

/-- MULH (R234). -/
def execMulh (t : CtxNo) (rd ra rb : RegNo) (s : State) : Host.Outcome State Fault Refusal :=
  .next (s.alu t rd (BitVec.ofInt 32 ((s.greg t ra).toInt * (s.greg t rb).toInt / 4294967296)))

/-- DIV (R234): 40 tk. -/
def execDiv (t : CtxNo) (rd ra rb : RegNo) (s : State) : Host.Outcome State Fault Refusal :=
  .next (s.issue t (fun s => s.slow t 40 rd (divS (s.greg t ra) (s.greg t rb))))

/-- REM (R234): 40 tk. -/
def execRem (t : CtxNo) (rd ra rb : RegNo) (s : State) : Host.Outcome State Fault Refusal :=
  .next (s.issue t (fun s => s.slow t 40 rd (remS (s.greg t ra) (s.greg t rb))))

/-- MIN (R234). -/
def execMin (t : CtxNo) (rd ra rb : RegNo) (s : State) : Host.Outcome State Fault Refusal :=
  .next (s.alu t rd (if (s.greg t ra).slt (s.greg t rb) then s.greg t ra else s.greg t rb))

/-- MAX (R234). -/
def execMax (t : CtxNo) (rd ra rb : RegNo) (s : State) : Host.Outcome State Fault Refusal :=
  .next (s.alu t rd (if (s.greg t ra).slt (s.greg t rb) then s.greg t rb else s.greg t ra))

/-- ADDI (R234). -/
def execAddi (t : CtxNo) (rd ra : RegNo) (imm : BitVec 18) (s : State) : Host.Outcome State Fault Refusal :=
  .next (s.alu t rd (s.greg t ra + sext18 imm))

/-- ANDI (R234). -/
def execAndi (t : CtxNo) (rd ra : RegNo) (imm : BitVec 18) (s : State) : Host.Outcome State Fault Refusal :=
  .next (s.alu t rd (s.greg t ra &&& sext18 imm))

/-- ORI (R234). -/
def execOri (t : CtxNo) (rd ra : RegNo) (imm : BitVec 18) (s : State) : Host.Outcome State Fault Refusal :=
  .next (s.alu t rd (s.greg t ra ||| zext18 imm))

/-- XORI (R234). -/
def execXori (t : CtxNo) (rd ra : RegNo) (imm : BitVec 18) (s : State) : Host.Outcome State Fault Refusal :=
  .next (s.alu t rd (s.greg t ra ^^^ zext18 imm))

/-- SLLI (R234). -/
def execSlli (t : CtxNo) (rd ra : RegNo) (imm : BitVec 18) (s : State) : Host.Outcome State Fault Refusal :=
  .next (s.alu t rd (s.greg t ra <<< shiftOf imm))

/-- SRLI (R234). -/
def execSrli (t : CtxNo) (rd ra : RegNo) (imm : BitVec 18) (s : State) : Host.Outcome State Fault Refusal :=
  .next (s.alu t rd (s.greg t ra >>> shiftOf imm))

/-- SRAI (R234). -/
def execSrai (t : CtxNo) (rd ra : RegNo) (imm : BitVec 18) (s : State) : Host.Outcome State Fault Refusal :=
  .next (s.alu t rd ((s.greg t ra).sshiftRight (shiftOf imm)))

/-- SLTI (R234). -/
def execSlti (t : CtxNo) (rd ra : RegNo) (imm : BitVec 18) (s : State) : Host.Outcome State Fault Refusal :=
  .next (s.alu t rd (flag ((s.greg t ra).slt (sext18 imm))))

/-- SLTIU (R234): the immediate is sign-extended (R233) and compared as unsigned. -/
def execSltiu (t : CtxNo) (rd ra : RegNo) (imm : BitVec 18) (s : State) : Host.Outcome State Fault Refusal :=
  .next (s.alu t rd (flag ((s.greg t ra).ult (sext18 imm))))

/-- LUI (R234). -/
def execLui (t : CtxNo) (rd : RegNo) (imm : BitVec 22) (s : State) : Host.Outcome State Fault Refusal :=
  .next (s.alu t rd (imm.setWidth 32 <<< 10))

/-! ## Memory -/

/-- LDW (R210, R229, R234). -/
def execLdw (t : CtxNo) (rd ra : RegNo) (imm : BitVec 18) (s : State) : Host.Outcome State Fault Refusal :=
  .next (s.load (.ldw t rd ra imm) t rd ra imm .word)

/-- LDH (R210, R234). -/
def execLdh (t : CtxNo) (rd ra : RegNo) (imm : BitVec 18) (s : State) : Host.Outcome State Fault Refusal :=
  .next (s.load (.ldh t rd ra imm) t rd ra imm .half)

/-- LDHU (R210, R234). -/
def execLdhu (t : CtxNo) (rd ra : RegNo) (imm : BitVec 18) (s : State) : Host.Outcome State Fault Refusal :=
  .next (s.load (.ldhu t rd ra imm) t rd ra imm .halfU)

/-- LDB (R210, R234). -/
def execLdb (t : CtxNo) (rd ra : RegNo) (imm : BitVec 18) (s : State) : Host.Outcome State Fault Refusal :=
  .next (s.load (.ldb t rd ra imm) t rd ra imm .byte)

/-- LDBU (R210, R234). -/
def execLdbu (t : CtxNo) (rd ra : RegNo) (imm : BitVec 18) (s : State) : Host.Outcome State Fault Refusal :=
  .next (s.load (.ldbu t rd ra imm) t rd ra imm .byteU)

/-- STW (R210, R230, R234). -/
def execStw (t : CtxNo) (ra rb : RegNo) (off : BitVec 18) (s : State) : Host.Outcome State Fault Refusal :=
  .next (s.store (.stw t ra rb off) t ra rb off 4)

/-- STH (R210, R234). -/
def execSth (t : CtxNo) (ra rb : RegNo) (off : BitVec 18) (s : State) : Host.Outcome State Fault Refusal :=
  .next (s.store (.sth t ra rb off) t ra rb off 2)

/-- STB (R210, R234). -/
def execStb (t : CtxNo) (ra rb : RegNo) (off : BitVec 18) (s : State) : Host.Outcome State Fault Refusal :=
  .next (s.store (.stb t ra rb off) t ra rb off 1)

/-! ## Branches and jumps -/

/-- A branch: taken where p holds (R234). -/
def State.branch (s : State) (t : CtxNo) (off : BitVec 18) (p : Bool) : State :=
  s.issue t (fun s => if p then s.modCtx t (fun c => { c with pc := branchTo (c.pc - 4) off }) else s)

/-- BEQ (R234). -/
def execBeq (t : CtxNo) (ra rb : RegNo) (off : BitVec 18) (s : State) : Host.Outcome State Fault Refusal :=
  .next (s.branch t off (decide (s.greg t ra = s.greg t rb)))

/-- BNE (R234). -/
def execBne (t : CtxNo) (ra rb : RegNo) (off : BitVec 18) (s : State) : Host.Outcome State Fault Refusal :=
  .next (s.branch t off (decide (s.greg t ra ≠ s.greg t rb)))

/-- BLT (R234). -/
def execBlt (t : CtxNo) (ra rb : RegNo) (off : BitVec 18) (s : State) : Host.Outcome State Fault Refusal :=
  .next (s.branch t off ((s.greg t ra).slt (s.greg t rb)))

/-- BGE (R234). -/
def execBge (t : CtxNo) (ra rb : RegNo) (off : BitVec 18) (s : State) : Host.Outcome State Fault Refusal :=
  .next (s.branch t off (!(s.greg t ra).slt (s.greg t rb)))

/-- BLTU (R234). -/
def execBltu (t : CtxNo) (ra rb : RegNo) (off : BitVec 18) (s : State) : Host.Outcome State Fault Refusal :=
  .next (s.branch t off ((s.greg t ra).ult (s.greg t rb)))

/-- BGEU (R234). -/
def execBgeu (t : CtxNo) (ra rb : RegNo) (off : BitVec 18) (s : State) : Host.Outcome State Fault Refusal :=
  .next (s.branch t off (!(s.greg t ra).ult (s.greg t rb)))

/-- A jump: rd = PC + 4, and PC takes the target (R234). -/
def State.jump (s : State) (t : CtxNo) (rd : RegNo) (target : Word) : State :=
  s.issue t (fun s => s.modCtx t (fun c => { (c.put rd c.pc) with pc := target }))

/-- JALR (R234). -/
def execJalr (t : CtxNo) (rd ra : RegNo) (imm : BitVec 18) (s : State) : Host.Outcome State Fault Refusal :=
  .next (s.jump t rd ((s.greg t ra + sext18 imm) &&& 0xFFFFFFFC))

/-- JAL (R234). -/
def execJal (t : CtxNo) (rd : RegNo) (imm : BitVec 22) (s : State) : Host.Outcome State Fault Refusal :=
  .next (s.jump t rd (jumpTo s.facet.ctx[t].pc imm))

/-! ## Threads -/

/-- A FORK that has issued: the child's first slot is s + 8 + ((child - parent) mod 8) (R216, R217). -/
def State.forkNow (s : State) (t : CtxNo) (rd : RegNo) (pc arg : Word) (ctx : Nat) : State :=
  match s.findCtx ctx pc with
  | .inr f => s.setReg t rd (BitVec.ofNat 32 (2 ^ 31 + f.code))
  | .inl u => (s.startCtx u pc arg (s.tick + BitVec.ofNat 64 (8 + (u.val + 8 - t.val) % 8))).setReg t rd (BitVec.ofNat 32 u.val)

/-- FORK (R216, R217, R234): CTX 9-15 is illegal. -/
def execFork (t : CtxNo) (rd ra rb : RegNo) (fn : BitVec 14) (s : State) : Host.Outcome State Fault Refusal :=
  .next (s.issue t (fun s =>
    if 8 < fld fn 0 4 then s.illegal t else s.forkNow t rd (s.greg t ra) (s.greg t rb) (fld fn 0 4)))

/-- JOIN (R213, R217): the context is free from s + 8 on. -/
def execJoin (t : CtxNo) (ra : RegNo) (s : State) : Host.Outcome State Fault Refusal :=
  .next (s.issue t (fun s => s.endCtx t (s.greg t ra) false 8))

/-- The stamp of a wake or of EL: tick bits [30:0] (R222). -/
def stamp (u : Tick) : Word := u.setWidth 32 &&& 0x7FFFFFFF

/-- WFE (R222): illegal without a watched line and without a timeout. -/
def State.wfe (s : State) (t : CtxNo) (rd : RegNo) (timeout : Word) : State :=
  let c := s.facet.ctx[t]
  if !c.warm && decide (timeout = 0) then s.illegal t
  else if c.el then (s.setReg t rd (stamp c.elTick)).modCtx t (fun c => { c with el := false })
  else
    let s := s.modCtx t (fun c => { c with st := .wait, wrd := rd })
    if timeout = 0 then s else s.owe timeout.toNat (.wfeTimeout t)

def execWfe (t : CtxNo) (rd ra : RegNo) (s : State) : Host.Outcome State Fault Refusal :=
  .next (s.issue t (fun s => s.wfe t rd (s.greg t ra)))

/-- WFE_TIMEOUT (R222): the tick of the timeout has come; the context wakes with bit 31 set. -/
def execWfeTimeout (t : CtxNo) (s : State) : Host.Outcome State Fault Refusal :=
  s.act fun s =>
    let c := s.facet.ctx[t]
    let u := s.settle (.wfeTimeout t)
    if !s.isDue (.wfeTimeout t) then s
    else if c.st = .wait then (u.setReg t c.wrd (stamp s.tick ||| 0x80000000)).modCtx t (fun c =>
        { c with st := .run, el := false, wokeAt := some s.tick })
    else u

/-- WATCH (R221): imm[8] disarms. -/
def execWatch (t : CtxNo) (imm : BitVec 18) (s : State) : Host.Outcome State Fault Refusal :=
  .next (s.issue t (fun s =>
    s.modCtx t (fun c =>
      if imm.getLsbD 8 then { c with warm := false }
      else { c with w := imm.extractLsb' 0 8, warm := true, el := false, watchAt := some s.tick })))

/-! ## Locks -/

/-- The lock that an immediate names. -/
def lockNo (imm : BitVec 18) : Fin 64 := Fin.ofNat 64 (fld imm 0 6)

/-- LOCK: 0 ACQUIRED, 1 BUSY with the owner in [7:4], 2 POISONED, 3 OWNED (R224). -/
def State.lockTry (s : State) (t : CtxNo) (k : Fin 64) : State × Word :=
  let l := s.facet.locks[k]
  match l.owner with
  | none => (s.modLock k (fun l => { l with owner := some t }), if l.poison then 2 else 0)
  | some u => if u = t then (s, 3) else (s, BitVec.ofNat 32 (16 * u.val + 1))

/-- LOCK (R224, R225). -/
def execLock (t : CtxNo) (rd : RegNo) (imm : BitVec 18) (s : State) : Host.Outcome State Fault Refusal :=
  .next (s.access t (.lock t rd imm) none (fun s => let r := s.lockTry t (lockNo imm); r.1.setReg t rd r.2))

/-- UNLK and CLRP act on an owned lock: 0, or 1 NOT_OWNER (R224). -/
def State.lockOwned (s : State) (t : CtxNo) (k : Fin 64) (f : Lock → Lock) : State × Word :=
  if s.facet.locks[k].owner = some t then (s.modLock k f, 0) else (s, 1)

/-- UNLK (R224): the poison stays. -/
def execUnlk (t : CtxNo) (rd : RegNo) (imm : BitVec 18) (s : State) : Host.Outcome State Fault Refusal :=
  .next (s.access t (.unlk t rd imm) none (fun s =>
    let r := s.lockOwned t (lockNo imm) (fun l => { l with owner := none }); r.1.setReg t rd r.2))

/-- CLRP (R224). -/
def execClrp (t : CtxNo) (rd : RegNo) (imm : BitVec 18) (s : State) : Host.Outcome State Fault Refusal :=
  .next (s.access t (.clrp t rd imm) none (fun s =>
    let r := s.lockOwned t (lockNo imm) (fun l => { l with poison := false }); r.1.setReg t rd r.2))

/-! ## Ticks and images -/

/-- RDTK (R234): 0 reads the count and takes the snapshot, 1 reads the snapshot, other immediates are illegal. -/
def execRdtk (t : CtxNo) (rd : RegNo) (imm : BitVec 18) (s : State) : Host.Outcome State Fault Refusal :=
  .next (s.issue t (fun s =>
    if imm = 0 then (s.modCtx t (fun c => { c with snap := s.tick.extractLsb' 32 32 })).setReg t rd (s.tick.extractLsb' 0 32)
    else if imm = 1 then s.setReg t rd s.facet.ctx[t].snap
    else s.illegal t))

/-- IMGR (R228): immediates of 17 and above are illegal. -/
def execImgr (t : CtxNo) (rd : RegNo) (imm : BitVec 18) (s : State) : Host.Outcome State Fault Refusal :=
  .next (s.access t (.imgr t rd imm) none (fun s => if 17 ≤ imm.toNat then s.illegal t else s.setReg t rd (s.imgWord imm.toNat)))

/-! ## Output commands and FENCE -/

/-- OUTC (R231): 1 where the island is not RUNNING, and on a standby (R336); it stalls while the queue is full. -/
def State.outc (s : State) (t : CtxNo) (rd : RegNo) (n : IslandNo) (v : Word) : State :=
  if !s.takesOut n then s.setReg t rd 1
  else if s.queueFull n then s.stallOn t (.outc rd n v)
  else (s.outCmd (.thread t) n v 0).setReg t rd 0

def execOutc (t : CtxNo) (rd ra : RegNo) (imm : BitVec 18) (s : State) : Host.Outcome State Fault Refusal :=
  .next (s.issue t (fun s => s.outc t rd (Fin.ofNat 16 (fld imm 0 4)) (s.greg t ra)))

/-- A FENCE completes: RD gets the failures since the previous one (R232). -/
def State.fenceDone (s : State) (t : CtxNo) (rd : RegNo) : State :=
  (s.setReg t rd (BitVec.ofNat 32 s.facet.ctx[t].fails)).modCtx t (fun c => { c with st := .run, stall := .none, fails := 0, wokeAt := some s.tick })

/-- FENCE (R232). -/
def execFence (t : CtxNo) (rd : RegNo) (s : State) : Host.Outcome State Fault Refusal :=
  .next (s.issue t (fun s =>
    if !s.outstanding t then s.fenceDone t rd
    else (s.stallOn t (.fence rd)).fenceCheck t))

/-- FENCE_COMPLETE (R232). -/
def execFenceComplete (t : CtxNo) (s : State) : Host.Outcome State Fault Refusal :=
  s.act fun s =>
    let s := s.settle (.fenceComplete t)
    match s.facet.ctx[t].stall with
    | .fence rd => if s.outstanding t then s else s.fenceDone t rd
    | _ => s

/-! ## The end of a stall -/

/-- ISLAND_LOAD_RETURN (R229): RD is written on this tick, and the context runs again. -/
def execIslandLoadReturn (t : CtxNo) (s : State) : Host.Outcome State Fault Refusal :=
  s.act fun s =>
    let s := s.settle (.islandLoadReturn t)
    match s.facet.ctx[t].stall with
    | .load rd k _ a (some v) failed =>
      (s.setReg t rd (if failed then 0 else k.narrow a v)).modCtx t (fun c =>
        { c with st := .run, stall := .none, ierr := c.ierr || failed, wokeAt := some s.tick })
    | _ => s

/-- MULTI_SLOT_DONE (R209): the work of a multi-slot instruction is complete on the tick that it owes. -/
def execMultiSlotDone (t : CtxNo) (s : State) : Host.Outcome State Fault Refusal :=
  s.act fun s =>
    let u := s.settle (.multiSlotDone t)
    if !s.isDue (.multiSlotDone t) then s
    else match s.facet.ctx[t].stall with
      | .multi rd v => (u.setReg t rd v).modCtx t (fun c => { c with st := .run, stall := .none, wokeAt := some s.tick })
      | _ => u

/-- A posted store or output command that waits for a full queue can go: there is a place, or the island has left RUNNING (R230). -/
def State.mayPost (s : State) : Stall → Bool
  | .store n _ _ _ => !s.running n || !s.queueFull n
  | .outc _ n _ => !s.takesOut n || !s.queueFull n
  | _ => false

/-- What it does on the island's side (R230, R231). -/
def State.post (s : State) (t : CtxNo) : Stall → State
  | .store n a v lanes => s.storeIsl t n a v lanes
  | .outc _ n v => s.outCmd (.thread t) n v 0
  | _ => s

/-- In its own slot a context that waits completes its store or OUTC, and issues again in the next one (R230). Those of a context that has
ended complete in its slots too (R215). -/
def State.posts (s : State) (t : CtxNo) : State :=
  let s := match s.facet.ctx[t].left with
    | x :: l => if s.mayPost x then (s.modCtx t (fun c => { c with left := l })).post t x else s
    | [] => s
  let x := s.facet.ctx[t].stall
  if s.mayPost x then
    let u := s.post t x
    (match x with | .outc rd n _ => u.setReg t rd (if s.takesOut n then 0 else 1) | _ => u).modCtx t (fun c =>
      { c with st := .run, stall := .none })
  else s

/-- A load of context t that waits for a place in island n's queue goes on, or fails where the island has left RUNNING (R37, R229). -/
def State.queueGo (s : State) (n : IslandNo) (t : CtxNo) : State :=
  match s.facet.ctx[t].stall with
  | .loadq rd k m a =>
    if m ≠ n then s
    else if !s.running n then (s.loadFails t rd a).modCtx t (fun c => { c with st := .run, stall := .none, wokeAt := some s.tick })
    else if s.queueFull n then s
    else s.loadSend t rd k n a
  | _ => s

/-- ISLAND_QUEUE_FREE (R37, R229): loads go on in ascending order of their contexts while there is room. Stores and output commands go
on in their contexts' slots (R230). -/
def execIslandQueueFree (n : IslandNo) (s : State) : Host.Outcome State Fault Refusal :=
  s.act fun s => contexts.foldl (fun (s : State) (t : CtxNo) => s.queueGo n t) (s.settle (.islandQueueFree n))

end Sys2Proof.Machine
end

