-- ==== Sys2Proof/Machine/Harvest.lean ====
section
/-! DEFINITION. The harvest engines in a lent slot: the fault-log writer, the DMA list walker and the scaler (R211, R253, R256,
R295, R296). -/

namespace Sys2Proof.Machine

/-! ## The fault-log writer -/

/-- Words 0-6 of a ring-log record (R295). -/
def FaultRec.head (r : FaultRec) : List Word :=
  [BitVec.ofNat 32 (r.seq.toNat * 2 ^ 16 + r.src.toNat * 2 ^ 8 + r.mid.toNat),
   BitVec.ofNat 32 (r.typ.toNat * 2 ^ 28 + r.cls.toNat * 2 ^ 26 + r.dec.toNat * 2 ^ 24 + bit r.inj 23 + bit r.capt 22 + r.kind.toNat),
   r.addr, r.came.extractLsb' 0 32, r.came.extractLsb' 32 32, r.detail, 0]

/-- The eight words of a record: the last one is CHECK (R295). -/
def FaultRec.words (r : FaultRec) : List Word := r.head ++ [crc32c r.head]

/-- First byte of record k of the ring (R295). -/
def State.ringAddr (s : State) (k : Nat) : Nat := (s.cfgAt 0x6038).toNat + 32 * k

/-- Records of the ring (R304). -/
def State.ringLen (s : State) : Nat := max 1 (s.cfgAt 0x603C).toNat

/-- The writer writes one word of the first record that waits; a record keeps the address at which it was begun (R295, R296). -/
def State.logStep (s : State) : State :=
  match s.fault.logq with
  | [] => s
  | r :: rest =>
    let k := s.fault.logWord
    let a := if k = 0 then s.ringAddr s.fault.index.toNat else s.fault.logAddr
    let s := s.putSram (a + 4 * k) (r.words.getD k 0)
    if k < 7 then s.modFault (fun f => { f with logWord := k + 1, logAddr := a })
    else s.modFault (fun f =>
      { f with logWord := 0, logAddr := a, logq := rest, logMoved := false,
               index := if f.logMoved then f.index else BitVec.ofNat 16 ((f.index.toNat + 1) % s.ringLen) })

/-! ## The list walker -/

/-- The walker has work for channel c (R253). Log entry 49. -/
def State.walks (s : State) (c : ChNo) : Bool := decide (s.dma[c].st = .fetch) && !s.chHaw c

/-- The walker reads one descriptor word of channel c; the fourth is read by DESCRIPTOR_FETCHED on this tick (R253). A fetch that
PERM does not allow ends the channel in ERROR (R252, R259). -/
def State.walkStep (s : State) (c : ChNo) : State :=
  if s.dma[c].fetched = 3 ∧ s.mayFetch c s.dma[c].cur.toNat then s.owe 0 (.descriptorFetched c) else s.walkWord c

/-! ## The slot -/

/-- The byte address of the word that the log writer writes next. -/
def State.logTo (s : State) : Nat :=
  (if s.fault.logWord = 0 then s.ringAddr s.fault.index.toNat else s.fault.logAddr) + 4 * s.fault.logWord

/-- What the engines do with a lent slot; none where none of them has work, and nothing where the one whose turn it is yields its bank to
a thread or a link word on this tick (R80, R210, R211). -/
def State.harvest (s : State) : Option State :=
  if s.fault.logq ≠ [] then some (if s.bankTaken s.logTo then s else s.logStep)
  else match channels.find? (fun c => s.walks c) with
    | some c => some (if s.bankTaken (s.dma[c].cur.toNat + 4 * s.dma[c].fetched) then s else s.walkStep c)
    | none =>
      match channels.find? (fun c => s.dma[c].unscaled) with
      | some c => some (s.scaleStep c)
      | none => none

/-- HSLOTS counts a slot that an engine takes (R211, R235). -/
def State.slotTaken (s : State) : State := { s with facet := { s.facet with hslots := satAdd s.facet.hslots 1 } }

/-- HARVEST_SLOT (R211). -/
def execHarvestSlot (s : State) : Host.Outcome State Fault Refusal :=
  s.act fun s => match s.harvest with | some u => u.slotTaken | none => s

end Sys2Proof.Machine
end

