-- ==== Sys2Proof/Machine/Link.lean ====
section
/-! DEFINITION. The Igwin link: training, headers, checks, sequence numbers, the command queue and what each frame does (R62-R101). -/

namespace Sys2Proof.Machine

/-! ## Words -/

/-- Fields of a header word (R69). -/
def frameSync (h : Word) : Nat := fld h 24 8
def frameType (h : Word) : Nat := fld h 20 4
def frameSeq (h : Word) : BitVec 4 := h.extractLsb' 16 4
def frameLen (h : Word) : Nat := fld h 0 16

/-- LEN is legal for TYPE (R70). -/
def lenLegal (type len : Nat) : Bool :=
  match type with
  | 1 => decide (len = 24)
  | 2 => decide (2 ≤ len ∧ len ≤ 257)
  | 3 => decide (1 ≤ len ∧ len ≤ 64)
  | 4 => decide (2 ≤ len ∧ len ≤ 1025)
  | 5 => decide (1 ≤ len ∧ len ≤ 2)
  | 6 => decide (len ≤ 1024)
  | _ => false

/-- The header of a twin: SYNC 0x4B, and TYPE, SEQ and LEN as received (R72). -/
def twinHeader (h : Word) : Word := 0x4B00_0000 ||| (h &&& 0x00FF_FFFF)

/-- The link after f. -/
def State.modLink (s : State) (f : Link → Link) : State := { s with link := f s.link }

/-- The SH16 reaches ECHO within 192 words of TP (R67). -/
def tpWords : Nat := 192

/-- Where the bits of tick k of a word sit: rising edge on lanes 0 and 1, falling edge on lanes 0 and 1, from bit 3 down (R63). -/
def laneBits (w : Word) (k : Nat) : BitVec 4 := BitVec.ofNat 4 (fld w (28 - 4 * k) 4)

/-- The word whose eight ticks had these bits, the first tick first: words travel MSB first (R63). -/
def ofLaneBits (l : List (BitVec 4)) : Word := l.foldl (fun w b => (w <<< 4) ||| b.setWidth 32) 0

/-- Ticks of a word: 8, and 32 in bring-up mode (R63, R99). -/
def Link.wordTk (l : Link) : Nat := if l.lmode then 32 else 8

/-- The host die follows its lands: HCK runs, and no K4 reset is asserted or deferred (R16, R350). -/
def State.awake (s : State) : Bool := s.pow.hck && !s.pow.k4 && !s.pow.deferral

/-- Frames are taken (R65, R66). -/
def State.linkReady (s : State) : Bool := s.awake && decide (s.link.st = .ready)

/-! ## Faults and the limit of bad frames -/

/-- A link fault: master host link, access type frame, the header word, the stamp of the header tick (R95, R295). -/
def State.linkFault (s : State) (src : Byte) (hdr : Word) (t : Tick) : State := s.raiseAt t src (mid .link) 4 0 hdr hdr false

/-- A row that brings a frame's payload and CRC. -/
def isFrame : Instr → Bool
  | .cycle _ _ => true
  | .regw _ _ => true
  | .regr _ _ => true
  | .bulk _ _ => true
  | .idleFrame _ _ => true
  | .ctrlNop _ _ => true
  | .linkReset _ _ => true
  | .ctrlRetrain _ _ => true
  | .resendReads _ _ => true
  | .flushReads _ _ => true
  | .ctrlLoop _ _ => true
  | _ => false

/-- The frame in progress is not taken: nothing of it is awaited. -/
def State.dropFrame (s : State) : State :=
  ({ s with due := s.due.filter (fun e => !isFrame e.2) } : State).modLink (fun l => { l with cur := none })

/-- The link returns to UNTRAINED (R66). -/
def State.untrain (s : State) : State :=
  (s.cancel .retrainApply).dropFrame.modLink (fun l => { l with st := .untrained, retrain := false })

/-- One more frame with a SYNC, FORMAT or CRC error: at DOWN_LIMIT the link is lost (R94). -/
def State.badFrame (s : State) (hdr : Word) (t : Tick) : State :=
  let s := s.modLink (fun l => { l with bad := l.bad + 1 })
  if s.link.downLimit.toNat ≤ s.link.bad then
    let s := (s.linkFault 0x04 hdr t).modLink (fun l => { l with bad := 0, evDown := satAdd l.evDown 1 })
    if s.link.lmode then s else s.untrain.modLink (fun l => { l with tap0 := 0, tap1 := 0 })
  else s

/-! ## Headers -/

/-- The words that go upstream from 8 ticks after the header tick on (R72, R97). -/
def State.startTwin (s : State) (l : List Word) : State := s.modLink (fun k => { k with twin := l, twinAt := s.tick + 8 })

/-- A header that is not recognised: a SYNC error or an overrun header (R93); the deframer hunts after the next 16 idle ticks (R65).
R94 counts SYNC errors; an overrun header, which has their counter and their fault, counts towards DOWN_LIMIT too (DESIGN CHOICE, log
entry 55). A lane loopback carries it upstream (R97). -/
def State.syncError (s : State) (hdr : Word) : State :=
  let s := if s.link.loopAct = 1 then s.startTwin [hdr] else s
  ((s.modLink (fun l => { l with errSync := satAdd l.errSync 1, deaf := true })).linkFault 0x03 hdr s.tick).badFrame hdr s.tick

/-- The header word alone, and its CRC (R72). -/
def emptyTwin (h : Word) : List Word :=
  let w := twinHeader (h &&& 0xFFFF_0000)
  [w, crc32c [w]]

/-- A header with a reserved TYPE or a LEN out of range (R72, R93). -/
def State.formatError (s : State) (hdr : Word) (t : Tick) : State :=
  ((s.dropFrame.modLink (fun l =>
    { l with errFormat := satAdd l.errFormat 1, pseq := frameSeq hdr, pres := 4, deaf := true })).linkFault 0x03 hdr t).badFrame hdr t

/-- What a CYCLE twin carries of the header tick: ISLMAP, EVENTS and the 16 image words (R75, R83). -/
def State.snapshot (s : State) : List Word := s.islmap :: s.eventsWord :: islands.map (fun n => (s.image n).2)

/-- The header falls into a frame that has not ended (R93). -/
def State.midFrame (s : State) : Bool :=
  match s.link.cur with
  | some f => decide (s.tick < f.tick + BitVec.ofNat 64 (s.link.wordTk * (frameLen f.hdr + 2)))
  | none => false

/-- A CYCLE header is a sample point, pulses CYCLE_SAMPLE and may be an epoch boundary (R75, R83, R237, R337). -/
def State.cycleSample (s : State) : State := (s.sampled.pulse 0x120).tanCycle

/-- A header is recognised on its header tick (log entry 35): the slot grids are aligned to it (R36), its tail is known (R14), and
its twin begins (R72). -/
def State.recognised (s : State) (hdr : Word) (short : Bool) : State :=
  let legal := lenLegal (frameType hdr) (frameLen hdr)
  let words := if legal then frameLen hdr + 2 else 2
  let s := s.modLink (fun l =>
    { l with evShort := if short then satAdd l.evShort 1 else l.evShort, grid := s.tick,
             tail := s.tick + BitVec.ofNat 64 (s.link.wordTk * words + 32) })
  let s := s.startTwin (if s.link.loopAct = 1 then [hdr] else if legal then [twinHeader hdr] else emptyTwin hdr)
  if !legal then s.formatError hdr s.tick
  else
    let snap := if frameType hdr = 1 then s.snapshot else []
    let s := s.modLink (fun l => { l with cur := some { hdr := hdr, shortTail := short, tick := s.tick, snap := snap, void := false, busy := false } })
    if frameType hdr = 1 then s.cycleSample else s

/-- Idle ticks below which a header follows a short tail: 32 (R85, R93); of the ticks of CS_N high in bring-up mode 24, which complete the
32 (R99; DEDUCED, log entry 69). -/
def Link.fullTail (l : Link) : Nat := if l.lmode then 24 else 32

/-- CS_N is low for the words that a header of bring-up mode announces, and 8 ticks more (R99). -/
def State.csLow (s : State) (hdr : Word) : State :=
  if s.link.lmode then s.modLink (fun l => { l with csEnd := s.tick + BitVec.ofNat 64 (32 * (frameLen hdr + 2) + 8) }) else s

/-- FRAME_HEADER (R65, R93): idle is the number of idle ticks before the header, those of CS_N high in bring-up mode (R99). A deframer
that does not hunt takes no header after fewer than 16. SHORT_TAIL follows Link.fullTail (DEDUCED, log entry 69). -/
def execFrameHeader (hdr : Word) (idle : Nat) (s : State) : Host.Outcome State Fault Refusal :=
  .next (
    if !s.linkReady then s
    else if idle < 16 ∨ s.midFrame then (if s.link.deaf then s else s.syncError hdr)
    else
      let s := (s.modLink (fun l => { l with deaf := false })).csLow hdr
      if frameSync hdr ≠ 0xB4 then s.syncError hdr
      else s.recognised hdr (decide (idle < s.link.fullTail)))

/-! ## The twin -/

/-- The batch of a read-return area with room for k words, its RDINFO word and its data words (R86, R87, R91); words beyond the
batch are reserved. RESEND_READS while no last batch is held lapses at the next area with data words (DESIGN CHOICE, log entry 55). -/
def State.batch (s : State) (k : Nat) : State × List Word :=
  let l := s.link
  let again := l.replay && decide (l.last ≠ []) && decide (k ≠ 0)
  let b := (if again then l.last else l.readq.takeWhile (fun r => r.wait.isNone)).take k
  let rest := if again then l.readq else l.readq.drop b.length
  let info := BitVec.ofNat 32 (b.length * 2 ^ 24 + b.countP (fun r => r.err) * 2 ^ 16 +
    (if b.any (fun r => r.err) then b.findIdx (fun r => r.err) else 0xFF) * 2 ^ 8 + bit again 7 + min 63 rest.length)
  (s.modLink (fun l => { l with readq := rest, last := if again || b.isEmpty then l.last else b,
                                replay := l.replay && decide (k = 0) }),
   info :: (b.map (fun r => r.val) ++ List.replicate (k - b.length) 0))

/-- STATUS goes out; it reports XERR once (R85). Log entry 13. -/
def State.statusOut (s : State) : State × List Word := (s.modLink (fun l => { l with xerr := false }), [s.statusWord])

/-- Payload word j of a twin, on its first tick; the data words follow RDINFO at once (R75, R83, R85, R86). -/
def State.twinWord (s : State) (f : CurFrame) (j : Nat) : State × List Word :=
  if j = 0 then s.statusOut
  else if frameType f.hdr = 1 then
    match j with
    | 1 => (s, [f.tick.extractLsb' 0 32])
    | 2 => (s, [f.tick.extractLsb' 32 32])
    | 21 => s.batch 2
    | _ => (s, [f.snap.getD (j - 3) 0])
  else if j = 1 then s.batch (frameLen f.hdr - 2)
  else (s, [0])

/-- The twin goes on: word k starts 8 ticks and k words after the header tick (R72, R99). -/
def State.twinTick (s : State) : State :=
  match s.link.cur with
  | none => s
  | some f =>
    let k := s.link.twin.length
    if k = 0 ∨ s.link.loopAct = 1 ∨ s.link.loopAct = 2 ∨ s.tick ≠ f.tick + BitVec.ofNat 64 (8 + s.link.wordTk * k) then s
    else if k ≤ frameLen f.hdr then
      (let r := s.twinWord f (k - 1); r.1.modLink (fun l => { l with twin := l.twin ++ r.2 }))
    else if k = frameLen f.hdr + 1 then s.modLink (fun l => { l with twin := l.twin ++ [crc32c l.twin] })
    else s

/-- The four bits that the upstream lanes carry on this tick: those of the twin, of the words of a lane loopback or of TP in the ECHO
state, and idle outside (R63, R64, R66, R97). -/
def State.upstreamBits (s : State) : BitVec 4 :=
  let k := (s.tick - s.link.twinAt).toNat
  let j := (s.tick - s.link.lockAt).toNat % 8
  match s.link.st with
  | .echo => if s.link.echoAt + BitVec.ofNat 64 j ≤ s.tick then laneBits tpWord j else 0
  | .ready => if s.link.twinAt ≤ s.tick ∧ k < 8 * s.link.twin.length then laneBits (s.link.twin.getD (k / 8) 0) (k % 8) else 0
  | _ => 0

/-- MISO on this tick of bring-up mode: high impedance while CS_N is high, 0 before the twin, then the bits of the twin or of a lane
loopback (R99, R100). -/
def State.miso (s : State) : Option Bool :=
  let k := (s.tick - s.link.twinAt).toNat
  if s.link.csEnd ≤ s.tick then none
  else if s.link.twinAt ≤ s.tick ∧ k < 32 * s.link.twin.length then some ((s.link.twin.getD (k / 32) 0).getLsbD (31 - k % 32))
  else some false

/-! ## The check of a frame -/

/-- The frame is over with this result: a short tail shows where nothing else does (R85). -/
def State.frameDone (s : State) (f : CurFrame) (pres : BitVec 4) : State :=
  s.modLink (fun l => { l with pseq := frameSeq f.hdr, pres := if pres = 0 ∧ f.shortTail then 5 else pres })

/-- The twin of a frame echo repeats the payload; a lane loopback carries the frame as it came (R97). The row brings the words, so that
they go upstream 8 ticks behind where it comes by then (log entry 35). -/
def State.echoTwin (s : State) (f : CurFrame) (p : List Word) (crc : Word) : State :=
  if s.link.loopAct = 2 then s.modLink (fun l => { l with twin := (twinHeader f.hdr :: p) ++ [crc32c (twinHeader f.hdr :: p)] })
  else if s.link.loopAct = 1 then s.modLink (fun l => { l with twin := (f.hdr :: p) ++ [crc] })
  else s

/-- A frame that is not taken goes upstream as it came all the same in a lane loopback (R97, R100). -/
def State.mirror (s : State) (type : Nat) (p : List Word) (crc : Word) : State :=
  let h := s.link.twin.getD 0 0
  if s.link.loopAct = 1 ∧ s.link.twin.length = 1 ∧ frameType h = type ∧ frameLen h = p.length then
    s.modLink (fun l => { l with twin := (h :: p) ++ [crc] })
  else s

/-- The tick on which a frame takes effect: its N words have passed, its check has completed on the tick after the next (R73, R99). -/
def State.effectTick (s : State) (f : CurFrame) : Tick := f.tick + BitVec.ofNat 64 (s.link.wordTk * (frameLen f.hdr + 2) + 2)

/-- The end of a frame: the payload and CRC word received; row, the command that brings them, waits for the frame's effect tick. A
bad CRC and a reset since the header discard it (R74, R93, R355): a frame of good CRC that a reset discards leaves the count of bad
frames as it is (DESIGN CHOICE, log entry 55). A frame echo executes CTRL alone (R97); else act takes it. The row stands for the
frame that the latest header announced. -/
def State.frameEnd (s : State) (row : Instr) (type : Nat) (p : List Word) (crc : Word) (act : State → CurFrame → State) : State :=
  if !s.awake then s else
  match s.link.cur with
  | none => (s.settle row).mirror type p crc
  | some f =>
    if frameType f.hdr ≠ type ∨ frameLen f.hdr ≠ p.length then s.settle row
    else if s.tick < s.effectTick f then (s.oweAt (s.effectTick f) row).echoTwin f p crc
    else
      let s := ((s.settle row).modLink (fun l => { l with cur := none })).echoTwin f p crc
      if f.void then s.modLink (fun l => { l with pseq := frameSeq f.hdr, pres := 15 })
      else if crc32c (f.hdr :: p) ≠ crc then
        (((s.modLink (fun l => { l with errCrc := satAdd l.errCrc 1 })).frameDone f 1).linkFault 0x01 f.hdr f.tick).badFrame f.hdr f.tick
      else
        let s := s.modLink (fun l => { l with bad := 0 })
        if s.link.loopAct = 2 ∧ type ≠ 5 then s.frameDone f 7 else act s f

/-! ## CYCLE and IDLE -/

/-- Island n is between PREP and APPLY (R121). -/
def State.prepped (s : State) (n : IslandNo) : Bool := s.isl[n].prep || s.isl[n].down.any (fun c => decide (c.data = .cmd .prep) && c.sent)

/-- OUT[n] goes out to a RUNNING island whose OUTMASK bit is 1; from PREP to APPLY, and on a standby, it is discarded (R82, R121,
R336). -/
def State.outWord (s : State) (p : List Word) (n : IslandNo) : State :=
  if (p.getD 0 0).getLsbD n.val && s.takesOut n && !s.prepped n then s.send n .link (.outword (p.getD (5 + n.val) 0)) else s

/-- What a CYCLE frame applies on tick 210 (R81). -/
def State.cycleApply (s : State) (p : List Word) : State :=
  let s := if (p.getD 1 0).getLsbD 31 then s.safeCmdWrite (p.getD 1 0) else s
  let s := if (p.getD 2 0).getLsbD 31 then s.kick .link .host ((p.getD 2 0).extractLsb' 0 16) else s
  let s := (List.range 16).foldl (fun (s : State) (k : Nat) => if (p.getD 3 0).getLsbD k then s.pulse (0x0E0 + k) else s) s
  let s := islands.foldl (fun (s : State) (n : IslandNo) => s.outWord p n) s
  s.pulse 0x121

/-- CYCLE (R81, R82, R237). -/
def execCycle (payload : List Word) (crc : Word) (s : State) : Host.Outcome State Fault Refusal :=
  .next (s.frameEnd (.cycle payload crc) 1 payload crc (fun s f => (s.cycleApply payload).frameDone f 0))

/-- IDLE_FRAME (R92). -/
def execIdleFrame (payload : List Word) (crc : Word) (s : State) : Host.Outcome State Fault Refusal :=
  .next (s.frameEnd (.idleFrame payload crc) 6 payload crc (fun s f => s.frameDone f 0))

/-! ## Command frames -/

/-- The queue has no place for the frame: two frames, or read words that wait; a read whose island has not answered waits too (R78;
DESIGN CHOICE, log entry 55). -/
def Link.full (l : Link) (type len : Nat) : Bool :=
  decide (2 ≤ l.queue.length) || (decide (type = 3) && decide (64 < len + l.readq.length))

/-- The CRC check of the frame in progress, on the tick before its effect: whether the queue has a place for it then (R73, R78). -/
def State.crcCheck (s : State) : State :=
  match s.link.cur with
  | some f =>
    if s.tick + 1 = s.effectTick f then
      s.modLink (fun l => { l with cur := some { f with busy := l.full (frameType f.hdr) (frameLen f.hdr) } })
    else s
  | none => s

/-- The tick on which a header is complete inside the SH16 (R72, R99). -/
def Link.complete (l : Link) (t : Tick) : Tick := t + (if l.lmode then 33 else 9)

/-- A command frame is accepted: it starts at once in an empty queue (R76, R78). -/
def State.enqueue (s : State) (f : CurFrame) (p : List Word) : State :=
  let type := f.hdr.extractLsb' 20 4
  let c : CmdFrame := { type := type, seq := frameSeq f.hdr, payload := p, idx := if type = 3 then 0 else 1, stop := false,
                        seen := s.link.complete f.tick }
  let s' := s.modLink (fun l => { l with expSeq := frameSeq f.hdr + 1, eFree := false, queue := l.queue ++ [c] })
  (if s.link.queue = [] then s'.owe 0 .commandExecute else s').frameDone f 0

/-- A command frame with a good CRC: accepted, busy, a duplicate or out of sequence (R76, R78). -/
def State.command (s : State) (p : List Word) (f : CurFrame) : State :=
  let d := (s.link.expSeq - frameSeq f.hdr).toNat
  if s.link.eFree ∨ d = 0 then
    if f.busy then
      (s.modLink (fun l => { l with evBusy := satAdd l.evBusy 1 })).frameDone f 6
    else s.enqueue f p
  else if d ≤ 8 then (s.modLink (fun l => { l with evDup := satAdd l.evDup 1 })).frameDone f 3
  else ((s.modLink (fun l => { l with errSeq := satAdd l.errSeq 1 })).frameDone f 2).linkFault 0x02 f.hdr f.tick

/-- REGW (R76, R88). -/
def execRegw (payload : List Word) (crc : Word) (s : State) : Host.Outcome State Fault Refusal :=
  .next (s.frameEnd (.regw payload crc) 2 payload crc (fun s f => s.command payload f))

/-- REGR (R76, R89). -/
def execRegr (payload : List Word) (crc : Word) (s : State) : Host.Outcome State Fault Refusal :=
  .next (s.frameEnd (.regr payload crc) 3 payload crc (fun s f => s.command payload f))

/-- BULK (R76, R90). -/
def execBulk (payload : List Word) (crc : Word) (s : State) : Host.Outcome State Fault Refusal :=
  .next (s.frameEnd (.bulk payload crc) 4 payload crc (fun s f => s.command payload f))

/-! ## Execution -/

/-- Frame and word as LINK_XERR takes them (R88, R101). -/
def CmdFrame.xref (f : CmdFrame) (k : Nat) : BitVec 19 := (f.seq ++ f.type ++ BitVec.ofNat 11 k : BitVec 19)

/-- FIX of a BULK frame (R90). -/
def CmdFrame.fix (f : CmdFrame) : Bool := decide (f.type = 4) && (f.payload.getD 0 0).getLsbD 0

/-- Byte address of payload word k of a REGW or BULK frame (R88, R90). -/
def CmdFrame.addr (f : CmdFrame) (k : Nat) : Nat :=
  ((f.payload.getD 0 0).toNat / 4 * 4 + (if f.fix then 0 else 4 * (k - 1))) % 2 ^ 32

/-- The access of word k of the frame fails: it stops there (R88). -/
def State.linkFails (s : State) (f : CmdFrame) (k : Nat) (e : AccErr) (a : Nat) : State :=
  (s.linkXerr (f.xref k)).accFault e .link 2 a

/-- The word goes on as WDATA under one WADDR: island SRAM, or a plain register of the island (R35, R38). -/
def plainCell (m : Member) (a : Nat) : Option IslandNo :=
  match regionOf m a with
  | .islMem n => some n
  | .isl n => if islListed (a % 0x1000) && !hostSide (a % 0x1000) && !ownCell (a % 0x1000) then some n else none
  | _ => none

/-- Words from payload word k on that one write of island n carries (R35, R90, R97). -/
def runLength (m : Member) (f : CmdFrame) (one : Bool) (n : IslandNo) (k : Nat) : Nat → Nat
  | 0 => 0
  | fuel + 1 =>
    if k < f.payload.length ∧ plainCell m (f.addr k) = some n then
      (if one then 1 else 1 + runLength m f one n (k + 1) fuel)
    else 0

/-- The address word of a WADDR or RADDR cell (R35). -/
def cellAddr (m : Member) (a : Nat) : Word :=
  match regionOf m a with
  | .islMem _ => BitVec.ofNat 32 (2 ^ 31 + a % 0x4000)
  | _ => BitVec.ofNat 32 (a % 0x1000)

/-- The cells of r words from payload word k on go into the queue of island n. -/
def State.sendRun (s : State) (f : CmdFrame) (n : IslandNo) (k r : Nat) : State :=
  let a := f.addr k
  let s := s.send n .link (.waddr (cellAddr s.member a)) (BitVec.ofNat 32 a) (f.xref k)
  (List.range r).foldl (fun (s : State) (j : Nat) =>
    s.send n .link (.wdata (f.payload.getD (k + j) 0)) (BitVec.ofNat 32 (f.addr (k + j))) (f.xref (k + j))) s

/-- A read of an island word: a RADDR cell, whose answer the read queue waits for (R38, R86). The word counts among the waiting ones in
RDQ, PENDING and the test of R78 from here on (DESIGN CHOICE, log entry 55). -/
def State.readIsl (s : State) (n : IslandNo) (a : Nat) : State :=
  (s.modLink (fun l => { l with readq := l.readq ++ [{ val := 0, err := false, wait := some n }] })).send n .link
    (.raddr (cellAddr s.member a)) (BitVec.ofNat 32 a)

/-- A read that fails gives a word of its own (R86, R89). -/
def State.readFails (s : State) (e : AccErr) (a : Nat) : State :=
  (s.modLink (fun l => { l with readq := l.readq ++ [{ val := 0, err := true, wait := none }] })).accFault e .link 1 a

/-- One word is read for the link, and the ticks that it takes (R79, R89); seen is the tick that a read of TICK_LO returns. A register of
an ISL[n] window that the host side holds takes 2 tk, and an access to an island that fails 8 tk (DESIGN CHOICE, log entry 70). -/
def State.linkRead (s : State) (seen : Tick) (a : Nat) : State × Nat :=
  match regionOf s.member a with
  | .reg =>
    match s.readReg seen a with
    | some r => (r.1.deliver .link r.2, 2)
    | none => (s.readFails .addr a, 2)
  | .isl n =>
    if !islListed (a % 0x1000) then (s.readFails .addr a, 8)
    else if hostSide (a % 0x1000) then ((s.hostSideRead n (a % 0x1000)).1.deliver .link (s.hostSideRead n (a % 0x1000)).2, 2)
    else if !s.running n then (s.readFails .island a, 8)
    else if a % 0x1000 = 0x0E0 then ((s.hrawrTake n).1.deliver .link (s.hrawrTake n).2, 2)
    else (s.readIsl n a, 8)
  | .islMem n => if s.running n then (s.readIsl n a, 8) else (s.readFails .island a, 8)
  | .slice _ => (s.deliver .link (s.sramWord a), 2)
  | .shared => (s.deliver .link (s.sramWord a), 2)
  | .nvm =>
    if s.flashBusy (a - 0x3000_0000) then (s.readFails .type a, 2) else (s.deliver .link (s.windowWord (a - 0x3000_0000)), 2)
  | .rom => (s.deliver .link (romWord (a - 0x3F00_0000)), 2)
  | .none => (s.readFails .addr a, 2)

/-- What executing from payload word k on did: the state, the words done, and the ticks that they take. -/
structure Done where
  state : State
  words : Nat
  ticks : Nat

/-- A write to island n (R38, R79, R88): the words of one write at once, 8 tk each. -/
def State.writeIsl (s : State) (f : CmdFrame) (n : IslandNo) (k : Nat) : Done :=
  let a := f.addr k
  let one := f.fix || decide (s.link.loopAct = 3)
  if !s.running n then { state := s.linkFails f k .island a, words := 1, ticks := 8 }
  else if (plainCell s.member a).isSome then
    let r := max 1 (runLength s.member f one n k f.payload.length)
    { state := s.sendRun f n k r, words := r, ticks := 8 * r }
  else { state := s.ownCellPut .link n (a % 0x1000) (f.payload.getD k 0) (f.xref k), words := 1, ticks := 8 }

/-- Payload word k of a REGW frame is written (R79, R88). -/
def State.regwWord (s : State) (f : CmdFrame) (k : Nat) : Done :=
  let a := f.addr k
  let w := f.payload.getD k 0
  match regionOf s.member a with
  | .reg =>
    match s.regWriteError .link a w with
    | none => { state := s.putReg .link a w (f.xref k), words := 1, ticks := 2 }
    | some e => { state := (s.refusedWrite .link a w).linkFails f k e a, words := 1, ticks := 2 }
  | .isl n =>
    if !islListed (a % 0x1000) then { state := s.linkFails f k .addr a, words := 1, ticks := 8 }
    else if hostSide (a % 0x1000) then { state := s.hostSideWrite .link n (a % 0x1000) w, words := 1, ticks := 2 }
    else s.writeIsl f n k
  | .islMem n => s.writeIsl f n k
  | .slice _ => { state := s.putSram a w, words := 1, ticks := 2 }
  | .shared => { state := s.putSram a w, words := 1, ticks := 2 }
  | .nvm => { state := s.linkFails f k .type a, words := 1, ticks := 2 }
  | .rom => { state := s.linkFails f k .type a, words := 1, ticks := 2 }
  | .none => { state := s.linkFails f k .addr a, words := 1, ticks := 2 }

/-- A register echo reads what a REGW word wrote (R97). -/
def State.echoRead (s : State) (f : CmdFrame) (k : Nat) (d : Done) : Done :=
  if s.link.loopAct = 3 ∧ f.type = 2 ∧ d.state.link.queue.all (fun (g : CmdFrame) => !g.stop) then
    let r := d.state.linkRead f.seen (f.addr k)
    { state := r.1, words := d.words, ticks := d.ticks + r.2 }
  else d

/-- Payload word k of a BULK frame is written: SRAM, island SRAM and the load port alone (R79, R90). Log entry 45. -/
def State.bulkWord (s : State) (f : CmdFrame) (k : Nat) : Done :=
  let a := f.addr k
  let w := f.payload.getD k 0
  match regionOf s.member a with
  | .slice _ => { state := s.putSram a w, words := 1, ticks := 1 }
  | .shared => { state := s.putSram a w, words := 1, ticks := 1 }
  | .islMem n => s.writeIsl f n k
  | .reg =>
    if a = 0x1008 then
      (if s.mayStage .link then { state := s.slateStage w, words := 1, ticks := 2 }
       else { state := s.linkFails f k .master a, words := 1, ticks := 2 })
    else { state := s.linkFails f k (if (s.readReg s.tick a).isNone then .addr else .type) a, words := 1, ticks := 1 }
  | .isl _ => { state := s.linkFails f k (if islListed (a % 0x1000) then .type else .addr) a, words := 1, ticks := 1 }
  | .none => { state := s.linkFails f k .addr a, words := 1, ticks := 1 }
  | _ => { state := s.linkFails f k .type a, words := 1, ticks := 1 }

/-- The address that the next word of the frame accesses. -/
def CmdFrame.next (f : CmdFrame) : Nat := if f.type = 3 then (f.payload.getD f.idx 0).toNat / 4 * 4 else f.addr f.idx

/-- The frame in front executes from its next word on. -/
def State.frameWord (s : State) (f : CmdFrame) : Done :=
  if f.type = 3 then
    let r := s.linkRead f.seen f.next
    { state := r.1, words := 1, ticks := r.2 }
  else if f.type = 2 then s.echoRead f f.idx (s.regwWord f f.idx)
  else s.bulkWord f f.idx

/-- The frame in front moves on, and its next word is due (R78, R79); the access holds its bank or register on this tick (R80). -/
def State.frameGo (s : State) (f : CmdFrame) : State :=
  let d := s.frameWord f
  (d.state.modLink (fun l =>
    { l with touch := (touchOf s.member f.next).map (fun k => (s.tick, k)), queue := match l.queue with | g :: r => { g with idx := g.idx + d.words } :: r | [] => [] })).owe d.ticks .commandExecute

/-- A frame has executed, or a word of it has failed (R88). -/
def CmdFrame.over (f : CmdFrame) : Bool := f.stop || decide (f.payload.length ≤ f.idx)

/-- Cells of the frame are still to leave: every effect of a frame is in force 20 tk after it has left the queue (R14). -/
def State.leaving (s : State) (f : CmdFrame) : Bool :=
  islands.any (fun n => s.isl[n].down.any (fun c =>
    decide (c.req = .link) && !c.sent && c.data.isWrite && decide (c.xref.extractLsb' 11 8 = (f.seq ++ f.type : BitVec 8))))

/-- The read queue has no place for the next word of a REGR or of a register echo: the frame waits (R86; DESIGN CHOICE, log entry
23). -/
def State.noRoom (s : State) (f : CmdFrame) : Bool :=
  decide (64 ≤ s.link.readq.length) && (decide (f.type = 3) || (decide (f.type = 2) && decide (s.link.loopAct = 3)))

/-- The frame in front executes its next word as soon as it can. -/
def State.frameNext (s : State) (f : CmdFrame) : State := if s.noRoom f then s.owe 1 .commandExecute else s.frameGo f

/-- COMMAND_EXECUTE (R78, R79): the frame in front executes its next word; when it has ended and its cells have left, the next frame
starts. -/
def execCommandExecute (s : State) : Host.Outcome State Fault Refusal :=
  s.act fun s =>
    let s := s.settle .commandExecute
    match s.link.queue with
    | [] => s
    | f :: r =>
      if f.over then
        if s.leaving f then s.owe 1 .commandExecute
        else
          let s := s.modLink (fun l => { l with queue := r })
          match r with
          | [] => s
          | g :: _ => s.frameNext g
      else s.frameNext f

/-! ## Control frames -/

/-- The command of a CTRL frame; reserved codes are NOP (R91). -/
def ctrlCode (p : List Word) : Nat := if fld (p.getD 0 0) 0 8 ≤ 5 then fld (p.getD 0 0) 0 8 else 0

/-- A CTRL frame with this command: it sets E whatever its SEQ, and then acts; a reserved code counts as a clamp of the link (R12, R76,
R91). -/
def State.ctrl (s : State) (row : Instr) (code : Nat) (p : List Word) (crc : Word) (act : State → State) : State :=
  if ctrlCode p ≠ code then s
  else s.frameEnd row 5 p crc (fun s f =>
    ((act (s.modLink (fun l => { l with expSeq := frameSeq f.hdr + 1, eFree := false }))).frameDone f 0).clamped .link
      (b2n (decide (fld (p.getD 0 0) 0 8 ≠ code))))

/-- CTRL_NOP (R91). -/
def execCtrlNop (payload : List Word) (crc : Word) (s : State) : Host.Outcome State Fault Refusal :=
  .next (s.ctrl (.ctrlNop payload crc) 0 payload crc id)

/-- A K1 reset: the frame that executes completes, and the reset is counted (R91, R372). One that is pending of a higher level absorbs
it (R354). -/
def State.linkReset (s : State) : State :=
  if s.resetPends then s else (s.k1 (s.link.queue.take 1)).modPow (fun p => { p with k1cnt := satAdd p.k1cnt 1 })

/-- LINK_RESET (R91). -/
def execLinkReset (payload : List Word) (crc : Word) (s : State) : Host.Outcome State Fault Refusal :=
  .next (s.ctrl (.linkReset payload crc) 1 payload crc State.linkReset)

/-- CTRL_RETRAIN (R66, R91). -/
def execCtrlRetrain (payload : List Word) (crc : Word) (s : State) : Host.Outcome State Fault Refusal :=
  .next (s.ctrl (.ctrlRetrain payload crc) 2 payload crc State.askRetrain)

/-- RESEND_READS (R91). -/
def execResendReads (payload : List Word) (crc : Word) (s : State) : Host.Outcome State Fault Refusal :=
  .next (s.ctrl (.resendReads payload crc) 3 payload crc (fun s => s.modLink (fun l => { l with replay := true })))

/-- The read queue is emptied; answers that are still out find no reader (R66). -/
def State.dropReads (s : State) : State :=
  (islands.foldl (fun (s : State) (n : IslandNo) => s.modIsl n Island.orphanLink) s).modLink (fun l => { l with readq := [] })

/-- The read queue and the last batch are emptied (R91). -/
def State.flushReads (s : State) : State := s.dropReads.modLink (fun l => { l with last := [] })

/-- FLUSH_READS (R91). -/
def execFlushReads (payload : List Word) (crc : Word) (s : State) : Host.Outcome State Fault Refusal :=
  .next (s.ctrl (.flushReads payload crc) 4 payload crc State.flushReads)

/-- CTRL_LOOP (R91, R97). -/
def execCtrlLoop (payload : List Word) (crc : Word) (s : State) : Host.Outcome State Fault Refusal :=
  .next (s.ctrl (.ctrlLoop payload crc) 5 payload crc (fun s => s.askLoop .link (fld (payload.getD 1 0) 0 3)))

/-! ## Training -/

/-- TP_LOCK (R66): TP has come four times in a row. The offset of its words is kept, and the taps found, which are free values until the
sweep ends (log entry 6). -/
def execTpLock (s : State) : Host.Outcome State Fault Refusal :=
  .next (
    if s.awake && !s.link.lmode && decide (s.link.st = .untrained) then
      (s.modLink (fun l => { l with st := .lock, lockAt := s.tick, tap0 := (Config.unstated s.free).extractLsb' 0 4,
                                    tap1 := (Config.unstated s.free).extractLsb' 4 4 })).freed
    else s)

/-- EYE_FOUND (R66): TP goes upstream from here on, word-aligned to the downstream words. The sweep ends within the 192 words of TP, of
which the lock took four; later than that the row is no event (R67, log entries 11 and 69). -/
def execEyeFound (tap0 tap1 : BitVec 4) (s : State) : Host.Outcome State Fault Refusal :=
  .next (
    if s.awake ∧ s.link.st = .lock ∧ s.tick ≤ s.link.lockAt + BitVec.ofNat 64 (8 * (tpWords - 4)) then
      s.modLink (fun l => { l with st := .echo, tap0 := tap0, tap1 := tap1, echoAt := s.tick })
    else s)

/-- TRAINING_LOST (R66). -/
def execTrainingLost (s : State) : Host.Outcome State Fault Refusal :=
  .next (if s.awake ∧ s.link.st = .lock then s.modLink (fun l => { l with st := .untrained }) else s)

/-- ECHO_IDLE (R66): READY, with both queues empty, E free and no result. -/
def execEchoIdle (s : State) : Host.Outcome State Fault Refusal :=
  .next (
    if s.awake ∧ s.link.st = .echo then
      ((s.cancel .commandExecute).dropReads).modLink (fun l =>
        { l with st := .ready, eFree := true, queue := [], pres := 15, cur := none, deaf := false })
    else s)

/-- LINK_CTRL_RETRAIN (R66, R101). -/
def execLinkCtrlRetrain (_m : Master) (s : State) : Host.Outcome State Fault Refusal := s.act State.askRetrain

/-- RETRAIN_APPLY (R66). -/
def execRetrainApply (s : State) : Host.Outcome State Fault Refusal :=
  s.act fun s =>
    let s := s.settle .retrainApply
    if s.link.retrain ∧ s.link.st = .ready then s.untrain else s

/-- LOOP_APPLY (R97, R101): the requested depth is in force. -/
def execLoopApply (s : State) : Host.Outcome State Fault Refusal :=
  s.act fun s => (s.settle .loopApply).modLink (fun l => { l with loopAct := l.loopReq })

/-! ## Bring-up mode -/

/-- CS_EARLY_RISE (R99, R100): MISO is released on this tick, so that what is left of the twin does not go out, in the middle of a word
where that is (DEDUCED, log entry 69); before the CRC is complete the frame is a FORMAT error. -/
def execCsEarlyRise (afterCrc : Bool) (s : State) : Host.Outcome State Fault Refusal :=
  .next (
    if !s.awake || !s.link.lmode then s
    else
      let s := s.modLink (fun l => { l with csEnd := if s.tick < l.csEnd then s.tick else l.csEnd })
      if afterCrc then s
      else match s.link.cur with
        | some f => s.formatError f.hdr f.tick
        | none => s)

end Sys2Proof.Machine
end

