-- ==== Sys2Proof/Machine/Dispatch.lean ====
section
/-! DEFINITION. One arm for every row of spec/opcode_table.json. -/

namespace Sys2Proof.Machine

def exec (i : Instr) (s : State) : Host.Outcome State Fault Refusal :=
  match i with
  | .hckStop => Sys2Proof.Machine.execHckStop s
  | .hckResume => Sys2Proof.Machine.execHckResume s
  | .tickLoRead m => Sys2Proof.Machine.execTickLoRead m s
  | .registerWrite m addr val => Sys2Proof.Machine.execRegisterWrite m addr val s
  | .outword n w => Sys2Proof.Machine.execOutword n w s
  | .raddr n a => Sys2Proof.Machine.execRaddr n a s
  | .waddr n a => Sys2Proof.Machine.execWaddr n a s
  | .wdata n w => Sys2Proof.Machine.execWdata n w s
  | .rung n r => Sys2Proof.Machine.execRung n r s
  | .rungSwitchDone n => Sys2Proof.Machine.execRungSwitchDone n s
  | .rungAct n => Sys2Proof.Machine.execRungAct n s
  | .cmdPrep n => Sys2Proof.Machine.execCmdPrep n s
  | .cmdApply n => Sys2Proof.Machine.execCmdApply n s
  | .cmdShadow n => Sys2Proof.Machine.execCmdShadow n s
  | .cmdUnshadow n => Sys2Proof.Machine.execCmdUnshadow n s
  | .cmdEcho n w => Sys2Proof.Machine.execCmdEcho n w s
  | .channelFaultCell n => Sys2Proof.Machine.execChannelFaultCell n s
  | .clearCell n => Sys2Proof.Machine.execClearCell n s
  | .outputCommand n m w => Sys2Proof.Machine.execOutputCommand n m w s
  | .hartDown n b last => Sys2Proof.Machine.execHartDown n b last s
  | .sync n d seq => Sys2Proof.Machine.execSync n d seq s
  | .rdata n w => Sys2Proof.Machine.execRdata n w s
  | .resultCell n w => Sys2Proof.Machine.execResultCell n w s
  | .statusCell n msg => Sys2Proof.Machine.execStatusCell n msg s
  | .hartUp n b start perr => Sys2Proof.Machine.execHartUp n b start perr s
  | .fatal n => Sys2Proof.Machine.execFatal n s
  | .cellRetransmit n d => Sys2Proof.Machine.execCellRetransmit n d s
  | .symbolTimeout n => Sys2Proof.Machine.execSymbolTimeout n s
  | .couplerFault n => Sys2Proof.Machine.execCouplerFault n s
  | .firstSymbolTimeout n => Sys2Proof.Machine.execFirstSymbolTimeout n s
  | .grainRelease n => Sys2Proof.Machine.execGrainRelease n s
  | .killMarkDetect n => Sys2Proof.Machine.execKillMarkDetect n s
  | .safeMarkDetect n => Sys2Proof.Machine.execSafeMarkDetect n s
  | .carrierLoss n => Sys2Proof.Machine.execCarrierLoss n s
  | .cvBelow6v n => Sys2Proof.Machine.execCvBelow6v n s
  | .reservoirOk n => Sys2Proof.Machine.execReservoirOk n s
  | .chargeComplete n => Sys2Proof.Machine.execChargeComplete n s
  | .firstSymbol n lvl => Sys2Proof.Machine.execFirstSymbol n lvl s
  | .ledgerWrite m n w => Sys2Proof.Machine.execLedgerWrite m n w s
  | .readmit m => Sys2Proof.Machine.execReadmit m s
  | .admissionComplete => Sys2Proof.Machine.execAdmissionComplete s
  | .powerWindowEnd n gr100 => Sys2Proof.Machine.execPowerWindowEnd n gr100 s
  | .islandPowerWrite m w => Sys2Proof.Machine.execIslandPowerWrite m w s
  | .tpLock => Sys2Proof.Machine.execTpLock s
  | .eyeFound tap0 tap1 => Sys2Proof.Machine.execEyeFound tap0 tap1 s
  | .trainingLost => Sys2Proof.Machine.execTrainingLost s
  | .echoIdle => Sys2Proof.Machine.execEchoIdle s
  | .frameHeader hdr idle => Sys2Proof.Machine.execFrameHeader hdr idle s
  | .cycle payload crc => Sys2Proof.Machine.execCycle payload crc s
  | .regw payload crc => Sys2Proof.Machine.execRegw payload crc s
  | .regr payload crc => Sys2Proof.Machine.execRegr payload crc s
  | .bulk payload crc => Sys2Proof.Machine.execBulk payload crc s
  | .commandExecute => Sys2Proof.Machine.execCommandExecute s
  | .ctrlNop payload crc => Sys2Proof.Machine.execCtrlNop payload crc s
  | .linkReset payload crc => Sys2Proof.Machine.execLinkReset payload crc s
  | .ctrlRetrain payload crc => Sys2Proof.Machine.execCtrlRetrain payload crc s
  | .resendReads payload crc => Sys2Proof.Machine.execResendReads payload crc s
  | .flushReads payload crc => Sys2Proof.Machine.execFlushReads payload crc s
  | .ctrlLoop payload crc => Sys2Proof.Machine.execCtrlLoop payload crc s
  | .idleFrame payload crc => Sys2Proof.Machine.execIdleFrame payload crc s
  | .linkCtrlRetrain m => Sys2Proof.Machine.execLinkCtrlRetrain m s
  | .retrainApply => Sys2Proof.Machine.execRetrainApply s
  | .loopApply => Sys2Proof.Machine.execLoopApply s
  | .csEarlyRise afterCrc => Sys2Proof.Machine.execCsEarlyRise afterCrc s
  | .slateOpen m => Sys2Proof.Machine.execSlateOpen m s
  | .slateLoadNvm m => Sys2Proof.Machine.execSlateLoadNvm m s
  | .nvmLoadComplete readOk => Sys2Proof.Machine.execNvmLoadComplete readOk s
  | .slateLoad m w => Sys2Proof.Machine.execSlateLoad m w s
  | .slateVerify m => Sys2Proof.Machine.execSlateVerify m s
  | .verifyComplete => Sys2Proof.Machine.execVerifyComplete s
  | .slateCommit m => Sys2Proof.Machine.execSlateCommit m s
  | .commitSwitch => Sys2Proof.Machine.execCommitSwitch s
  | .fullPass => Sys2Proof.Machine.execFullPass s
  | .commitComplete => Sys2Proof.Machine.execCommitComplete s
  | .slateAbort m => Sys2Proof.Machine.execSlateAbort m s
  | .holdclr m w => Sys2Proof.Machine.execHoldclr m w s
  | .keyProgram m k => Sys2Proof.Machine.execKeyProgram m k s
  | .keyRevoke m k => Sys2Proof.Machine.execKeyRevoke m k s
  | .setAuthReq m => Sys2Proof.Machine.execSetAuthReq m s
  | .keyEraseAll m => Sys2Proof.Machine.execKeyEraseAll m s
  | .inputTransition n lvl => Sys2Proof.Machine.execInputTransition n lvl s
  | .qualifiedEdge n => Sys2Proof.Machine.execQualifiedEdge n s
  | .longHold n => Sys2Proof.Machine.execLongHold n s
  | .wireBreak n => Sys2Proof.Machine.execWireBreak n s
  | .breakClear n => Sys2Proof.Machine.execBreakClear n s
  | .currUpdate n tenMicroamps => Sys2Proof.Machine.execCurrUpdate n tenMicroamps s
  | .cntWrite n w => Sys2Proof.Machine.execCntWrite n w s
  | .gateEnd n => Sys2Proof.Machine.execGateEnd n s
  | .sensOvl n => Sys2Proof.Machine.execSensOvl n s
  | .vfLow n => Sys2Proof.Machine.execVfLow n s
  | .vfLowClear n => Sys2Proof.Machine.execVfLowClear n s
  | .pwmPeriodStart n => Sys2Proof.Machine.execPwmPeriodStart n s
  | .pwmPhaseEnd n => Sys2Proof.Machine.execPwmPhaseEnd n s
  | .inrushEnd n => Sys2Proof.Machine.execInrushEnd n s
  | .shortLatch n => Sys2Proof.Machine.execShortLatch n s
  | .overloadLatch n => Sys2Proof.Machine.execOverloadLatch n s
  | .switchOvertemp n => Sys2Proof.Machine.execSwitchOvertemp n s
  | .switchCooled n => Sys2Proof.Machine.execSwitchCooled n s
  | .outputCheck n c => Sys2Proof.Machine.execOutputCheck n c s
  | .diagClear n w => Sys2Proof.Machine.execDiagClear n w s
  | .loopOvl c => Sys2Proof.Machine.execLoopOvl c s
  | .aoOpen c => Sys2Proof.Machine.execAoOpen c s
  | .aoOvertemp n => Sys2Proof.Machine.execAoOvertemp n s
  | .aoCooled n => Sys2Proof.Machine.execAoCooled n s
  | .hcmdSend n len => Sys2Proof.Machine.execHcmdSend n len s
  | .hcmdAbort n => Sys2Proof.Machine.execHcmdAbort n s
  | .hcmdListen n => Sys2Proof.Machine.execHcmdListen n s
  | .hrawWrite m n b last => Sys2Proof.Machine.execHrawWrite m n b last s
  | .hrawrRead m n => Sys2Proof.Machine.execHrawrRead m n s
  | .hartCharEnd n => Sys2Proof.Machine.execHartCharEnd n s
  | .hartCharRx n b parityOk => Sys2Proof.Machine.execHartCharRx n b parityOk s
  | .hartRxEnd n => Sys2Proof.Machine.execHartRxEnd n s
  | .hartTimeout n => Sys2Proof.Machine.execHartTimeout n s
  | .carrierDetect n => Sys2Proof.Machine.execCarrierDetect n s
  | .conversionStart n => Sys2Proof.Machine.execConversionStart n s
  | .conversionEnd n code ovr tbOpen => Sys2Proof.Machine.execConversionEnd n code ovr tbOpen s
  | .resultWrite n => Sys2Proof.Machine.execResultWrite n s
  | .roundStart n => Sys2Proof.Machine.execRoundStart n s
  | .calibrationStart n => Sys2Proof.Machine.execCalibrationStart n s
  | .adcConvert n entry => Sys2Proof.Machine.execAdcConvert n entry s
  | .adcRtrig n => Sys2Proof.Machine.execAdcRtrig n s
  | .adcInject n => Sys2Proof.Machine.execAdcInject n s
  | .adcCal n => Sys2Proof.Machine.execAdcCal n s
  | .resultSlotRead m n slot => Sys2Proof.Machine.execResultSlotRead m n slot s
  | .add t rd ra rb => Sys2Proof.Machine.execAdd t rd ra rb s
  | .sub t rd ra rb => Sys2Proof.Machine.execSub t rd ra rb s
  | .and t rd ra rb => Sys2Proof.Machine.execAnd t rd ra rb s
  | .or t rd ra rb => Sys2Proof.Machine.execOr t rd ra rb s
  | .xor t rd ra rb => Sys2Proof.Machine.execXor t rd ra rb s
  | .sll t rd ra rb => Sys2Proof.Machine.execSll t rd ra rb s
  | .srl t rd ra rb => Sys2Proof.Machine.execSrl t rd ra rb s
  | .sra t rd ra rb => Sys2Proof.Machine.execSra t rd ra rb s
  | .slt t rd ra rb => Sys2Proof.Machine.execSlt t rd ra rb s
  | .sltu t rd ra rb => Sys2Proof.Machine.execSltu t rd ra rb s
  | .mul t rd ra rb => Sys2Proof.Machine.execMul t rd ra rb s
  | .mulh t rd ra rb => Sys2Proof.Machine.execMulh t rd ra rb s
  | .div t rd ra rb => Sys2Proof.Machine.execDiv t rd ra rb s
  | .rem t rd ra rb => Sys2Proof.Machine.execRem t rd ra rb s
  | .min t rd ra rb => Sys2Proof.Machine.execMin t rd ra rb s
  | .max t rd ra rb => Sys2Proof.Machine.execMax t rd ra rb s
  | .addi t rd ra imm => Sys2Proof.Machine.execAddi t rd ra imm s
  | .andi t rd ra imm => Sys2Proof.Machine.execAndi t rd ra imm s
  | .ori t rd ra imm => Sys2Proof.Machine.execOri t rd ra imm s
  | .xori t rd ra imm => Sys2Proof.Machine.execXori t rd ra imm s
  | .slli t rd ra imm => Sys2Proof.Machine.execSlli t rd ra imm s
  | .srli t rd ra imm => Sys2Proof.Machine.execSrli t rd ra imm s
  | .srai t rd ra imm => Sys2Proof.Machine.execSrai t rd ra imm s
  | .slti t rd ra imm => Sys2Proof.Machine.execSlti t rd ra imm s
  | .sltiu t rd ra imm => Sys2Proof.Machine.execSltiu t rd ra imm s
  | .ldw t rd ra imm => Sys2Proof.Machine.execLdw t rd ra imm s
  | .ldh t rd ra imm => Sys2Proof.Machine.execLdh t rd ra imm s
  | .ldhu t rd ra imm => Sys2Proof.Machine.execLdhu t rd ra imm s
  | .ldb t rd ra imm => Sys2Proof.Machine.execLdb t rd ra imm s
  | .ldbu t rd ra imm => Sys2Proof.Machine.execLdbu t rd ra imm s
  | .stw t ra rb off => Sys2Proof.Machine.execStw t ra rb off s
  | .sth t ra rb off => Sys2Proof.Machine.execSth t ra rb off s
  | .stb t ra rb off => Sys2Proof.Machine.execStb t ra rb off s
  | .beq t ra rb off => Sys2Proof.Machine.execBeq t ra rb off s
  | .bne t ra rb off => Sys2Proof.Machine.execBne t ra rb off s
  | .blt t ra rb off => Sys2Proof.Machine.execBlt t ra rb off s
  | .bge t ra rb off => Sys2Proof.Machine.execBge t ra rb off s
  | .bltu t ra rb off => Sys2Proof.Machine.execBltu t ra rb off s
  | .bgeu t ra rb off => Sys2Proof.Machine.execBgeu t ra rb off s
  | .jalr t rd ra imm => Sys2Proof.Machine.execJalr t rd ra imm s
  | .jal t rd imm => Sys2Proof.Machine.execJal t rd imm s
  | .lui t rd imm => Sys2Proof.Machine.execLui t rd imm s
  | .fork t rd ra rb fn => Sys2Proof.Machine.execFork t rd ra rb fn s
  | .childStart t => Sys2Proof.Machine.execChildStart t s
  | .join t ra => Sys2Proof.Machine.execJoin t ra s
  | .wfe t rd ra => Sys2Proof.Machine.execWfe t rd ra s
  | .wfeTimeout t => Sys2Proof.Machine.execWfeTimeout t s
  | .watch t imm => Sys2Proof.Machine.execWatch t imm s
  | .lock t rd imm => Sys2Proof.Machine.execLock t rd imm s
  | .unlk t rd imm => Sys2Proof.Machine.execUnlk t rd imm s
  | .clrp t rd imm => Sys2Proof.Machine.execClrp t rd imm s
  | .rdtk t rd imm => Sys2Proof.Machine.execRdtk t rd imm s
  | .outc t rd ra imm => Sys2Proof.Machine.execOutc t rd ra imm s
  | .imgr t rd imm => Sys2Proof.Machine.execImgr t rd imm s
  | .fence t rd => Sys2Proof.Machine.execFence t rd s
  | .fenceComplete t => Sys2Proof.Machine.execFenceComplete t s
  | .islandLoadReturn t => Sys2Proof.Machine.execIslandLoadReturn t s
  | .multiSlotDone t => Sys2Proof.Machine.execMultiSlotDone t s
  | .islandQueueFree n => Sys2Proof.Machine.execIslandQueueFree n s
  | .launch m ctx => Sys2Proof.Machine.execLaunch m ctx s
  | .kill m mask => Sys2Proof.Machine.execKill m mask s
  | .lockForceRelease m k => Sys2Proof.Machine.execLockForceRelease m k s
  | .lockClearPoison m k => Sys2Proof.Machine.execLockClearPoison m k s
  | .harvestSlot => Sys2Proof.Machine.execHarvestSlot s
  | .eventPulse line => Sys2Proof.Machine.execEventPulse line s
  | .swWrite m w => Sys2Proof.Machine.execSwWrite m w s
  | .timerPulse k => Sys2Proof.Machine.execTimerPulse k s
  | .reflexFire k => Sys2Proof.Machine.execReflexFire k s
  | .reflexRelease k => Sys2Proof.Machine.execReflexRelease k s
  | .rfxclr m hi w => Sys2Proof.Machine.execRfxclr m hi w s
  | .dmaStart m c => Sys2Proof.Machine.execDmaStart m c s
  | .dmaStartTpl m c => Sys2Proof.Machine.execDmaStartTpl m c s
  | .dmaDisable m c => Sys2Proof.Machine.execDmaDisable m c s
  | .append m c addr => Sys2Proof.Machine.execAppend m c addr s
  | .tlinkWrite m c w => Sys2Proof.Machine.execTlinkWrite m c w s
  | .ocmdWrite m n w => Sys2Proof.Machine.execOcmdWrite m n w s
  | .rstreamRead m n => Sys2Proof.Machine.execRstreamRead m n s
  | .descriptorFetched c => Sys2Proof.Machine.execDescriptorFetched c s
  | .wordMove c => Sys2Proof.Machine.execWordMove c s
  | .autoStart c => Sys2Proof.Machine.execAutoStart c s
  | .safeNAssert => Sys2Proof.Machine.execSafeNAssert s
  | .stillnessTrip => Sys2Proof.Machine.execStillnessTrip s
  | .clrStill m => Sys2Proof.Machine.execClrStill m s
  | .clrSafen m => Sys2Proof.Machine.execClrSafen m s
  | .clrFreset m => Sys2Proof.Machine.execClrFreset m s
  | .safeCmdWrite m w => Sys2Proof.Machine.execSafeCmdWrite m w s
  | .kick m ch key => Sys2Proof.Machine.execKick m ch key s
  | .qwWrite m ch q => Sys2Proof.Machine.execQwWrite m ch q s
  | .windowClose ch => Sys2Proof.Machine.execWindowClose ch s
  | .flintReset => Sys2Proof.Machine.execFlintReset s
  | .bootBudget m budget confirm => Sys2Proof.Machine.execBootBudget m budget confirm s
  | .bootConfirm m => Sys2Proof.Machine.execBootConfirm m s
  | .budgetExpiry => Sys2Proof.Machine.execBudgetExpiry s
  | .faultReaction => Sys2Proof.Machine.execFaultReaction s
  | .decide m dtag cls => Sys2Proof.Machine.execDecide m dtag cls s
  | .graceExpiry dtag => Sys2Proof.Machine.execGraceExpiry dtag s
  | .haltRecovery => Sys2Proof.Machine.execHaltRecovery s
  | .escalationLockout => Sys2Proof.Machine.execEscalationLockout s
  | .chclr m mask => Sys2Proof.Machine.execChclr m mask s
  | .faultInject m src mid => Sys2Proof.Machine.execFaultInject m src mid s
  | .hostHot => Sys2Proof.Machine.execHostHot s
  | .islTherm n => Sys2Proof.Machine.execIslTherm n s
  | .nvmErase m => Sys2Proof.Machine.execNvmErase m s
  | .nvmProgram m units => Sys2Proof.Machine.execNvmProgram m units s
  | .nvmAppend m => Sys2Proof.Machine.execNvmAppend m s
  | .markWritten m b => Sys2Proof.Machine.execMarkWritten m b s
  | .markTrial m b => Sys2Proof.Machine.execMarkTrial m b s
  | .markConfirmed m b => Sys2Proof.Machine.execMarkConfirmed m b s
  | .markRejected m b => Sys2Proof.Machine.execMarkRejected m b s
  | .nvmCompact m => Sys2Proof.Machine.execNvmCompact m s
  | .nvmAbortCmd m => Sys2Proof.Machine.execNvmAbortCmd m s
  | .nvmStep m ticks => Sys2Proof.Machine.execNvmStep m ticks s
  | .sliceEnd verified => Sys2Proof.Machine.execSliceEnd verified s
  | .scanDone => Sys2Proof.Machine.execScanDone s
  | .intentRecovery => Sys2Proof.Machine.execIntentRecovery s
  | .counterIncrement => Sys2Proof.Machine.execCounterIncrement s
  | .bootStart => Sys2Proof.Machine.execBootStart s
  | .tandemLock tpl => Sys2Proof.Machine.execTandemLock tpl s
  | .tandemReady => Sys2Proof.Machine.execTandemReady s
  | .beaconSend => Sys2Proof.Machine.execBeaconSend s
  | .tandemLinkLoss => Sys2Proof.Machine.execTandemLinkLoss s
  | .record payload crc => Sys2Proof.Machine.execRecord payload crc s
  | .beacon payload crc => Sys2Proof.Machine.execBeacon payload crc s
  | .take payload crc => Sys2Proof.Machine.execTake payload crc s
  | .ackSend => Sys2Proof.Machine.execAckSend s
  | .ack payload crc => Sys2Proof.Machine.execAck payload crc s
  | .release payload crc => Sys2Proof.Machine.execRelease payload crc s
  | .ackTimeout => Sys2Proof.Machine.execAckTimeout s
  | .gapEnd => Sys2Proof.Machine.execGapEnd s
  | .promote m => Sys2Proof.Machine.execPromote m s
  | .forcePromote m => Sys2Proof.Machine.execForcePromote m s
  | .handover m => Sys2Proof.Machine.execHandover m s
  | .demote m => Sys2Proof.Machine.execDemote m s
  | .hrdyWrite m rdy => Sys2Proof.Machine.execHrdyWrite m rdy s
  | .brownOut => Sys2Proof.Machine.execBrownOut s
  | .rstNAssert => Sys2Proof.Machine.execRstNAssert s
  | .prsntNRemoval => Sys2Proof.Machine.execPrsntNRemoval s
  | .thermalShutdown => Sys2Proof.Machine.execThermalShutdown s
  | .deferralEnd => Sys2Proof.Machine.execDeferralEnd s
  | .k4Release c => Sys2Proof.Machine.execK4Release c s
  | .vmicaUndervoltage => Sys2Proof.Machine.execVmicaUndervoltage s
  | .vmicaReturn => Sys2Proof.Machine.execVmicaReturn s
  | .vmicaHoldEnd n => Sys2Proof.Machine.execVmicaHoldEnd n s
  | .reset m w => Sys2Proof.Machine.execReset m w s
  | .softReset => Sys2Proof.Machine.execSoftReset s
  | .reqRun m => Sys2Proof.Machine.execReqRun m s
  | .reqPark m => Sys2Proof.Machine.execReqPark m s
  | .reqDormant m => Sys2Proof.Machine.execReqDormant m s
  | .iloopOff m n => Sys2Proof.Machine.execIloopOff m n s
  | .iloopEcho m n pattern => Sys2Proof.Machine.execIloopEcho m n pattern s
  | .iloopDacAdc m n pattern => Sys2Proof.Machine.execIloopDacAdc m n pattern s
  | .iloopTerminal m n pattern term => Sys2Proof.Machine.execIloopTerminal m n pattern term s
  | .iloopCross m n pattern => Sys2Proof.Machine.execIloopCross m n pattern s
  | .measurementDone n code => Sys2Proof.Machine.execMeasurementDone n code s
  | .unlock m w => Sys2Proof.Machine.execUnlock m w s
  | .testNHigh => Sys2Proof.Machine.execTestNHigh s
  | .extest => Sys2Proof.Machine.execExtest s
  | .idcode => Sys2Proof.Machine.execIdcode s
  | .samplePreload => Sys2Proof.Machine.execSamplePreload s
  | .highz => Sys2Proof.Machine.execHighz s
  | .clamp => Sys2Proof.Machine.execClamp s
  | .bypass => Sys2Proof.Machine.execBypass s
  | .tapReset => Sys2Proof.Machine.execTapReset s
  | .safeNHigh held => Sys2Proof.Machine.execSafeNHigh held s
  | .testNLow => Sys2Proof.Machine.execTestNLow s
  | .islThermRelease n => Sys2Proof.Machine.execIslThermRelease n s
  | .hostHotEnd above115 => Sys2Proof.Machine.execHostHotEnd above115 s
  | .integratorDischarged => Sys2Proof.Machine.execIntegratorDischarged s
  | .tandemFrameDiscard isRecord => Sys2Proof.Machine.execTandemFrameDiscard isRecord s

end Sys2Proof.Machine
end

