-- ==== Sys2Proof/Machine/Tick.lean ====
section
/-! DEFINITION. One tick of HCK, which passes when no command waits: slots, state lanes, twins, the Facet core's slot, the data
mover, and what the calendar owes (R13, R20, R33, R36, R208, R245, R255; log entries 2 and 34). -/

namespace Sys2Proof.Machine

/-! ## Slots -/

/-- A slot of the grid whose first slot starts at grid + off starts on this tick; one that would follow the last of its direction
within 8 ticks is skipped (R36). -/
def State.slotStarts (s : State) (off : Nat) (last : Option Tick) : Bool :=
  decide ((s.tick - s.link.grid).toNat % 8 = off) &&
  (match last with
   | none => true
   | some u => decide (u + 8 ≤ s.tick))

/-- Something waits for a place in island n's queue (R230). -/
def State.waitsFor (s : State) (n : IslandNo) : Bool :=
  contexts.any (fun t => match s.facet.ctx[t].stall with
    | .loadq _ _ m _ => decide (m = n) | .store m _ _ _ => decide (m = n) | .outc _ m _ => decide (m = n) | _ => false)

/-- Bit 31 of an output word or command sets OUT in its cell's slot (R146). -/
def DownData.out : DownData → Option Bool
  | .outword w => some (w.getLsbD 31)
  | .cmd (.output w) => some (w.getLsbD 31)
  | _ => none

/-- What leaving does beside sending: an output word or command sets OUT in its slot (R146), an echo starts its clock (R401), behind a
PREP the record follows (R118, R121), and a place in the queue is free (R230). -/
def State.cellLeft (s : State) (n : IslandNo) (c : DownCell) : State :=
  let s := match c.data.out with
    | some b => (s.modIsl n (fun i => { i with outBit := b })).laneUpdate n
    | none => s
  let s := match c.data with
    | .cmd (.echo _) => if c.again then s else s.modIsl n (fun i => { i with loop := { i.loop with start := s.tick } })
    | .cmd .prep => if c.req = .slate ∧ !c.again then s.sendRecord n else s
    | _ => s
  if s.waitsFor n && !s.queueFull n then s.owe 0 (.islandQueueFree n) else s

/-- The cell that a slot starting on tick t takes: the first that has not left and is ready. -/
def inSlot {α : Type} (t : Tick) (l : List (Cell α)) : Option (Cell α) := l.find? (fun c => !c.sent && decide (c.since ≤ t))

/-- It leaves with SEQ q, behind the cells that have left before it; a cell that is sent again keeps its SEQ (R36, R39). -/
def leave {α : Type} (t : Tick) (q : BitVec 2) : List (Cell α) → List (Cell α)
  | [] => []
  | c :: l =>
    if !c.sent && decide (c.since ≤ t) then { c with sent := true, slot := t, seq := if c.again then c.seq else q, again := false } :: l
    else
      match leave t q l with
      | x :: r => if x.sent && !c.sent then x :: c :: r else c :: x :: r
      | [] => [c]

/-- The downstream slot of island n (R36, R37); CELL_RETRY counts cells that are sent again, a SYNC cell after its
first sending (R61). -/
def State.slotDownOf (s : State) (n : IslandNo) : State :=
  match inSlot s.tick s.isl[n].down with
  | some c =>
    if s.running n then
      (s.modIsl n (fun i =>
        { i with down := leave s.tick i.dnTx i.down, dnTx := if c.again then i.dnTx else i.dnTx + 1,
                 cellRetry := satAdd i.cellRetry (b2n (c.again && (!c.sync || c.failed))) })).cellLeft n c
    else s
  | none => s

/-- The upstream slot of island n. -/
def State.slotUpOf (s : State) (n : IslandNo) : State :=
  match inSlot s.tick s.isl[n].up with
  | some c =>
    if s.running n then
      s.modIsl n (fun i =>
        { i with up := leave s.tick i.upTx i.up, upTx := if c.again then i.upTx else i.upTx + 1,
                 cellRetry := satAdd i.cellRetry (b2n (c.again && (!c.sync || c.failed))) })
    else s
  | none => s

/-- The downstream slots that start on this tick: cells that became ready before it (R36; log entry 34). -/
def State.slotsDown (s : State) : State :=
  if s.slotStarts 0 s.link.slotDn then
    islands.foldl (fun (s : State) (n : IslandNo) => s.slotDownOf n) (s.modLink (fun l => { l with slotDn := some s.tick }))
  else s

/-- The upstream slots that start on this tick: cells that are ready by its end, since a report that an island makes on the tick of a
slot arrives 12 tk later (R288; log entry 34). -/
def State.slotsUp (s : State) : State :=
  if s.slotStarts 4 s.link.slotUp then
    islands.foldl (fun (s : State) (n : IslandNo) => s.slotUpOf n) (s.modLink (fun l => { l with slotUp := some s.tick }))
  else s

/-! ## Landings -/

/-- The cell that lands in island n on this tick: its row, if it has one. -/
def State.landDown (s : State) (n : IslandNo) : State × List Instr :=
  let i := s.isl[n]
  match i.down.find? (fun c => c.lands c.sync s.tick i.dnRx) with
  | some c =>
    match downRow n c with
    | some r => (s, [r])
    | none => (match c.data with | .cmd (.test d) => s.testLand n d | _ => s.landed n c.data, [])
  | none =>
    if i.down.any (fun c => c.repeats s.tick i.dnRx) then (s.modIsl n (fun i => { i with dnRx := i.dnRx + 1 }), []) else (s, [])

/-- The cell of island n that arrives at the host side on this tick. -/
def State.landUp (s : State) (n : IslandNo) : State × List Instr :=
  let i := s.isl[n]
  match i.up.find? (fun c => c.lands c.sync s.tick i.upRx) with
  | some c => (s, [upRow n c.data])
  | none =>
    if i.up.any (fun c => c.repeats s.tick i.upRx) then (s.modIsl n (fun i => { i with upRx := i.upRx + 1 }), []) else (s, [])

/-- The cells that land on this tick, in the order of the islands: their rows join the queue. -/
def State.landCells (s : State) : State :=
  islands.foldl (fun (s : State) (n : IslandNo) =>
    if s.running n then
      let d := s.landDown n
      let u := d.1.landUp n
      { u.1 with pending := u.1.pending ++ d.2 ++ u.2 }
    else s) s

/-! ## State lanes -/

/-- An indication's bit in the image word, by its source (R154). -/
def DigIn.mark (d : DigIn) (src : Nat) : DigIn :=
  { d with rise := d.rise || decide (src / 16 = 3), fall := d.fall || decide (src / 16 = 4), cmp := d.cmp || decide (src / 16 = 6) }

/-- The levels of island n at the host side: RAW changes pulse, and TAP conditions are evaluated (R33, R237, R245). -/
def State.levels (s : State) (n : IslandNo) (l : ULane) : State :=
  let old := s.isl[n].host
  let s := s.modIsl n (fun i => { i with host := l })
  let s := if !old.raw && l.raw then s.pulse (0x010 + n.val) else s
  let s := if old.raw && !l.raw then s.pulse (0x020 + n.val) else s
  s.tapChanged

/-- The source pulses on this tick; a stamp is kept for the lines that carry it (R17, R139, R237). -/
def State.pulseStamped (s : State) (src : Nat) (stamp : Option Tick) : State :=
  match stamp with
  | none => s.pulse src
  | some t => { s with evt := { s.evt with stamp := s.evt.stamp ++ (linesOf s src).map (fun l => (l, t)) } }.pulse src

/-- Newer levels of island n are due by tick t (R33). -/
def State.newerUp (s : State) (n : IslandNo) (t : Tick) : Bool :=
  s.transit.any (fun e => decide (e.1 ≤ t) && (match e.2 with | .up m _ => decide (m = n) | _ => false))

/-- A state-lane change arrives. Where the upstream symbol of this itk fails parity, a level comes with the next one, which carries the
newest there is, and an indication with the next of its four (R33, R34). -/
def State.arrive (s : State) : Transit → State
  | .up n l =>
    if !s.running n then s
    else if s.isl[n].noise ≠ 0 then (if s.newerUp n (s.tick + 2) then s else s.sendLane 2 (.up n l))
    else s.levels n l
  | .ind n src stamp left =>
    if !s.running n then s
    else if s.isl[n].noise ≠ 0 then (if left = 0 then s else s.sendLane 2 (.ind n src stamp (left - 1)))
    else
      let s := s.modIsl n (fun i =>
        { i with din := i.din.mark src.toNat, cos := i.cos || (decide (src.toNat / 16 = 5) && i.imgFrozen.isNone) })
      s.pulseStamped src.toNat stamp
  | .still n gap => if s.running n then s.modDin n (fun d => { d with stillEdge := true, gap := d.gap || gap }) else s
  | .img n w => s.modIsl n (fun i => { i with img := w })
  | .freeze n => s.modIsl n (fun i => { i with imgFrozen := some (s.image n).2 })
  | .thaw n => s.modIsl n (fun i => { i with imgFrozen := none })
  | .clip n => s.modIsl n (fun i => { i with ana := { i.ana with clip := true } })
  | .word n c => if s.running n then s.wordTakes n c else s
  | .rfx n d =>
    (s.modIsl n (fun i => { i with rfx := d, outBit := if i.rfx.force && !d.force then i.rfx.out else i.outBit })).laneUpdate n
  | .down n d => if s.running n then s.laneLand n d else s
  | .test n d => s.testLand n d

/-- An upstream symbol of island n that fails parity is counted; the eighth in a row loses the island (R42, R61). -/
def State.symbol (s : State) (n : IslandNo) : State :=
  let i := s.isl[n]
  if !s.running n then s
  else if i.noise = 0 then (if i.symBad = 0 then s else s.modIsl n (fun i => { i with symBad := 0 }))
  else
    let s := s.modIsl n (fun i => { i with noise := i.noise - 1, symErr := satAdd i.symErr 1, symBad := min 8 (i.symBad + 1) })
    if i.symBad = 7 then s.owe 0 (.symbolTimeout n) else s

/-- The upstream symbols of this tick, one for each island on every itk (R32). -/
def State.symbols (s : State) : State :=
  if s.tick.getLsbD 0 then s else islands.foldl (fun (s : State) (n : IslandNo) => s.symbol n) s

/-- Everything that arrives on this tick. -/
def State.lanes (s : State) : State :=
  (s.transit.filter (fun e => decide (e.1 ≤ s.tick))).foldl (fun (s : State) (e : Tick × Transit) => s.arrive e.2)
    { s with transit := s.transit.filter (fun e => !decide (e.1 ≤ s.tick)) }

/-! ## The Facet core -/

/-- The boot ROM's program runs in context 0 (R357, log entry 31). -/
def State.booting (s : State) : Bool :=
  s.inRom 0 && decide (s.facet.ctx[0].st = .run) && !decide (s.pow.bootStep.toNat ∈ [6, 7, 8])

/-- The instruction word at the PC of context t; none where the context may not fetch (R218). -/
def State.fetch (s : State) (t : CtxNo) : Option Word :=
  let pc := s.facet.ctx[t].pc
  if !s.fetchable t pc then none
  else match regionOf s.member pc.toNat with
    | .rom => some (romWord (pc.toNat - 0x3F00_0000))
    | _ => some (s.sramWord pc.toNat)

/-- A fetch that fails: CAUSE is SLICE in another context's slice, else FETCH; an unmapped address is an access error too (R219,
R288). -/
def State.fetchFails (s : State) (t : CtxNo) : State :=
  let pc := s.facet.ctx[t].pc
  let s := s.modCtx t (fun c => { c with pc := c.pc + 4 })
  match regionOf s.member pc.toNat with
  | .slice _ => s.exception t .slice 3 pc
  | .none => (s.accFault .addr (.thread t) 3 pc.toNat).exception t .fetch 3 pc
  | _ => s.exception t .fetch 3 pc

/-- The access of a load or store takes place on the host die, not through a cell of an island (R210, R229, R230); a load of HRAWR reads
the host-side queue (R186). -/
def State.hostDie (s : State) (a : Word) (isLoad : Bool) : Bool :=
  match regionOf s.member a.toNat with
  | .isl _ => hostSide (a.toNat / 4 * 4 % 0x1000) || (isLoad && decide (a.toNat / 4 * 4 % 0x1000 = 0x0E0))
  | .islMem _ => false
  | _ => true

/-- The instruction accesses host-die memory, registers, a lock or the image three ticks after its issue (R210, R225, R228). -/
def State.isLate (s : State) : Instr → Bool
  | .ldw t _ ra imm => s.hostDie (s.greg t ra + sext18 imm) true
  | .ldh t _ ra imm => s.hostDie (s.greg t ra + sext18 imm) true
  | .ldhu t _ ra imm => s.hostDie (s.greg t ra + sext18 imm) true
  | .ldb t _ ra imm => s.hostDie (s.greg t ra + sext18 imm) true
  | .ldbu t _ ra imm => s.hostDie (s.greg t ra + sext18 imm) true
  | .stw t ra _ off => s.hostDie (s.greg t ra + sext18 off) false
  | .sth t ra _ off => s.hostDie (s.greg t ra + sext18 off) false
  | .stb t ra _ off => s.hostDie (s.greg t ra + sext18 off) false
  | .lock _ _ _ => true
  | .unlk _ _ _ => true
  | .clrp _ _ _ => true
  | .imgr _ _ _ => true
  | _ => false

/-- Instruction c of context t issues in its slot: at once, or with its access on the third tick after this one (R209, R210). -/
def State.issues (s : State) (t : CtxNo) (c : Instr) : State × List Instr :=
  if s.isLate c then (((s.stepPc t).modCtx t (fun x => { x with flight := .issued })).owe 3 c, []) else (s, [c])

/-- The slot of this tick (R208, R209, R211, R219): its context issues, a store that waited completes, or the slot is lent. Answers the
commands that this makes. -/
def State.facetSlot (s : State) : State × List Instr :=
  let t : CtxNo := Fin.ofNat 8 (s.tick.toNat % 8)
  if t = 0 ∧ s.booting then (s, [])
  else if s.canIssue t then
    match s.fetch t with
    | none => (s.fetchFails t, [])
    | some w =>
      match facetDecode t w with
      | some c => s.issues t c
      | none => ((s.stepPc t).illegal t, [])
  else if s.mayPost s.facet.ctx[t].stall then (s, [])
  else (s, if s.harvest.isSome then [.harvestSlot] else [])

/-- The context that owns this tick's slot posts what waited for a full queue (R215, R230). -/
def State.slotPosts (s : State) : State := s.posts (Fin.ofNat 8 (s.tick.toNat % 8))

/-! ## The data mover -/

/-- A further word of channel c may be read: of island SRAM up to eight are under way, of any other source one (R255). -/
def State.mayRead (s : State) (c : ChNo) : Bool :=
  let h := s.dma[c]
  let a := s.readAddr c
  if h.remain.toNat ≤ h.ahead then false
  else if h.ahead ≠ 0 then
    match regionOf s.member a with
    | .islMem n => decide (h.ahead < 8) && !s.chUnit c && s.running n && !s.queueFull n
    | _ => false
  else if (s.srcError c).isSome then true
  else match regionOf s.member a with
    | .islMem n => !s.queueFull n
    | .reg => match portOf s.member 0x3800 a with | some n => !s.isl[n].rstream.isEmpty | none => true
    | _ => true

/-- The destination of channel c takes the word that it holds, or writing it fails (R37, R255). -/
def State.mayWrite (s : State) (c : ChNo) : Bool :=
  let a := s.dma[c].dst.toNat / 4 * 4
  if s.dma[c].buf.isNone || s.dma[c].unscaled then false
  else if (s.dstError c).isSome then true
  else match regionOf s.member a with
    | .islMem n => !s.queueFull n
    | .reg => match portOf s.member 0x3A00 a with | some n => !(s.takesOut n && s.queueFull n) | none => true
    | _ => true

/-- Channel c does not lose its turn (R255); a paced one moves from the tick after its pulse on (R254). -/
def State.movable (s : State) (c : ChNo) : Bool :=
  decide (s.dma[c].st = .move) && decide (s.dma[c].goAt ≤ s.tick) && (s.mayWrite c || s.mayRead c)

/-- The channels in rotation, from the one after the one served last (R255). -/
def State.rotation (s : State) : List ChNo := channels.map (fun c => s.moved + 1 + c)

/-- The mover's work on a tick: it reads a word, or writes the one that a channel holds; a read of the NVM window takes it eight ticks,
and an access to a bank that the link or a thread takes waits (R255). Log entry 37. -/
def State.moverTick (s : State) : State × List Instr :=
  match s.nvmRd with
  | some (c, u) => if s.tick < u then (s, []) else (s.nvmRead c, [])
  | none =>
    match s.rotation.find? (fun c => s.movable c) with
    | none => (s, [])
    | some c =>
      if s.mayWrite c then (if s.bankTaken s.dma[c].dst.toNat then (s, []) else (s, [.wordMove c]))
      else if s.bankTaken (s.readAddr c) then (s, [])
      else (s.moveRead c, [])

/-! ## The calendar -/

/-- Order of the rows of one tick. Accesses of the link come first, and those of threads behind them (R80, R210). A result is written
before a cell of the same tick reads its slot (R203). An edge qualifies after the transition that may cancel it (R132); calibrations,
rounds and conversions start after what may cut in (R201); timers and waits end after the pulses of their tick (R222, R242), and a
release comes after every trigger (R247). Log entry 34. -/
def dueRank : Instr → Nat
  | .commandExecute => 0
  | .resultWrite _ => 1
  | .qualifiedEdge _ => 4
  | .calibrationStart _ => 5
  | .roundStart _ => 6
  | .conversionStart _ => 7
  | .timerPulse _ => 8
  | .wfeTimeout _ => 9
  | .reflexRelease _ => 10
  | .ldw _ _ _ _ => 3
  | .ldh _ _ _ _ => 3
  | .ldhu _ _ _ _ => 3
  | .ldb _ _ _ _ => 3
  | .ldbu _ _ _ _ => 3
  | .stw _ _ _ _ => 3
  | .sth _ _ _ _ => 3
  | .stb _ _ _ _ => 3
  | .lock _ _ _ => 3
  | .unlk _ _ _ => 3
  | .clrp _ _ _ => 3
  | .imgr _ _ _ => 3
  | _ => 2

/-- Sources that pulse on a tick because those of the list do: the RFX_FIRE of LINE entries on their lines (R237, R247). -/
def State.alsoPulse (s : State) : Nat → List Nat → List Nat
  | 0, l => l
  | k + 1, l =>
    let new := (entries.filter (fun (i : Fin 64) =>
      s.rfxEn i && s.rfxLine i && l.contains (fld (s.lineWord ((s.rfxTrig i).extractLsb' 0 8)) 0 9))).map (fun (i : Fin 64) => 0x140 + i.val)
    if new.all l.contains then l else s.alsoPulse k (l ++ new.filter (fun x => !l.contains x))

/-- Timer j's pulse starts or restarts timer k's count, by itself or by a reflex entry that it fires (R241). -/
def State.tmrDrives (s : State) (j k : Fin 16) : Bool :=
  (s.alsoPulse 64 [0x0B0 + j.val]).contains (fld (s.lineWord ((s.tmrWord k 0).extractLsb' 8 8)) 0 9)

/-- Of the timers whose counts end on one tick, one that another of them drives comes after that one (R242). -/
def State.tmrFirst (s : State) (l : List Instr) : List Instr :=
  let free (c : Instr) : Bool := match c with
    | .timerPulse k => l.all (fun d => match d with | .timerPulse j => decide (j = k) || !s.tmrDrives j k | _ => true)
    | _ => true
  match l.find? free with
  | some c => [c]
  | none => l.take 1

/-- The rows that are due. -/
def State.dueAll (s : State) : List Instr := (s.due.filter (fun e => decide (e.1 ≤ s.tick))).map (·.2)

/-- The rows that are due, of the first rank that has any: those of later ranks come once these are settled, those that end a wait
after the block's own work, which may still pulse (R222, R242, R247). -/
def State.dueNow (s : State) : List Instr :=
  let l := s.dueAll.filter (fun c => decide (dueRank c < 8) || decide (s.part = .work))
  match (List.range 11).find? (fun k => l.any (fun c => decide (dueRank c = k))) with
  | none => []
  | some k =>
    let m := l.filter (fun c => decide (dueRank c = k))
    if k = 8 then s.tmrFirst m else m

/-- The rows that are due join the queue; each settles its own entry of the calendar. -/
def State.callDue (s : State) : State := { s with pending := s.pending ++ s.dueNow }

/-- Results that are due are written before a cell that lands on this tick can read their slots (R203). -/
def State.results (s : State) : State :=
  { s with pending := s.pending ++ s.dueAll.filter (fun c => decide (dueRank c = 1)) }

/-! ## The tick -/

/-- The next tick of a running host die begins: what the islands sent at the end of the last one is on its way, what a stop kept is dealt
with, a commit switches, cells leave, land and are acknowledged, lanes are delivered, and the rows that are due come. -/
def State.nextHck (s : State) : State :=
  let s := if s.pow.deferral then s else s.shipImages.slotsUp
  let s := { s with tick := s.tick + 1, part := .rows, evt := { s.evt with stamp := [], pulsed := [] } }
  if s.pow.deferral then s
  else ((((((((s.rollWindows.quarterShown).resumed).commitDue).ackCells).trigsGo).slotsDown).lanes).symbols).results.landCells

/-- The block's own work on a tick, after the rows that are due on it: the link's words, the boot ROM, the arbiter's edge, the Facet
core's slot and the data mover. -/
def State.work (s : State) : State :=
  let s := (((((({ s with part := .work } : State).resumeEnds.crcCheck.twinTick).bootTick).ledEdge).nvmLoadTick).nvmTick)
  let f := s.facetSlot
  let m := (f.1.slotPosts).moverTick
  { m.1 with pending := m.1.pending ++ f.2 ++ m.2 }

/-- What the block does when no command waits: without HCK, and in a K4 reset, nothing; else the rows that are due on this tick, its
work, or the next tick. -/
def State.idle (s : State) : State :=
  if !s.ticks then s
  else if s.dueNow ≠ [] then s.callDue
  else if s.part = .rows && !s.pow.deferral then s.work
  else s.nextHck

end Sys2Proof.Machine
end

