-- ==== Sys2Proof/Machine/Step.lean ====
section
/-! DEFINITION. One step of the block: the command at the front of the queue runs. -/

namespace Sys2Proof.Machine

/-- The command at the front runs with the queue's rest; on an empty queue HCK ticks (log entry 2). Log entry 1. -/
def step (s : State) : Host.Outcome State Fault Refusal :=
  match s.pending with
  | c :: r => exec c { s with pending := r }
  | [] => .next s.idle

/-- The state with the command a word spells put at the front of its queue; unchanged where the word spells none. -/
def State.withFetchWord (s : State) (nbits w : Nat) : State :=
  match decodeTableWord nbits w with
  | some c => { s with pending := c :: s.pending }
  | none => s

end Sys2Proof.Machine
end

