-- ==== Sys2Proof/Safety.lean ====
section
/-! DEFINITION. The terms that claims use: a command that completes, the shapes of the next state that several rows share, the
invariant of the machine, and which commands may change which part of the state. -/

namespace Sys2Proof.Machine

/-! ## Completion -/

/-- The command answers a next state, of which P holds. -/
def Completes (c : Instr) (s : State) (P : State → Prop) : Prop := ∃ u, exec c s = .next u ∧ P u

/-- The state after a Facet instruction whose one effect is the value of a register: PC goes to the next word, the instruction is
counted, and rd takes v unless it is g0 (R209, R233, R235). -/
def State.computes (s : State) (t : CtxNo) (rd : RegNo) (v : Word) : State :=
  s.modCtx t (fun c => Ctx.put { c with pc := c.pc + 4, cnt := c.cnt + 1 } rd v)

/-- The state after a Facet instruction whose one effect is where PC goes. -/
def State.goesTo (s : State) (t : CtxNo) (target : Word) : State :=
  s.modCtx t (fun c => { c with pc := target, cnt := c.cnt + 1 })

/-- PC of context t. -/
def State.pcOf (s : State) (t : CtxNo) : Word := s.facet.ctx[t].pc

/-- Address of the instruction that context t issues, or whose access is still to come (R210). -/
def State.iaddr (s : State) (t : CtxNo) : Word := if s.facet.ctx[t].flight = .none then s.pcOf t else s.pcOf t - 4

/-- Instruction c of context t, which accesses the bank or register key, runs now: it issues, or it has issued, its access is due,
the link does not put it off, and its context has not been started anew since (R210, R215). -/
def State.mayAccess (s : State) (t : CtxNo) (c : Instr) (key : Option Nat) : Bool :=
  s.clocked && decide (s.facet.ctx[t].st = .run) && !s.facet.ctx[t].starting &&
  ((decide (s.facet.ctx[t].flight = .none) && decide (s.facet.ctx[t].wokeAt ≠ some s.tick)) ||
    (decide (s.facet.ctx[t].flight ≠ .none) && decide (s.facet.ctx[t].old = none) && s.isDue c &&
      !(decide (s.facet.ctx[t].flight = .issued) && s.linkMet key)))

/-- The state in which instruction c of context t has taken its bank or register: PC stands at the next word, the instruction is counted,
and its calendar entry is settled. -/
def State.accessed (s : State) (t : CtxNo) (c : Instr) (key : Option Nat) : State :=
  ((s.settle c).touched key).modCtx t (fun x =>
    if x.flight = .none then { x with pc := x.pc + 4, cnt := x.cnt + 1 } else { x with flight := .none })

/-- The instruction of context t stands in SRAM. -/
def State.runsInSram (s : State) (t : CtxNo) : Prop :=
  regionOf s.member (s.iaddr t).toNat = .shared ∨ regionOf s.member (s.iaddr t).toNat = .slice t

/-- The address lies in SRAM that context t may read: the shared area, its own slice, and every slice for context 0 in the boot ROM
(R218). -/
def State.readsSram (s : State) (t : CtxNo) (a : Word) : Prop :=
  regionOf s.member a.toNat = .shared ∨ regionOf s.member a.toNat = .slice t ∨
  (t = 0 ∧ regionOf s.member (s.iaddr t).toNat = .rom ∧ ∃ u, regionOf s.member a.toNat = .slice u)

/-- The address lies in SRAM that context t may write: as for reading, the shared area if its bit of GUARD.SHAREWR is set (R218). -/
def State.writesSram (s : State) (t : CtxNo) (a : Word) : Prop :=
  (regionOf s.member a.toNat = .shared ∧ (s.cfgAt 0x4004).getLsbD t.val = true) ∨ regionOf s.member a.toNat = .slice t ∨
  (t = 0 ∧ regionOf s.member (s.iaddr t).toNat = .rom ∧ ∃ u, regionOf s.member a.toNat = .slice u)

/-- The command faults context t (R219): it is FAULTED with the cause, its PC at the instruction and its registers as they were; no
other context changes, and neither SRAM nor a register of an island does. -/
def Excepts (c : Instr) (s : State) (t : CtxNo) (cause : BitVec 3) : Prop :=
  Completes c s (fun u =>
    u.facet.ctx[t].st = .faulted ∧ u.facet.ctx[t].cause = cause ∧ u.pcOf t = s.iaddr t ∧ u.facet.ctx[t].regs = s.facet.ctx[t].regs ∧
    (∀ k : CtxNo, k ≠ t → u.facet.ctx[k] = s.facet.ctx[k]) ∧ u.mem = s.mem ∧ u.isl = s.isl)

/-! ## Islands -/

/-- Nothing has changed but island n with what the host side holds for it, what is owed, and what is on its way. -/
def IslandOnly (s u : State) (n : IslandNo) : Prop :=
  u = { s with isl := u.isl, due := u.due, transit := u.transit } ∧ ∀ m, m ≠ n → u.isl[m] = s.isl[m]

/-- Island n has a STATUS cell waiting that reports a fault of this source and kind (R288). -/
def Reports (u : State) (n : IslandNo) (src kind : Byte) : Prop :=
  ∃ c ∈ u.isl[n].up, c.sent = false ∧ ∃ d, c.data = .status (.fault src kind d)

/-- The output stage of island n drives what the priority of its demands gives now (R147, R174). -/
def Follows (u : State) (n : IslandNo) : Prop :=
  (u.isl[n].pers = .dO → u.isl[n].dout.sw = decide (u.isl[n].digTarget ≠ 0)) ∧
  (u.isl[n].pers.anaOut = true → u.isl[n].ana.driven = (u.aoTarget n).1)

/-- The host side has queued a cell for island n. -/
def Queues (u : State) (n : IslandNo) (req : Master) (d : DownData) : Prop :=
  ∃ c ∈ u.isl[n].down, c.data = d ∧ c.req = req ∧ c.sent = false

/-! ## Faults -/

/-- The number of the next fault of source src: the next in order, put before those of this tick that have a higher source (R294,
R295). -/
def State.nextSeq (s : State) (src : Byte) : BitVec 16 :=
  s.fault.seq - BitVec.ofNat 16 ((s.fault.dq ++ s.fault.react).filter (fun r => r.came = s.tick ∧ src < r.src)).length

/-- The collector holds the fault that the command raised on this tick, under its number (R290, R292, R295). -/
def Raises (s u : State) (src midv kind : Byte) : Prop :=
  ∃ r ∈ u.fault.react ++ u.fault.dq, r.src = src ∧ r.mid = midv ∧ r.kind = kind ∧ r.seq = s.nextSeq src ∧ r.came = s.tick

/-! ## The invariant -/

/-- What every step keeps: SRAM, island SRAM, the store and the configuration are in canonical form, and g0 holds 0 in every context
(R233). -/
def State.Inv (s : State) : Prop :=
  Memory.wf s.mem = true ∧ (∀ n : IslandNo, Memory.wf s.isl[n].mem = true) ∧ swf (fun _ => (0xFF : Byte)) s.nvm.mem = true ∧
  swf (cfgReset s.member) s.cfg = true ∧ ∀ t : CtxNo, s.facet.ctx[t].regs[(0 : RegNo)] = 0

/-! ## Grains -/

/-- The grains charged to all islands stay within the arbiter's share, 560 gr on the SH16, and those that will stand after a change of
rungs are no more than those that stand in it (R49, R56). -/
def State.admittedOk (s : State) : Prop :=
  s.admitted ≤ s.member.admissible ∧ ∀ n : IslandNo, s.isl[n].led.pending = true → s.isl[n].led.sentGr ≤ s.isl[n].led.admGr

/-- One island counts at most 60 gr: what is charged to it, its reserve grant, and what a kill of it is still to give back; what it waits
for fits as well, and beside a powered island's grains to return there is room for its base (R43, R48, R49). -/
def Island.grainsOk (i : Island) : Prop :=
  (i.charging = false → i.rsv = 0) ∧ i.heldGr + i.heldRsv + i.led.admGr + i.rsv ≤ 60 ∧
  (i.led.waitGr = true → i.heldGr + i.heldRsv + i.led.nextGr ≤ 60) ∧ (i.powered = true → i.heldGr + i.heldRsv + 8 ≤ 60) ∧
  (i.led.pending = true → i.led.sentGr ≤ i.led.admGr)

/-! ## What may change what -/

/-- Events that need no clock: of the field terminals, the analog parts of an island, the supplies, lands and pins, HCK itself and the TAP
(R16-R18, R268, R274, R352, R407, R414). -/
def clockless : Instr → Bool
  | .inputTransition _ _ => true
  | .inrushEnd _ => true
  | .switchOvertemp _ => true
  | .switchCooled _ => true
  | .aoOvertemp _ => true
  | .aoCooled _ => true
  | .killMarkDetect _ => true
  | .safeMarkDetect _ => true
  | .carrierLoss _ => true
  | .cvBelow6v _ => true
  | .islTherm _ => true
  | .islThermRelease _ => true
  | .hostHot => true
  | .hostHotEnd _ => true
  | .chargeComplete _ => true
  | .reservoirOk _ => true
  | .couplerFault _ => true
  | .brownOut => true
  | .rstNAssert => true
  | .prsntNRemoval => true
  | .thermalShutdown => true
  | .deferralEnd => true
  | .k4Release _ => true
  | .vmicaUndervoltage => true
  | .vmicaReturn => true
  | .hckStop => true
  | .hckResume => true
  | .safeNAssert => true
  | .safeNHigh _ => true
  | .stillnessTrip => true
  | .integratorDischarged => true
  | .testNHigh => true
  | .testNLow => true
  | .extest => true
  | .idcode => true
  | .samplePreload => true
  | .highz => true
  | .clamp => true
  | .bypass => true
  | .tapReset => true
  | _ => false

/-- Commands that assert a K4 reset, at once or at the end of its deferral (R350). -/
def assertsK4 : Instr → Bool
  | .brownOut => true
  | .rstNAssert => true
  | .prsntNRemoval => true
  | .thermalShutdown => true
  | .deferralEnd => true
  | _ => false

/-- Commands that write registers of the host die by address. -/
def writesByAddress : Instr → Bool
  | .registerWrite _ _ _ => true
  | .commandExecute => true
  | .stw _ _ _ _ => true
  | .sth _ _ _ _ => true
  | .stb _ _ _ _ => true
  | _ => false

/-- Commands that may write the configuration: the commit, and DMA templates in host-assisted mode (R102, R253). -/
def writesConfig : Instr → Bool
  | .commitSwitch => true
  | .tlinkWrite _ _ _ => true
  | c => assertsK4 c || writesByAddress c

/-- Commands that may write SRAM (R212, R218, R255, R257). -/
def writesMemory : Instr → Bool
  | .wordMove _ => true
  | .append _ _ _ => true
  | .harvestSlot => true
  | c => assertsK4 c || writesByAddress c

end Sys2Proof.Machine
end

