-- ==== Sys2Proof/Certificates/Slice0/Obligations.lean ====
section
/-! DEFINITION. The statements about the SH16, one for each family of commands and each kind of state, and those about the machine as a
whole. Each says in which states its commands complete, what they change and what they leave. -/

open Sys2Proof Sys2Proof.Machine

/-- A step takes the command at the front of the queue and runs it with the queue's rest; on an empty queue the block idles, and
without HCK or in a K4 reset nothing then happens. Idling takes the rows that are due, then the block's own work of the tick,
then the next tick (log entries 2 and 34: the model's choice of what a tick is). That an idle step is one tick, and the order of
the rows of a tick, are the model's choice (log entry 34). -/
def Obligations.StepRunsFrontCommand : Prop :=
  ∀ (s : State),
    (∀ (c : Instr) (q : List Instr), step { s with pending := c :: q } = exec c { s with pending := q }) ∧
    (s.pending = [] → step s = .next s.idle) ∧
    (s.pow.hck = false ∨ s.pow.k4 = true → s.idle = s) ∧
    (s.pow.hck = true → s.pow.k4 = false → s.dueNow ≠ [] → s.idle = { s with pending := s.pending ++ s.dueNow }) ∧
    (s.pow.hck = true → s.pow.k4 = false → s.dueNow = [] → s.part = .rows → s.pow.deferral = false → s.idle.tick = s.tick ∧
      s.idle.part = .work) ∧
    (s.pow.hck = true → s.pow.k4 = false → s.dueNow = [] → s.part = .work ∨ s.pow.deferral = true → s.idle.tick = s.tick + 1 ∧
      s.idle.part = .rows)

/-- R25, R66, R85, R101, R214, R291, R313, R351, R357, R411: After the release of a power-on reset: tick 0, no rate declared, no
slate committed, the link UNTRAINED with E free and no result, every island in Bedrock, context 0 alone at the boot ROM entry,
the matrix at the defaults of the sources, no fault, latch or role, the store scanning; the boot ROM starts at tick 8 and the
scan ends in time. That the end of the scan is owed at its bound is the model's choice (log entry 2). -/
def Obligations.ResetState : Prop :=
  let s := State.reset
  s.tick = 0 ∧ s.snapHi = 0 ∧ s.rate = 0 ∧ s.slate.committed = false ∧ s.slate.st = .empty ∧ s.slate.owner = none ∧
  s.link.st = .untrained ∧ s.link.lmode = false ∧ s.link.eFree = true ∧ s.link.expSeq = 0 ∧ s.link.pres = 15 ∧ s.link.downLimit = 16 ∧
  s.link.queue = [] ∧ s.link.readq = [] ∧ s.link.loopAct = 0 ∧ s.link.errCrc = 0 ∧
  (∀ n : IslandNo, s.isl[n].power = .bedrock ∧ s.isl[n].en = false ∧ s.isl[n].led.admRung = 0 ∧ s.isl[n].loop.st = 0) ∧
  s.facet.ctx[(0 : CtxNo)].st = .run ∧ s.pcOf 0 = 0x3F000000 ∧ (∀ t : CtxNo, t ≠ 0 → s.facet.ctx[t].st = .free) ∧
  (∀ k : Fin 64, s.facet.locks[k].owner = none ∧ s.facet.locks[k].poison = false) ∧
  s.matrix 0x2B = 0x13 ∧ s.matrix 0x18 = 0x08 ∧ s.matrix 0x31 = 1 ∧ s.matrix 0x01 = 0 ∧
  (∀ c : ChNo, s.dma[c].st = .idle) ∧ s.flint.host.st = .off ∧ s.flint.core.st = .off ∧ s.flint.armed = false ∧
  s.safe.still = false ∧ s.safe.safeN = false ∧ s.safe.flint = false ∧ s.safe.cmd = 0 ∧ s.fault.feValid = false ∧ s.fault.halt = false ∧
  s.fault.lockout = false ∧ s.fault.chFault = 0 ∧ s.fault.seq = 0 ∧ s.nvm.st = .scan ∧ s.tan.role = .solo ∧ s.tan.link = .off ∧
  s.pow.ps = .run ∧ s.pow.ftm = false ∧ s.pow.ustep = 0 ∧ s.pow.rcause = .powerOn ∧ s.pending = [] ∧ (8, .bootStart) ∈ s.due ∧
  (40960, .scanDone) ∈ s.due

/-- The invariants hold at reset: the canonical memories and g0 = 0, and the bounds of the grains. -/
def Obligations.ResetMeetsInvariant : Prop :=
  State.reset.Inv ∧ State.reset.admittedOk ∧ ∀ n : IslandNo, State.reset.isl[n].grainsOk

/-- Every step keeps the invariant: SRAM, island SRAM, the store and the configuration stay in canonical form, and g0 of every
context stays 0 (R233). The canonical form is the model's own (log entries 7 and 10). -/
def Obligations.StepKeepsInvariant : Prop := ∀ (s u : State), s.Inv → step s = .next u → u.Inv

/-- No command stops the block: exec of every command in every state answers a next state (R288: errors go to the collector);
while HCK stands or a K4 reset is asserted a command of clocked logic changes nothing (R13, R16). The next state has the queue
and the member of the state before; only an assertion or release of a K4 reset changes the tick, only the commands of
writesConfig the configuration, only those of writesMemory the SRAM, and RATE only a register write, a K3 or a K4 reset. -/
def Obligations.CommandsKeepTheRest : Prop :=
  ∀ (c : Instr) (s : State), ∃ u, exec c s = .next u ∧ u.pending = s.pending ∧ u.member = s.member ∧
    (clockless c = false → s.clocked = false → u = s) ∧
    (assertsK4 c = false → (∀ l, c ≠ .k4Release l) → u.tick = s.tick) ∧
    (writesConfig c = false → u.cfg = s.cfg) ∧
    (writesMemory c = false → u.mem = s.mem) ∧
    (assertsK4 c = false → writesByAddress c = false → c ≠ .flintReset → u.rate = s.rate)

/-- R233, R234: The word of every Facet instruction, with every operand at every value, decodes to that instruction; what
decodes has an encoding with the same OP, and an OP that the table does not list decodes to nothing. Every row of the table has
its word, with its fields at every value. -/
def Obligations.FacetWordsRoundTrip : Prop :=
  (∀ (t : CtxNo) (d a b : RegNo) (fn : BitVec 14) (i : BitVec 18) (j : BitVec 22),
    let r (x : RegNo) : BitVec 4 := BitVec.ofFin x
    let fA (op : BitVec 6) (x y z : BitVec 4) (f : BitVec 14) : Word := op ++ (x ++ (y ++ (z ++ f)))
    let fB (op : BitVec 6) (x y : BitVec 4) (v : BitVec 18) : Word := op ++ (x ++ (y ++ v))
    let fD (op : BitVec 6) (x : BitVec 4) (v : BitVec 22) : Word := op ++ (x ++ v)
    let rows : List (Instr × Word) :=
      [(Instr.add t d a b, 0x01), (.sub t d a b, 0x02), (.and t d a b, 0x03), (.or t d a b, 0x04), (.xor t d a b, 0x05),
       (.sll t d a b, 0x06), (.srl t d a b, 0x07), (.sra t d a b, 0x08), (.slt t d a b, 0x09), (.sltu t d a b, 0x0A), (.mul t d a b, 0x0B),
       (.mulh t d a b, 0x0C), (.div t d a b, 0x0D), (.rem t d a b, 0x0E), (.min t d a b, 0x0F),
       (.max t d a b, 0x10)].map (fun x => (x.1, fA x.2 (r d) (r a) (r b) 0)) ++
      [(Instr.addi t d a i, 0x11), (.andi t d a i, 0x12), (.ori t d a i, 0x13), (.xori t d a i, 0x14), (.slli t d a i, 0x15),
       (.srli t d a i, 0x16), (.srai t d a i, 0x17), (.slti t d a i, 0x18), (.sltiu t d a i, 0x19), (.ldw t d a i, 0x1A),
       (.ldh t d a i, 0x1B), (.ldhu t d a i, 0x1C), (.ldb t d a i, 0x1D), (.ldbu t d a i, 0x1E), (.jalr t d a i, 0x2A),
       (.outc t d a i, 0x3A)].map (fun x => (x.1, fB x.2 (r d) (r a) i)) ++
      [(Instr.stw t a b i, 0x20), (.sth t a b i, 0x21), (.stb t a b i, 0x22), (.beq t a b i, 0x24), (.bne t a b i, 0x25),
       (.blt t a b i, 0x26), (.bge t a b i, 0x27), (.bltu t a b i, 0x28), (.bgeu t a b i, 0x29)].map (fun x => (x.1, fB x.2 (r a) (r b) i)) ++
      [(Instr.lock t d i, 0x36), (.unlk t d i, 0x37), (.clrp t d i, 0x38), (.rdtk t d i, 0x39),
       (.imgr t d i, 0x3B)].map (fun x => (x.1, fB x.2 (r d) 0 i)) ++
      [(.jal t d j, fD 0x30 (r d) j), (.lui t d j, fD 0x31 (r d) j), (.fork t d a b fn, fA 0x32 (r d) (r a) (r b) fn),
       (.join t a, fA 0x33 0 (r a) 0 0), (.wfe t d a, fA 0x34 (r d) (r a) 0 0), (.watch t i, fB 0x35 0 0 i), (.fence t d, fA 0x3C (r d) 0 0 0)]
    ∀ x ∈ rows, facetEncode x.1 = some x.2) ∧
  (∀ (i : Instr) (w : Word), facetEncode i = some w → facetDecode (facetCtx i) w = some i) ∧
  (∀ (t : CtxNo) (w : Word) (i : Instr), facetDecode t w = some i →
    facetCtx i = t ∧ ∃ v, facetEncode i = some v ∧ v.extractLsb' 26 6 = w.extractLsb' 26 6) ∧
  (∀ (t : CtxNo) (w : Word), (w.extractLsb' 26 6).toNat ∈ [0x00, 0x1F, 0x23, 0x2B, 0x2C, 0x2D, 0x2E, 0x2F, 0x3D, 0x3E, 0x3F] →
    facetDecode t w = none)

/-- R22: HOST.TICKRATE reads RATE under zero bits, is 0 at reset, takes the nearest legal rate of the mode for a non-zero value
and 0 for 0, is kept over the resets K0 to K2 and lost in K3 and K4. Commands that complete: REGISTER_WRITE, HALT_RECOVERY,
LINK_RESET, SOFT_RESET, BROWN_OUT, FLINT_RESET. -/
def Obligations.TickRateRegister : Prop :=
  State.reset.rate = 0 ∧
  ∀ (s : State),
    s.readReg s.tick 0x010 = some (s, s.rate.setWidth 32) ∧
    (∀ (m : Master) (w : Word), s.clocked = true → (m = .link ∨ ∃ t, m = .thread t) → Completes (.registerWrite m 0x010 w) s (fun u =>
      u.rate.toNat = if fld w 0 18 = 0 then 0
        else if s.link.lmode then max 100 (min 25000 (fld w 0 18)) else max 25000 (min 200000 (fld w 0 18)))) ∧
    Completes .haltRecovery s (fun u => u.rate = s.rate) ∧
    (∀ (p : List Word) (crc : Word), Completes (.linkReset p crc) s (fun u => u.rate = s.rate)) ∧
    Completes .softReset s (fun u => u.rate = s.rate) ∧
    (s.pow.k4 = false → Completes .brownOut s (fun u => u.rate = 0)) ∧
    (s.clocked = true → s.isDue .flintReset = true → s.flint.resetDue = true → s.slicing = false →
      Completes .flintReset s (fun u => u.rate = 0))

/-- R279: The generator and the token of a question under a seed, word by word as the rule computes them; a channel in MODE 2
with QHA = 0 starts with the seed's first question, steps it at each accepted token, shows it in Q, and reads SEED as 0.
Commands that complete: KICK. -/
def Obligations.FlintQuestionsAndTokens : Prop :=
  let rotl (v r : Nat) : Nat := (v * 2 ^ r ||| v / 2 ^ (16 - r)) % 65536
  let mixed (k1 a i : Nat) : Nat := let b := (rotl a 5 + k1 + i) % 65536; b ^^^ (b / 256)
  (∀ (q : BitVec 16) (seed : Word), (token q seed).toNat =
    mixed (seed.toNat / 65536) (mixed (seed.toNat / 65536) (q.toNat ^^^ (seed.toNat % 65536)) 0) 1) ∧
  (∀ v : BitVec 16, (qStep v).toNat = if v.toNat % 2 = 1 then (v.toNat / 2) ^^^ 0xB400 else v.toNat / 2) ∧
  (∀ seed : Word, (firstQuestion seed).toNat =
    let q := (seed.toNat / 65536) ^^^ (seed.toNat % 65536); if q = 0 then 0xACE1 else q) ∧
  ∀ (s : State) (ch : FlintChan),
    (s.flintMode ch = 2 → ((s.flintStart ch).flintCh ch).q = firstQuestion (s.flintSeed ch) ∧
      (s.flintStart ch).question ch = firstQuestion (s.flintSeed ch)) ∧
    (∀ m : Master, s.clocked = true → s.mayKick m ch = true → (s.flintCh ch).st = .running → s.flintMode ch = 2 → s.flintQha ch = false →
      s.flintWmin ch ≤ s.elapsed ch → s.elapsed ch < s.flintWmax ch →
      Completes (.kick m ch (token (s.question ch) (s.flintSeed ch))) s (fun u =>
        (u.flintCh ch).st = .running ∧ (u.flintCh ch).qnew = some (s.tick + 1, qStep (s.question ch)))) ∧
    s.readReg s.tick (flintBase ch + 0x10) = some (s, (s.question ch).setWidth 32) ∧
    s.readReg s.tick (flintBase ch + 0x0C) = some (s, 0)

/-- R71: The CRC word: the polynomial 0x1EDC6F41 over the bits of the bytes, the least significant bit of each byte first, from
all ones, reversed and inverted at the end; its check value; and the bytes of a word, the most significant first. -/
def Obligations.CrcIsCastagnoli : Prop :=
  let shift (c : Word) (b : Bool) : Word := if c.msb != b then (c <<< 1) ^^^ 0x1EDC6F41 else c <<< 1
  (∀ l : List Byte, crc32cBytes l =
    ((l.flatMap (fun b => (List.range 8).map (fun k => b.getLsbD k))).foldl shift 0xFFFFFFFF).reverse ^^^ 0xFFFFFFFF) ∧
  crc32cBytes [0x31, 0x32, 0x33, 0x34, 0x35, 0x36, 0x37, 0x38, 0x39] = 0xE3069283 ∧
  (∀ l : List Word, crc32c l = crc32cBytes (l.flatMap (fun w =>
    [w.extractLsb' 24 8, w.extractLsb' 16 8, w.extractLsb' 8 8, w.extractLsb' 0 8])))

/-- R233, R234, R235: An instruction of two registers that issues goes to the next word, is counted, and writes rd with the
number that R234 gives; nothing else changes, and g0 discards the value. The same for the instructions of one register and an
immediate. IMM18 is sign-extended but for ORI and XORI, a shift takes its low 5 bits, and LUI's IMM22 goes to bits [31:10]. That
all effects of an instruction that accesses no memory fall on its issue tick is the model's reading (log entry 33). Commands
that complete: ADD, SUB, AND, OR, XOR, SLL, SRL, SRA, SLT, SLTU, MUL, MULH, MIN, MAX, ADDI, ANDI, ORI, XORI, SLLI, SRLI, SRAI,
SLTI, SLTIU, LUI. -/
def Obligations.FacetComputes : Prop :=
  (
  ∀ (s : State) (t : CtxNo) (rd ra rb : RegNo), s.canIssue t = true →
    let x := s.greg t ra
    let y := s.greg t rb
    (∃ v, exec (.add t rd ra rb) s = .next (s.computes t rd v) ∧ v.toNat = (x.toNat + y.toNat) % 2 ^ 32) ∧
    (∃ v, exec (.sub t rd ra rb) s = .next (s.computes t rd v) ∧ v.toNat = (x.toNat + (2 ^ 32 - y.toNat)) % 2 ^ 32) ∧
    (∃ v, exec (.and t rd ra rb) s = .next (s.computes t rd v) ∧ ∀ i, v.getLsbD i = (x.getLsbD i && y.getLsbD i)) ∧
    (∃ v, exec (.or t rd ra rb) s = .next (s.computes t rd v) ∧ ∀ i, v.getLsbD i = (x.getLsbD i || y.getLsbD i)) ∧
    (∃ v, exec (.xor t rd ra rb) s = .next (s.computes t rd v) ∧ ∀ i, v.getLsbD i = (x.getLsbD i != y.getLsbD i)) ∧
    (∃ v, exec (.sll t rd ra rb) s = .next (s.computes t rd v) ∧ v.toNat = x.toNat * 2 ^ (y.toNat % 32) % 2 ^ 32) ∧
    (∃ v, exec (.srl t rd ra rb) s = .next (s.computes t rd v) ∧ v.toNat = x.toNat / 2 ^ (y.toNat % 32)) ∧
    (∃ v, exec (.sra t rd ra rb) s = .next (s.computes t rd v) ∧ v.toInt = x.toInt / 2 ^ (y.toNat % 32)) ∧
    (∃ v, exec (.slt t rd ra rb) s = .next (s.computes t rd v) ∧ v.toNat = if x.toInt < y.toInt then 1 else 0) ∧
    (∃ v, exec (.sltu t rd ra rb) s = .next (s.computes t rd v) ∧ v.toNat = if x.toNat < y.toNat then 1 else 0) ∧
    (∃ v, exec (.mul t rd ra rb) s = .next (s.computes t rd v) ∧ v.toNat = x.toNat * y.toNat % 2 ^ 32) ∧
    (∃ v, exec (.mulh t rd ra rb) s = .next (s.computes t rd v) ∧ v.toInt = x.toInt * y.toInt / 2 ^ 32) ∧
    (∃ v, exec (.min t rd ra rb) s = .next (s.computes t rd v) ∧ v.toInt = min x.toInt y.toInt) ∧
    (∃ v, exec (.max t rd ra rb) s = .next (s.computes t rd v) ∧ v.toInt = max x.toInt y.toInt)
  ) ∧ (
  ∀ (s : State) (t : CtxNo) (rd ra : RegNo) (imm : BitVec 18) (up : BitVec 22), s.canIssue t = true →
    let x := s.greg t ra
    (∃ v, exec (.addi t rd ra imm) s = .next (s.computes t rd v) ∧ (v.toNat : Int) = (x.toInt + imm.toInt) % 2 ^ 32) ∧
    (∃ v, exec (.andi t rd ra imm) s = .next (s.computes t rd v) ∧
      ∀ i, v.getLsbD i = (x.getLsbD i && imm.getLsbD (min i 17))) ∧
    (∃ v, exec (.ori t rd ra imm) s = .next (s.computes t rd v) ∧ ∀ i, v.getLsbD i = (x.getLsbD i || imm.getLsbD i)) ∧
    (∃ v, exec (.xori t rd ra imm) s = .next (s.computes t rd v) ∧ ∀ i, v.getLsbD i = (x.getLsbD i != imm.getLsbD i)) ∧
    (∃ v, exec (.slli t rd ra imm) s = .next (s.computes t rd v) ∧ v.toNat = x.toNat * 2 ^ (imm.toNat % 32) % 2 ^ 32) ∧
    (∃ v, exec (.srli t rd ra imm) s = .next (s.computes t rd v) ∧ v.toNat = x.toNat / 2 ^ (imm.toNat % 32)) ∧
    (∃ v, exec (.srai t rd ra imm) s = .next (s.computes t rd v) ∧ v.toInt = x.toInt / 2 ^ (imm.toNat % 32)) ∧
    (∃ v, exec (.slti t rd ra imm) s = .next (s.computes t rd v) ∧ v.toNat = if x.toInt < imm.toInt then 1 else 0) ∧
    (∃ v, exec (.sltiu t rd ra imm) s = .next (s.computes t rd v) ∧
      v.toNat = if (x.toNat : Int) < imm.toInt % 2 ^ 32 then 1 else 0) ∧
    (∃ v, exec (.lui t rd up) s = .next (s.computes t rd v) ∧ v.toNat = up.toNat * 1024)
  )

/-- R209, R234: DIV and REM stall the context for 40 tk; their value, 0 and ra for a divisor of 0, -2^31 and 0 for -2^31 over
-1, reaches rd when MULTI_SLOT_DONE ends the stall on the tick that it owes. Commands that complete: DIV, MULTI_SLOT_DONE, REM.
-/
def Obligations.FacetDivides : Prop :=
  (∀ (s : State) (t : CtxNo) (rd ra rb : RegNo), s.canIssue t = true →
    let x := s.greg t ra
    let y := s.greg t rb
    (∃ v, exec (.div t rd ra rb) s = .next (((s.goesTo t (s.pcOf t + 4)).stallOn t (.multi rd v)).owe 39 (.multiSlotDone t)) ∧
      v.toInt = if y = 0 then 0 else if x = 0x80000000 ∧ y = 0xFFFFFFFF then -2 ^ 31 else x.toInt.tdiv y.toInt) ∧
    (∃ v, exec (.rem t rd ra rb) s = .next (((s.goesTo t (s.pcOf t + 4)).stallOn t (.multi rd v)).owe 39 (.multiSlotDone t)) ∧
      v.toInt = if y = 0 then x.toInt else x.toInt.tmod y.toInt)) ∧
  (∀ (s : State) (t : CtxNo) (rd : RegNo) (v : Word), s.clocked = true → s.isDue (.multiSlotDone t) = true →
    s.facet.ctx[t].stall = .multi rd v → Completes (.multiSlotDone t) s (fun u => u.facet.ctx[t] = { s.facet.ctx[t].put rd v with st := .run, stall := .none, wokeAt := some s.tick } ∧
      ∀ k, k ≠ t → u.facet.ctx[k] = s.facet.ctx[k]))

/-- R234: A branch goes to PC + 4 x OFF18 where its comparison holds and to the next word where it does not; JAL and JALR put
the next word's address into rd and go to PC + 4 x IMM22 and to ra + IMM18 with bits [1:0] cleared. Commands that complete: BEQ,
BNE, BLT, BGE, BLTU, BGEU, JAL, JALR. -/
def Obligations.FacetBranchesAndJumps : Prop :=
  ∀ (s : State) (t : CtxNo) (rd ra rb : RegNo) (off : BitVec 18) (far : BitVec 22), s.canIssue t = true →
    let x := s.greg t ra
    let y := s.greg t rb
    let pc := s.pcOf t
    let go (p : Prop) [Decidable p] : Word := if p then BitVec.ofInt 32 (pc.toInt + 4 * off.toInt) else pc + 4
    exec (.beq t ra rb off) s = .next (s.goesTo t (go (x = y))) ∧
    exec (.bne t ra rb off) s = .next (s.goesTo t (go (x ≠ y))) ∧
    exec (.blt t ra rb off) s = .next (s.goesTo t (go (x.toInt < y.toInt))) ∧
    exec (.bge t ra rb off) s = .next (s.goesTo t (go (y.toInt ≤ x.toInt))) ∧
    exec (.bltu t ra rb off) s = .next (s.goesTo t (go (x.toNat < y.toNat))) ∧
    exec (.bgeu t ra rb off) s = .next (s.goesTo t (go (y.toNat ≤ x.toNat))) ∧
    exec (.jal t rd far) s = .next ((s.computes t rd (pc + 4)).modCtx t (fun c =>
      { c with pc := BitVec.ofInt 32 (pc.toInt + 4 * far.toInt) })) ∧
    exec (.jalr t rd ra off) s = .next ((s.computes t rd (pc + 4)).modCtx t (fun c =>
      { c with pc := BitVec.ofInt 32 (x.toInt + off.toInt) &&& 0xFFFFFFFC }))

/-- R210, R218, R234: A load of SRAM that the context may read, aligned to its size, puts the bytes at its address into rd,
sign- or zero-extended, and does nothing else but take the bank; where the link takes the bank on the tick that the access owes,
it comes one tick later. That the byte at the lowest address is the most significant is the model's choice (log entry 9). A
store to SRAM that the context may write, aligned to its size, puts the low bytes of rb at its address (the most significant
first, log entry 9); the instruction takes the bank, every other byte of SRAM keeps its value, and nothing else changes. The
ticks at which a load and a store act are the model's reading (log entry 33). Commands that complete: LDW, LDH, LDHU, LDB, LDBU,
STW, STH, STB. -/
def Obligations.FacetSramAccess : Prop :=
  (
  ∀ (s : State) (t : CtxNo) (rd ra : RegNo) (imm : BitVec 18),
    let a := s.greg t ra + sext18 imm
    let key := s.keyAt a
    let b (k : Nat) : Byte := s.sram (a.toNat + k)
    let gives (c : Instr) (P : Word → Prop) : Prop :=
      s.mayAccess t c key = true → ∃ v, exec c s = .next ((s.accessed t c key).setReg t rd v) ∧ P v
    s.readsSram t a →
    (a.toNat % 4 = 0 → gives (.ldw t rd ra imm) (fun v =>
      v.toNat = (((b 0).toNat * 256 + (b 1).toNat) * 256 + (b 2).toNat) * 256 + (b 3).toNat)) ∧
    (a.toNat % 2 = 0 → gives (.ldh t rd ra imm) (fun v => v.toInt = (b 0).toInt * 256 + (b 1).toNat)) ∧
    (a.toNat % 2 = 0 → gives (.ldhu t rd ra imm) (fun v => v.toNat = (b 0).toNat * 256 + (b 1).toNat)) ∧
    gives (.ldb t rd ra imm) (fun v => v.toInt = (b 0).toInt) ∧
    gives (.ldbu t rd ra imm) (fun v => v.toNat = (b 0).toNat) ∧
    ∀ c ∈ [Instr.ldw t rd ra imm, .ldh t rd ra imm, .ldhu t rd ra imm, .ldb t rd ra imm, .ldbu t rd ra imm],
      s.clocked = true → s.isDue c = true → s.facet.ctx[t].flight = .issued → s.linkMet key = true →
      exec c s = .next (((s.settle c).modCtx t (fun x => { x with flight := .late })).owe 1 c)
  ) ∧ (
  ∀ (s : State) (t : CtxNo) (ra rb : RegNo) (off : BitVec 18),
    let a := s.greg t ra + sext18 off
    let key := s.keyAt a
    let v := s.greg t rb
    s.writesSram t a → Memory.wf s.mem = true →
    let stores (c : Instr) (k : Nat) : Prop :=
      s.mayAccess t c key = true → Completes c s (fun u =>
        (∀ b, u.sram b = if a.toNat ≤ b ∧ b < a.toNat + k then BitVec.ofNat 8 (v.toNat / 256 ^ (k - 1 - (b - a.toNat))) else s.sram b) ∧
        u = { s.accessed t c key with mem := u.mem })
    (a.toNat % 4 = 0 → stores (.stw t ra rb off) 4) ∧
    (a.toNat % 2 = 0 → stores (.sth t ra rb off) 2) ∧
    stores (.stb t ra rb off) 1
  )

/-- R218, R219: A misaligned load or store faults the context with cause ALIGN, an access to another context's slice outside the
boot ROM with SLICE, an address that no region has with ADDRESS, a store to the shared area without its bit of GUARD.SHAREWR
with PRIV, and a store to the NVM window or the boot ROM with TYPE. -/
def Obligations.FacetAccessExceptions : Prop :=
  ∀ (s : State) (t : CtxNo) (rd ra rb : RegNo) (imm : BitVec 18),
    let a := s.greg t ra + sext18 imm
    let faults (c : Instr) (cause : BitVec 3) : Prop := s.mayAccess t c (s.keyAt a) = true → Excepts c s t cause
    let words : List Instr := [.ldw t rd ra imm, .stw t ra rb imm]
    let halves : List Instr := [.ldh t rd ra imm, .ldhu t rd ra imm, .sth t ra rb imm]
    let bytes : List Instr := [.ldb t rd ra imm, .ldbu t rd ra imm, .stb t ra rb imm]
    let aligned : List Instr :=
      (if a.toNat % 4 = 0 then words else []) ++ (if a.toNat % 2 = 0 then halves else []) ++ bytes
    (a.toNat % 4 ≠ 0 → ∀ c ∈ words, faults c 3) ∧
    (a.toNat % 2 ≠ 0 → ∀ c ∈ halves, faults c 3) ∧
    (∀ u, regionOf s.member a.toNat = .slice u → u ≠ t → s.runsInSram t → ∀ c ∈ aligned, faults c 4) ∧
    (regionOf s.member a.toNat = .none → ∀ c ∈ aligned, faults c 5) ∧
    (regionOf s.member a.toNat = .shared → (s.cfgAt 0x4004).getLsbD t.val = false →
      ∀ c ∈ aligned, c ∈ [Instr.stw t ra rb imm, .sth t ra rb imm, .stb t ra rb imm] → faults c 6) ∧
    (regionOf s.member a.toNat = .nvm ∨ regionOf s.member a.toNat = .rom →
      ∀ c ∈ aligned, c ∈ [Instr.stw t ra rb imm, .sth t ra rb imm, .stb t ra rb imm] → faults c 7)

/-- R229, R230, R231: A load from island SRAM of a RUNNING island stalls the context and queues a RADDR cell; a store to it
queues WADDR and WDATA and OUTC queues an output command, and the context goes on. With the island not RUNNING the load gives 0
with IERR, the store sets PWERR and is counted for FENCE, and OUTC gives 1. Commands that complete: LDW, STW, OUTC. -/
def Obligations.FacetIslandAccesses : Prop :=
  ∀ (s : State) (t : CtxNo) (rd ra rb : RegNo) (imm : BitVec 18) (n : IslandNo), s.canIssue t = true →
    let a := s.greg t ra + sext18 imm
    let cell : Word := BitVec.ofNat 32 (2 ^ 31 + a.toNat % 0x4000)
    let queued (u : State) (d : DownData) : Prop := ∃ c ∈ u.isl[n].down, c.data = d ∧ c.req = .thread t ∧ c.sent = false
    (regionOf s.member a.toNat = .islMem n → a.toNat % 4 = 0 → s.running n = true → s.queueFull n = false →
      Completes (.ldw t rd ra imm) s (fun u =>
        u.facet.ctx[t].st = .stall ∧ u.facet.ctx[t].stall = .load rd .word n a none false ∧ u.pcOf t = s.pcOf t + 4 ∧
        queued u (.raddr cell) ∧ u.mem = s.mem) ∧
      Completes (.stw t ra rb imm) s (fun u =>
        u.facet = (s.goesTo t (s.pcOf t + 4)).facet ∧ queued u (.waddr cell) ∧ queued u (.wdata (s.greg t rb)) ∧ u.mem = s.mem)) ∧
    (regionOf s.member a.toNat = .islMem n → a.toNat % 4 = 0 → s.running n = false →
      Completes (.ldw t rd ra imm) s (fun u =>
        u.greg t rd = 0 ∧ u.facet.ctx[t].ierr = true ∧ u.facet.ctx[t].st = .run ∧ u.pcOf t = s.pcOf t + 4 ∧ u.isl = s.isl) ∧
      Completes (.stw t ra rb imm) s (fun u =>
        u.facet.ctx[t].pwerr = true ∧ u.facet.ctx[t].fails = min 255 (s.facet.ctx[t].fails + 1) ∧ u.facet.ctx[t].st = .run ∧
        u.pcOf t = s.pcOf t + 4 ∧ u.isl = s.isl)) ∧
    (n.val = imm.toNat % 16 → s.takesOut n = true → s.queueFull n = false →
      Completes (.outc t rd ra imm) s (fun u =>
        u.facet = (s.computes t rd 0).facet ∧ queued u (.cmd (.output (s.greg t ra))) ∧ u.mem = s.mem)) ∧
    (n.val = imm.toNat % 16 → s.takesOut n = false → exec (.outc t rd ra imm) s = .next (s.computes t rd 1))

/-- R216, R217, R234, R235: FORK starts the context that CTX names, or with CTX = 8 the lowest free one, at ra with g1 = rb, g2
its number and its other registers 0; its first slot is s + 8 + ((child - parent) mod 8), and rd takes its number. A failure
puts 2^31 + its reason into rd, 1 POOL_EMPTY, 2 BUSY, 3 BADPC, and starts nothing; CTX 9-15 is illegal. LAUNCH, a write of the
host link alone, starts a context at LAUNCH_PC with LAUNCH_ARG in its first slot from s + 2 on and says so in LSTAT, or records
the reason there, 1 POOL_EMPTY, 2 BUSY or 3 BADPC, and starts nothing; codes 9-15 act as 8. CHILD_START lets a started context
issue once the tick of its first slot has come. Commands that complete: FORK, CHILD_START, LAUNCH. -/
def Obligations.FacetThreadsStart : Prop :=
  (
  ∀ (s : State) (t : CtxNo) (rd ra rb : RegNo) (fn : BitVec 14), s.canIssue t = true →
    let pc := s.greg t ra
    let row : Instr := .fork t rd ra rb fn
    (∀ k : CtxNo, fn.toNat % 16 = k.val ∨ (fn.toNat % 16 = 8 ∧ ∀ j < k, s.ctxFree j = false) →
      s.ctxFree k = true → s.fetchable k pc = true →
      Completes row s (fun u =>
        u.facet.ctx[k].st = .run ∧ u.pcOf k = pc ∧ u.facet.ctx[k].starting = true ∧
        (∀ r, u.greg k r = if r = 1 then s.greg t rb else if r = 2 then BitVec.ofNat 32 k.val else 0) ∧
        (s.tick + BitVec.ofNat 64 (8 + (k.val + 8 - t.val) % 8), .childStart k) ∈ u.due ∧
        u.facet.ctx[t] = (s.computes t rd (BitVec.ofNat 32 k.val)).facet.ctx[t] ∧
        (∀ j, j ≠ t → j ≠ k → u.facet.ctx[j] = s.facet.ctx[j]) ∧ u.mem = s.mem)) ∧
    (fn.toNat % 16 = 8 → s.fetchableAny pc = true → (∀ j, s.ctxFree j = false) → exec row s = .next (s.computes t rd 0x80000001)) ∧
    (∀ k : CtxNo, fn.toNat % 16 = k.val → s.fetchable k pc = true → s.ctxFree k = false →
      exec row s = .next (s.computes t rd 0x80000002)) ∧
    (fn.toNat % 16 = 8 → s.fetchableAny pc = false → exec row s = .next (s.computes t rd 0x80000003)) ∧
    (∀ k : CtxNo, fn.toNat % 16 = k.val → s.fetchable k pc = false → exec row s = .next (s.computes t rd 0x80000003)) ∧
    (8 < fn.toNat % 16 → Excepts row s t 1)
  ) ∧ (
  (∀ (s : State) (ctx : BitVec 4), s.clocked = true → ctx.toNat ≤ 8 →
    let pc := s.facet.launchPc
    (∀ k : CtxNo, ctx.toNat = k.val ∨ (ctx.toNat = 8 ∧ ∀ j < k, s.ctxFree j = false) → s.ctxFree k = true → s.fetchable k pc = true →
      Completes (.launch .link ctx) s (fun u =>
        u.facet.ctx[k].st = .run ∧ u.pcOf k = pc ∧ u.greg k 1 = s.facet.launchArg ∧ u.greg k 2 = BitVec.ofNat 32 k.val ∧
        u.facet.ctx[k].startAt = slotFrom (s.tick + 2) k ∧ (slotFrom (s.tick + 2) k, .childStart k) ∈ u.due ∧
        u.facet.lfail = false ∧ u.facet.lctx.toNat = k.val ∧ (∀ j, j ≠ k → u.facet.ctx[j] = s.facet.ctx[j]))) ∧
    (∀ k : CtxNo, ctx.toNat = k.val → s.fetchable k pc = true → s.ctxFree k = false →
      Completes (.launch .link ctx) s (fun u => u.facet.lfail = true ∧ u.facet.lreason = 2 ∧ u.facet.ctx = s.facet.ctx)) ∧
    (ctx.toNat = 8 → s.fetchableAny pc = true → (∀ j, s.ctxFree j = false) →
      Completes (.launch .link ctx) s (fun u => u.facet.lfail = true ∧ u.facet.lreason = 1 ∧ u.facet.ctx = s.facet.ctx)) ∧
    (∀ k : CtxNo, ctx.toNat = k.val → s.fetchable k pc = false →
      Completes (.launch .link ctx) s (fun u => u.facet.lfail = true ∧ u.facet.lreason = 3 ∧ u.facet.ctx = s.facet.ctx))) ∧
  (∀ (s : State) (ctx : BitVec 4), s.clocked = true → 8 < ctx.toNat →
    ∃ u v, exec (.launch .link ctx) s = .next u ∧ exec (.launch .link 8) s = .next v ∧ u.facet = v.facet) ∧
  (∀ (s : State) (m : Master) (ctx : BitVec 4), s.clocked = true → m ≠ .link →
    Completes (.launch m ctx) s (fun u => u.facet = s.facet)) ∧
  (∀ (s : State) (t : CtxNo), s.clocked = true → s.facet.ctx[t].startAt ≤ s.tick → Completes (.childStart t) s (fun u =>
    u.facet.ctx[t] = { s.facet.ctx[t] with starting := false } ∧ ∀ j, j ≠ t → u.facet.ctx[j] = s.facet.ctx[j]))
  )

/-- R213, R215, R217, R227: JOIN ends its context with ra as exit value, a kill every context of its mask that is not FREE with
0xFFFFFFFF and KILLED, one whose JOIN has issued with it; the locks that the context owned are freed and poisoned, no other lock
and no other context changes, and the thread-end source pulses, 8 tk after a JOIN and one after a kill, after which the context
is FREE. Commands that complete: JOIN, KILL. -/
def Obligations.FacetContextsEnd : Prop :=
  (∀ (s : State) (t : CtxNo) (ra : RegNo), s.canIssue t = true →
    Completes (.join t ra) s (fun u =>
      u.facet.ctx[t].st = .free ∧ u.facet.ctx[t].exit = s.greg t ra ∧ u.facet.ctx[t].killed = false ∧ u.facet.ctx[t].wasSt = .run ∧
      u.facet.ctx[t].freeAt = s.tick + 8 ∧
      (∀ k : Fin 64, u.facet.locks[k] =
        if s.facet.locks[k].owner = some t then { owner := none, poison := true } else s.facet.locks[k]) ∧
      (∀ l ∈ linesOf s (0x0F0 + t.val), (s.tick + 8, .eventPulse l) ∈ u.due) ∧
      (∀ j, j ≠ t → u.facet.ctx[j] = s.facet.ctx[j]) ∧ u.mem = s.mem)) ∧
  (∀ (s : State) (m : Master) (mask : BitVec 8), s.clocked = true → Completes (.kill m mask) s (fun u =>
    (∀ t : CtxNo, mask.getLsbD t.val = true → s.facet.ctx[t].st ≠ .free →
      u.facet.ctx[t].st = .free ∧ u.facet.ctx[t].exit = 0xFFFFFFFF ∧ u.facet.ctx[t].killed = true ∧
      u.facet.ctx[t].wasSt = s.facet.ctx[t].st ∧ u.facet.ctx[t].freeAt = s.tick + 1 ∧
      ∀ l ∈ linesOf s (0x0F0 + t.val), (s.tick + 1, .eventPulse l) ∈ u.due) ∧
    (∀ t : CtxNo, mask.getLsbD t.val = true → s.facet.ctx[t].st = .free → s.tick + 1 < s.facet.ctx[t].freeAt →
      u.facet.ctx[t] = { s.facet.ctx[t] with exit := 0xFFFFFFFF, killed := true, freeAt := s.tick + 1 } ∧
      ∀ l ∈ linesOf s (0x0F0 + t.val), (s.tick + 1, .eventPulse l) ∈ u.due) ∧
    (∀ k : Fin 64, u.facet.locks[k] =
      if contexts.any (fun t => mask.getLsbD t.val && decide (s.facet.ctx[t].st ≠ .free) && decide (s.facet.locks[k].owner = some t)) then
        { owner := none, poison := true } else s.facet.locks[k]) ∧
    (∀ t : CtxNo, mask.getLsbD t.val = false ∨ (s.facet.ctx[t].st = .free ∧ s.facet.ctx[t].freeAt ≤ s.tick + 1) →
      u.facet.ctx[t] = s.facet.ctx[t]) ∧ u.mem = s.mem))

/-- R221, R222: WATCH sets or disarms the watched line; WFE consumes EL with the tick of its pulse, or parks the context, with a
time-out if ra is not 0, and is illegal without both; WFE_TIMEOUT, on the tick that it owes, wakes a parked context with bit 31
set beside tick bits [30:0]. Commands that complete: WATCH, WFE, WFE_TIMEOUT. -/
def Obligations.FacetWatchAndWait : Prop :=
  (∀ (s : State) (t : CtxNo) (imm : BitVec 18), s.canIssue t = true →
    exec (.watch t imm) s = .next ((s.goesTo t (s.pcOf t + 4)).modCtx t (fun c =>
      if imm.getLsbD 8 then { c with warm := false } else { c with w := imm.extractLsb' 0 8, warm := true, el := false, watchAt := some s.tick }))) ∧
  (∀ (s : State) (t : CtxNo) (rd ra : RegNo), s.canIssue t = true →
    let c := s.facet.ctx[t]
    let k := s.greg t ra
    (c.warm = true ∨ k ≠ 0 → c.el = true → ∃ v, v.toNat = c.elTick.toNat % 2 ^ 31 ∧
      exec (.wfe t rd ra) s = .next ((s.computes t rd v).modCtx t (fun c => { c with el := false }))) ∧
    (c.warm = true ∨ k ≠ 0 → c.el = false → Completes (.wfe t rd ra) s (fun u =>
      u.facet.ctx[t] = { c with pc := c.pc + 4, cnt := c.cnt + 1, st := .wait, wrd := rd } ∧
      (k ≠ 0 → (s.tick + BitVec.ofNat 64 k.toNat, .wfeTimeout t) ∈ u.due) ∧ ∀ j, j ≠ t → u.facet.ctx[j] = s.facet.ctx[j])) ∧
    (c.warm = false → k = 0 → Excepts (.wfe t rd ra) s t 1)) ∧
  (∀ (s : State) (t : CtxNo), s.clocked = true → s.isDue (.wfeTimeout t) = true → s.facet.ctx[t].st = .wait →
    Completes (.wfeTimeout t) s (fun u =>
    (s.facet.ctx[t].wrd ≠ 0 → (u.greg t s.facet.ctx[t].wrd).toNat = 2 ^ 31 + s.tick.toNat % 2 ^ 31) ∧
    u.facet.ctx[t].st = .run ∧ u.facet.ctx[t].el = false ∧ u.pcOf t = s.pcOf t ∧ ∀ j, j ≠ t → u.facet.ctx[j] = s.facet.ctx[j]))

/-- R224, R225, R227, R228, R229, R232, R234: LOCK takes a free lock, 0 ACQUIRED or 2 POISONED, and leaves a lock that is taken,
3 OWNED or 1 BUSY with the owner in [7:4]; UNLK frees an owned lock and CLRP ends its poison, 1 NOT_OWNER otherwise; the host
link frees and poisons a lock, or ends the poison of a free one. RDTK 0 reads the low word of the tick counter and keeps the
high one for RDTK 1, IMGR an image word, other immediates being illegal; FENCE gives the failures since the last one, at once
or, while an island write is outstanding, at FENCE_COMPLETE; an island load's answer reaches its register and the context runs
again. Commands that complete: LOCK, UNLK, CLRP, LOCK_FORCE_RELEASE, LOCK_CLEAR_POISON, RDTK, IMGR, FENCE, FENCE_COMPLETE,
ISLAND_LOAD_RETURN. -/
def Obligations.FacetLocksAndFences : Prop :=
  (
  (∀ (s : State) (t : CtxNo) (rd : RegNo) (imm : BitVec 18) (k : Fin 64), k.val = imm.toNat % 64 →
    let l := s.facet.locks[k]
    let gives (c : Instr) (f : Lock → Lock) (v : Word) : Prop :=
      s.mayAccess t c none = true → exec c s = .next (((s.accessed t c none).modLock k f).setReg t rd v)
    (l.owner = none → gives (.lock t rd imm) (fun l => { l with owner := some t }) (if l.poison then 2 else 0)) ∧
    (l.owner = some t → gives (.lock t rd imm) id 3) ∧
    (∀ o : CtxNo, l.owner = some o → o ≠ t → gives (.lock t rd imm) id (BitVec.ofNat 32 (16 * o.val + 1))) ∧
    (l.owner = some t → gives (.unlk t rd imm) (fun l => { l with owner := none }) 0) ∧
    (l.owner = some t → gives (.clrp t rd imm) (fun l => { l with poison := false }) 0) ∧
    (l.owner ≠ some t → gives (.unlk t rd imm) id 1 ∧ gives (.clrp t rd imm) id 1)) ∧
  (∀ (s : State) (k : Fin 64), s.clocked = true →
    Completes (.lockForceRelease .link k) s (fun u =>
      u.facet.locks = s.facet.locks.set k { owner := none, poison := true } ∧ u.facet.ctx = s.facet.ctx) ∧
    (s.facet.locks[k].owner = none → exec (.lockClearPoison .link k) s = .next (s.modLock k (fun l => { l with poison := false }))) ∧
    (s.facet.locks[k].owner ≠ none → exec (.lockClearPoison .link k) s = .next s))
  ) ∧ (
  (∀ (s : State) (t : CtxNo) (rd : RegNo) (imm : BitVec 18), s.canIssue t = true →
    (imm = 0 → Completes (.rdtk t rd imm) s (fun u =>
      (rd ≠ 0 → (u.greg t rd).toNat = s.tick.toNat % 2 ^ 32) ∧ u.facet.ctx[t].snap.toNat = s.tick.toNat / 2 ^ 32 ∧
      u.pcOf t = s.pcOf t + 4 ∧ (∀ r, r ≠ rd → u.greg t r = s.greg t r) ∧ ∀ j, j ≠ t → u.facet.ctx[j] = s.facet.ctx[j])) ∧
    (imm = 1 → exec (.rdtk t rd imm) s = .next (s.computes t rd s.facet.ctx[t].snap)) ∧
    (1 < imm.toNat → Excepts (.rdtk t rd imm) s t 1)) ∧
  (∀ (s : State) (t : CtxNo) (rd : RegNo) (imm : BitVec 18), s.mayAccess t (.imgr t rd imm) none = true →
    (imm.toNat < 17 →
      exec (.imgr t rd imm) s = .next ((s.accessed t (.imgr t rd imm) none).setReg t rd (s.imgWord imm.toNat))) ∧
    (17 ≤ imm.toNat → Excepts (.imgr t rd imm) s t 1)) ∧
  (∀ (s : State) (t : CtxNo) (rd : RegNo), s.canIssue t = true →
    (s.outstanding t = false → exec (.fence t rd) s =
      .next ((s.computes t rd (BitVec.ofNat 32 s.facet.ctx[t].fails)).modCtx t (fun c =>
        { c with st := .run, stall := .none, fails := 0, wokeAt := some s.tick }))) ∧
    (s.outstanding t = true → exec (.fence t rd) s = .next ((s.goesTo t (s.pcOf t + 4)).stallOn t (.fence rd)))) ∧
  (∀ (s : State) (t : CtxNo) (rd : RegNo), s.clocked = true → s.facet.ctx[t].stall = .fence rd → s.outstanding t = false →
    Completes (.fenceComplete t) s (fun u =>
      u.facet.ctx[t] = { s.facet.ctx[t].put rd (BitVec.ofNat 32 s.facet.ctx[t].fails) with
        st := .run, stall := .none, fails := 0, wokeAt := some s.tick } ∧
      u.isl = s.isl ∧ u.mem = s.mem)) ∧
  (∀ (s : State) (t : CtxNo) (rd : RegNo) (k : LoadKind) (n : IslandNo) (a v : Word) (failed : Bool), s.clocked = true →
    s.facet.ctx[t].stall = .load rd k n a (some v) failed → Completes (.islandLoadReturn t) s (fun u =>
      u.facet.ctx[t] = { s.facet.ctx[t].put rd (if failed then 0 else k.narrow a v) with
        st := .run, stall := .none, ierr := s.facet.ctx[t].ierr || failed, wokeAt := some s.tick } ∧ u.isl = s.isl ∧ u.mem = s.mem))
  )

/-- R211, R229, R230, R231, R253, R256, R295: A place in an island's queue goes to the lowest context whose load waits for one:
its RADDR is queued, and it waits for the answer. A store or OUTC that waits completes in its context's own slot, with OUTC's rd
0, and the context runs on. A lent slot is counted and goes to the fault-log writer while a record waits: word k of the record
reaches SRAM at RING_BASE + 32 x INDEX + 4k, or at that place behind the record's first word, no other byte changes, and after
word 7 the record is done. Else it goes to the list walker for the lowest channel in FETCH that the host does not serve, which
reads one word of its descriptor, the fourth by DESCRIPTOR_FETCHED; and else to the scaler for a channel's word, which becomes
sat32(((x * SGAIN) >> SHIFT) + SOFS). The log writer and the walker write and read nothing on a tick on which a thread or a link
word takes their bank (R210). Without work for an engine nothing happens. That the lowest channel comes first is the model's
reading (log entry 49). Commands that complete: ISLAND_QUEUE_FREE, HARVEST_SLOT. -/
def Obligations.LentSlotsAndQueuePlaces : Prop :=
  (
  ∀ (s : State) (n : IslandNo) (t : CtxNo), s.running n = true → s.queueFull n = false →
    let c := s.facet.ctx[t]
    (∀ rd k a, c.stall = .loadq rd k n a → s.clocked = true → (∀ j < t, s.facet.ctx[j].stall = .none) →
      Completes (.islandQueueFree n) s (fun u =>
        u.facet.ctx[t].st = .stall ∧ u.facet.ctx[t].stall = .load rd k n a none false ∧
        ∃ x ∈ u.isl[n].down, x.req = .thread t ∧ x.sent = false ∧ ∃ w, x.data = .raddr w)) ∧
    (c.left = [] →
      let u := s.posts t
      (∀ a v lanes, c.stall = .store n a v lanes → regionOf s.member a.toNat = .islMem n →
        u.facet = (s.modCtx t (fun c => { c with st := .run, stall := .none })).facet ∧ Queues u n (.thread t) (.wdata v)) ∧
      (∀ rd v, c.stall = .outc rd n v → s.tan.role ≠ .standby →
        u.facet = (s.modCtx t (fun c => { c.put rd 0 with st := .run, stall := .none })).facet ∧
        Queues u n (.thread t) (.cmd (.output v))))
  ) ∧ (
  let counted (s u : State) : Prop := u.facet = { s.facet with hslots := u.facet.hslots } ∧
    u.facet.hslots.toNat = min (s.facet.hslots.toNat + 1) (2 ^ 32 - 1)
  (∀ (s : State) (r : FaultRec) (l : List FaultRec), s.clocked = true → s.fault.logq = r :: l →
    let k := s.fault.logWord
    let base := if k = 0 then (s.cfgAt 0x6038).toNat + 32 * s.fault.index.toNat else s.fault.logAddr
    let ws : List Word :=
      [BitVec.ofNat 32 (r.seq.toNat * 2 ^ 16 + r.src.toNat * 2 ^ 8 + r.mid.toNat),
       BitVec.ofNat 32 (r.typ.toNat * 2 ^ 28 + r.cls.toNat * 2 ^ 26 + r.dec.toNat * 2 ^ 24 + (if r.inj then 2 ^ 23 else 0) +
         (if r.capt then 2 ^ 22 else 0) + r.kind.toNat),
       r.addr, BitVec.ofNat 32 (r.came.toNat % 2 ^ 32), BitVec.ofNat 32 (r.came.toNat / 2 ^ 32), r.detail, 0]
    let w := (ws ++ [crc32c ws]).getD k 0
    (s.bankTaken (base + 4 * k) = false → k < 8 → Memory.wf s.mem = true → Completes .harvestSlot s (fun u =>
      counted s u ∧
      (∀ a, u.sram a = if base + 4 * k ≤ a ∧ a < base + 4 * k + 4 then
        BitVec.ofNat 8 (w.toNat / 256 ^ (3 - (a - (base + 4 * k)))) else s.sram a) ∧
      (k < 7 → u.fault.logWord = k + 1 ∧ u.fault.logAddr = base ∧ u.fault.logq = r :: l ∧ u.fault.index = s.fault.index) ∧
      (k = 7 → u.fault.logWord = 0 ∧ u.fault.logq = l) ∧ u.isl = s.isl ∧ u.dma = s.dma)) ∧
    (s.bankTaken (base + 4 * k) = true → Completes .harvestSlot s (fun u => counted s u ∧ u = { s with facet := u.facet }))) ∧
  (∀ (s : State) (c : ChNo), s.clocked = true → s.fault.logq = [] → s.walks c = true → (∀ j < c, s.walks j = false) →
    let taken := s.bankTaken (s.dma[c].cur.toNat + 4 * s.dma[c].fetched)
    (taken = false → s.dma[c].fetched < 3 → s.mayFetch c s.dma[c].cur.toNat = true → Completes .harvestSlot s (fun u =>
      counted s u ∧ u.dma[c].fetched = s.dma[c].fetched + 1 ∧
      u.dma[c].st = .fetch ∧ u.mem = s.mem ∧ ∀ j, j ≠ c → u.dma[j] = s.dma[j])) ∧
    (taken = false → s.dma[c].fetched = 3 → s.mayFetch c s.dma[c].cur.toNat = true → Completes .harvestSlot s (fun u =>
      counted s u ∧ (s.tick, .descriptorFetched c) ∈ u.due ∧ u.dma = s.dma ∧ u.mem = s.mem)) ∧
    (taken = true → Completes .harvestSlot s (fun u => counted s u ∧ u = { s with facet := u.facet }))) ∧
  (∀ (s : State) (c : ChNo) (w : Word), s.clocked = true → s.fault.logq = [] → (∀ j, s.walks j = false) →
    (∀ j < c, s.dma[j].unscaled = false) → s.dma[c].st = .move → s.dma[c].lenf.getLsbD 28 = true → s.dma[c].scaled = false →
    s.dma[c].buf = some w →
    let cfg := s.chWord c 0x20
    let x : Int := if fld cfg 20 2 = 1 then (w.extractLsb' 0 18).toInt else if fld cfg 20 2 = 2 then (w.extractLsb' 0 16).toInt
      else w.toInt
    let y : Int := x * (s.chWord c 0x28).toInt / 2 ^ (fld cfg 24 5) + (s.chWord c 0x2C).toInt
    Completes .harvestSlot s (fun u => counted s u ∧ (∃ v : Word, v.toInt = max (-2 ^ 31) (min (2 ^ 31 - 1) y) ∧
      u.dma[c] = { s.dma[c] with buf := some v, scaled := true }) ∧ u.mem = s.mem ∧ ∀ j, j ≠ c → u.dma[j] = s.dma[j])) ∧
  (∀ s : State, s.harvest = none → exec .harvestSlot s = .next s)
  )

/-- R221, R222, R236, R238, R239, R240, R241, R242, R243, R244, R247, R254: A written bit of SW pulses every line of its source
on this tick. A line whose divider has not yet counted D pulses counts one; on the next it passes the pulse to every consumer: a
parked context that watches the line wakes with the tick, another takes EL, or EOVR if EL stands; a LINE entry of the reflex
table fires on this tick, and an active one that this line releases is released; a WATCH timer with this start line counts PER
anew, a ONESHOT timer without a count starts one; a channel that waits for the line moves, or keeps the pulse, or counts it; and
the trigger map notes INJECT and RTRIG for the islands it names. On the next tick the map queues those commands, or counts DROP
where the island does not run or its queue is full. A WATCH of this tick does not see the pulse, and a line carries one pulse a
tick. A timer pulses its source on the tick on which its count ends, and on no other; a FREE timer's next pulse is the first
tick after this one whose count is PHASE mod PER. Commands that complete: SW_WRITE, EVENT_PULSE, TIMER_PULSE. -/
def Obligations.EventPulsesAndTimers : Prop :=
  (
  (∀ (s : State) (m : Master) (w : Word), s.clocked = true → Completes (.swWrite m w) s (fun u =>
    (∀ k < 32, w.getLsbD k = true → ∀ l ∈ linesOf s (0x100 + k), (s.tick, .eventPulse l) ∈ u.due) ∧ u = { s with due := u.due })) ∧
  (∀ (s : State) (l : BitVec 8), s.clocked = true → fld (s.lineWord l) 0 9 ≠ 0 → l ∉ s.evt.pulsed →
    let k : Fin 256 := l.toFin
    let e := s.lineStamp l
    let d := fld (s.lineWord l) 24 8
    (s.evt.div[k].toNat < d → Completes (.eventPulse l) s (fun u =>
      u.evt.div[k].toNat = s.evt.div[k].toNat + 1 ∧ u.evt.tmr = s.evt.tmr ∧ u.evt.trigs = s.evt.trigs ∧ u.facet = s.facet ∧
      u.dma = s.dma ∧ u.isl = s.isl ∧ ∀ e ∈ u.due, e ∈ s.due)) ∧
    (d ≤ s.evt.div[k].toNat → Completes (.eventPulse l) s (fun u =>
      u.evt.div[k] = 0 ∧
      (∀ t : CtxNo, s.facet.ctx[t].warm = true → s.facet.ctx[t].w = l → s.facet.ctx[t].watchAt ≠ some s.tick →
        (s.facet.ctx[t].st = .wait → u.facet.ctx[t].st = .run ∧ u.facet.ctx[t].el = false ∧
          (s.facet.ctx[t].wrd ≠ 0 → (u.greg t s.facet.ctx[t].wrd).toNat = e.toNat % 2 ^ 31)) ∧
        (s.facet.ctx[t].st ≠ .wait → s.facet.ctx[t].el = false → u.facet.ctx[t] = { s.facet.ctx[t] with el := true, elTick := e }) ∧
        (s.facet.ctx[t].st ≠ .wait → s.facet.ctx[t].el = true → u.facet.ctx[t] = { s.facet.ctx[t] with eovr := true })) ∧
      (∀ t : CtxNo, s.facet.ctx[t].warm = false ∨ s.facet.ctx[t].w ≠ l ∨ s.facet.ctx[t].watchAt = some s.tick →
        u.facet.ctx[t] = s.facet.ctx[t]) ∧
      (∀ c : ChNo, (s.cfgAt (0x3020 + 0x40 * c.val)).getLsbD 0 = true → (s.cfgAt (0x3020 + 0x40 * c.val)).extractLsb' 8 8 = l →
        (s.dma[c].st = .wait → u.dma[c] = { s.dma[c] with st := .move, goAt := s.tick + 1 }) ∧
        (s.dma[c].st ≠ .wait → s.dma[c].ppend = false → u.dma[c] = { s.dma[c] with ppend := true }) ∧
        (s.dma[c].st ≠ .wait → s.dma[c].ppend = true → u.dma[c] = { s.dma[c] with povr := satAdd s.dma[c].povr 1 })) ∧
      (∀ i : Fin 64, s.rfxEn i = true → s.rfxLine i = true → (s.rfxTrig i).extractLsb' 0 8 = l → (s.tick, .reflexFire i) ∈ u.due) ∧
      (∀ i : Fin 64, s.evt.active.getLsbD i = true → s.rfxRel i = 2 → (s.rfxAct i).extractLsb' 0 8 = l →
        (s.tick, .reflexRelease i) ∈ u.due) ∧
      (∀ j : Fin 16,
        let starts : Prop := u.evt.tmr[j] = some (s.tick + BitVec.ofNat 64 (s.tmrPer j)) ∧
          (s.tick + BitVec.ofNat 64 (s.tmrPer j), .timerPulse j) ∈ u.due
        ((s.tmrWord j 0).extractLsb' 8 8 = l → s.tmrMode j = 3 → starts) ∧
        ((s.tmrWord j 0).extractLsb' 8 8 = l → s.tmrMode j = 2 → s.evt.tmr[j] = none → starts) ∧
        ((s.tmrWord j 0).extractLsb' 8 8 ≠ l → u.evt.tmr[j] = s.evt.tmr[j])) ∧
      (∀ n : IslandNo, let w := s.cfgAt (0x2700 + 4 * n.val)
        (w.getLsbD 31 = true → w.extractLsb' 8 8 = l → (n, 3) ∈ u.evt.trigs) ∧
        (w.getLsbD 30 = true → w.extractLsb' 0 8 = l → (n, 2) ∈ u.evt.trigs)) ∧ u.isl = s.isl ∧ u.mem = s.mem))) ∧
  (∀ (s : State) (n : IslandNo) (op : BitVec 4), s.evt.trigs = [(n, op)] →
    (s.running n = true → s.queueFull n = false → Queues s.trigsGo n .ledger (.cmd (.adc op 0)) ∧ s.trigsGo.evt.drop = s.evt.drop) ∧
    (s.running n = false ∨ s.queueFull n = true →
      s.trigsGo.evt.drop[n].toNat = min (s.evt.drop[n].toNat + 1) (2 ^ 16 - 1) ∧ s.trigsGo.isl = s.isl)) ∧
  (∀ (s : State) (l : BitVec 8), fld (s.lineWord l) 0 9 = 0 ∨ l ∈ s.evt.pulsed →
    Completes (.eventPulse l) s (fun u => u = { s with due := u.due }))
  ) ∧ (
  ∀ (s : State) (k : Fin 16), s.clocked = true →
    (s.evt.tmr[k] ≠ some s.tick → Completes (.timerPulse k) s (fun u => u = { s with due := u.due })) ∧
    (s.evt.tmr[k] = some s.tick → s.tmrMode k ≠ 0 → Completes (.timerPulse k) s (fun u =>
      (∀ l ∈ linesOf s (0x0B0 + k.val), (s.tick, .eventPulse l) ∈ u.due) ∧
      (∀ j, j ≠ k → u.evt.tmr[j] = s.evt.tmr[j]) ∧
      (s.tmrMode k = 1 → s.tick.toNat + 2 ^ 33 < 2 ^ 64 → ∃ c : Tick, u.evt.tmr[k] = some c ∧ (c, .timerPulse k) ∈ u.due ∧
        c.toNat % s.tmrPer k = (s.tmrWord k 8).toNat % s.tmrPer k ∧ s.tick.toNat < c.toNat ∧ c.toNat ≤ s.tick.toNat + s.tmrPer k) ∧
      u.facet = s.facet ∧ u.dma = s.dma ∧ u.isl = s.isl ∧ u.mem = s.mem))
  )

/-- R244, R245, R247: An entry whose trigger holds becomes active, its RFX_FIRE source pulses, and 8 tk later the demand of all
active entries enters the lane of every island of its mask; a TAP entry whose condition has gone does not fire. A release ends a
FOLLOW entry whose condition has gone and a LINE entry without a trigger pulse on this tick, no other; a bit written to RFXCLR
ends every entry. Commands that complete: REFLEX_FIRE, REFLEX_RELEASE, RFXCLR. -/
def Obligations.ReflexesFireAndRelease : Prop :=
  (∀ (s : State) (i : Fin 64), s.clocked = true → s.evt.active.getLsbD i = false →
    (s.rfxHolds i = true → Completes (.reflexFire i) s (fun u =>
      (∀ k < 64, u.evt.active.getLsbD k = (decide (k = i.val) || s.evt.active.getLsbD k)) ∧
      (∀ l ∈ linesOf s (0x140 + i.val), (s.tick, .eventPulse l) ∈ u.due) ∧
      (∀ n : IslandNo, (s.rfxAct i).getLsbD (16 + n.val) = true → (s.tick + 8, .rfx n (u.rfxDemand n)) ∈ u.transit) ∧
      u.isl = s.isl ∧ u.facet = s.facet)) ∧
    (s.rfxHolds i = false → Completes (.reflexFire i) s (fun u =>
      u.evt.active = s.evt.active ∧ u.transit = s.transit ∧ u.isl = s.isl ∧ u.facet = s.facet))) ∧
  (∀ (s : State) (i : Fin 64), s.clocked = true → s.evt.active.getLsbD i = true →
    let goes : Prop := (s.rfxRel i = 1 ∧ s.tapCond i = false) ∨ (s.rfxRel i = 2 ∧ s.evt.trig[i] ≠ some s.tick)
    (goes → Completes (.reflexRelease i) s (fun u =>
      (∀ k < 64, u.evt.active.getLsbD k = (decide (k ≠ i.val) && s.evt.active.getLsbD k)) ∧
      (∀ n : IslandNo, (s.rfxAct i).getLsbD (16 + n.val) = true → (s.tick + 8, .rfx n (u.rfxDemand n)) ∈ u.transit) ∧
      u.isl = s.isl ∧ u.facet = s.facet)) ∧
    (¬ goes → Completes (.reflexRelease i) s (fun u => u = { s with due := u.due }))) ∧
  (∀ (s : State) (m : Master) (hi : Bool) (w : Word), s.clocked = true → Completes (.rfxclr m hi w) s (fun u =>
    (∀ k < 64, u.evt.active.getLsbD k =
      (s.evt.active.getLsbD k && !(decide (32 ≤ k) == hi && w.getLsbD (k % 32)))) ∧ u.isl = s.isl ∧ u.facet = s.facet))

/-- R131, R132, R133, R134, R138, R143, R144: A terminal that crosses a threshold of a running input stage changes the raw
state, which CFG.INV inverts, at once; its levels go up to the host side, and the new level qualifies after F itk, F = FILT + 1,
or 1 in host-assisted mode; a change back takes the owed edge away, and the first level of a stage qualifies in the same way.
Without HCK only the latches of the two directions see it, and none while INDET is set. A terminal that comes back into the band
between the thresholds, one that crosses the threshold beyond which it stands already, and one whose stage stands change nothing
else. At the end of the qualifier's count QUAL takes the raw level and RISE or FALL is sent, but the first level only ends
INDET, and a change that latched edges have reported is reported no more; a DI_CNT island counts the edges that CNT_CFG selects,
a rise by bit 0 and a fall by bit 1, 0 standing for 1, and starts again at the compare value with AUTO. Commands that complete:
INPUT_TRANSITION, QUALIFIED_EDGE. -/
def Obligations.InputEdgesQualify : Prop :=
  (
  ∀ (s : State) (n : IslandNo) (lvl : TermLevel),
    let i := s.isl[n]
    let d := i.din
    let raw := i.rawOf lvl
    (i.inputOn = true → lvl ≠ .band → d.indet = false → raw ≠ d.raw →
      (s.pow.hck = true → s.tick.toNat + 16384 < 2 ^ 64 → Completes (.inputTransition n lvl) s (fun u =>
        u.isl[n].din.raw = raw ∧ u.isl[n].din.qual = d.qual ∧
        (s.tick + BitVec.ofNat 64 (12 + s.itk), .up n { raw := raw, qual := d.qual, indet := false }) ∈ u.transit ∧
        (raw ≠ d.qual → (s.tick + BitVec.ofNat 64 (s.itk + 2 * i.filterF), .qualifiedEdge n) ∈ u.due) ∧
        (raw = d.qual → ∀ e ∈ u.due, e.2 ≠ .qualifiedEdge n) ∧ IslandOnly s u n)) ∧
      (s.pow.hck = false → Completes (.inputTransition n lvl) s (fun u =>
        u.isl[n].din.raw = raw ∧ u.isl[n].din.qual = d.qual ∧
        u.isl[n].din.riseSeen = (d.riseSeen || raw) ∧ u.isl[n].din.fallSeen = (d.fallSeen || !raw) ∧
        u.due = s.due ∧ u.transit = s.transit ∧ IslandOnly s u n))) ∧
    (i.inputOn = true → lvl ≠ .band → d.indet = true → (d.crossed = true → raw ≠ d.raw) →
      (s.pow.hck = true → s.tick.toNat + 16384 < 2 ^ 64 → Completes (.inputTransition n lvl) s (fun u =>
        u.isl[n].din.raw = raw ∧ u.isl[n].din.crossed = true ∧ u.isl[n].din.indet = true ∧ u.isl[n].din.qual = d.qual ∧
        (s.tick + BitVec.ofNat 64 (12 + s.itk), .up n { raw := raw, qual := d.qual, indet := true }) ∈ u.transit ∧
        (s.tick + BitVec.ofNat 64 (s.itk + 2 * i.filterF), .qualifiedEdge n) ∈ u.due ∧ IslandOnly s u n)) ∧
      (s.pow.hck = false → Completes (.inputTransition n lvl) s (fun u =>
        u.isl[n].din.raw = raw ∧ u.isl[n].din.crossed = true ∧ u.isl[n].din.riseSeen = d.riseSeen ∧
        u.isl[n].din.fallSeen = d.fallSeen ∧ u.due = s.due ∧ u.transit = s.transit ∧ IslandOnly s u n))) ∧
    (i.inputOn = false ∨ lvl = .band ∨ (d.crossed = true ∧ raw = d.raw) →
      exec (.inputTransition n lvl) s = .next (s.modDin n (fun d => { d with lvl := lvl })))
  ) ∧ (
  ∀ (s : State) (n : IslandNo), s.isl[n].inputOn = true → s.clocked = true → s.isDue (.qualifiedEdge n) = true →
    let d := s.isl[n].din
    let sel := if fld (s.isl[n].reg 0x48) 0 2 = 0 then 1 else fld (s.isl[n].reg 0x48) 0 2
    let silent (u : State) : Prop := u.isl[n].din.count = d.count ∧ (∀ e ∈ u.transit, (∃ src st k, e.2 = .ind n src st k) → e ∈ s.transit)
    (d.indet = true → d.crossed = true → Completes (.qualifiedEdge n) s (fun u =>
      u.isl[n].din.indet = false ∧ u.isl[n].din.qual = d.raw ∧ silent u ∧ IslandOnly s u n)) ∧
    (d.indet = false → d.raw ≠ d.qual → d.reported = true → Completes (.qualifiedEdge n) s (fun u =>
      u.isl[n].din.qual = d.raw ∧ u.isl[n].din.reported = false ∧ silent u ∧ IslandOnly s u n)) ∧
    (d.indet = false → d.raw ≠ d.qual → d.reported = false → Completes (.qualifiedEdge n) s (fun u =>
      u.isl[n].din.qual = d.raw ∧
      (s.tick + BitVec.ofNat 64 (12 + s.itk), .ind n (BitVec.ofNat 9 ((if d.raw then 0x030 else 0x040) + n.val)) none 3) ∈ u.transit ∧
      (s.isl[n].pers = .diCnt → sel.testBit (if d.raw then 0 else 1) = true →
        u.isl[n].din.count =
          if d.count + 1 = s.isl[n].reg 0x4C ∧ (s.isl[n].reg 0x48).getLsbD 2 = true then 0 else d.count + 1) ∧
      (s.isl[n].pers ≠ .diCnt ∨ sel.testBit (if d.raw then 0 else 1) = false → u.isl[n].din.count = d.count) ∧ IslandOnly s u n)) ∧
    ((d.indet = false ∧ d.raw = d.qual) ∨ (d.indet = true ∧ d.crossed = false) →
      Completes (.qualifiedEdge n) s (fun u => u = { s with due := u.due }))
  )

/-- R129, R130, R137, R141, R144, R145, R159, R163: Each supervisor of an input or a supply sets its DIAG or ADIAG bit and
reports its fault. A long hold, a wire break, a low field supply and an engaged loop limiter are reported once per condition:
while LONG, BREAK or the condition stands nothing is reported again. Host-assisted wire-break never sets BREAK, a LIMIT of 0
supervises nothing, and a limiter that lets go reports nothing. BREAK and VF low clear without a report, CURR takes the current
in 10 uA steps up to 255, a write to CNT.COUNT sets the count alone, and the end of a gate gives FEDGE and FSPAN with VALID or
STOP and starts the next one. That the conditions of the supervisors come from outside, once each, is the model's choice (log
entries 38 and 58). Commands that complete: LONG_HOLD, WIRE_BREAK, VF_LOW, LOOP_OVL, SENS_OVL, BREAK_CLEAR, VF_LOW_CLEAR,
CURR_UPDATE, CNT_WRITE, GATE_END. -/
def Obligations.InputsReportAndMeasure : Prop :=
  (
  ∀ (s : State) (n : IslandNo), s.clocked = true →
    let i := s.isl[n]
    let dig (u : State) (bit : Nat) : Prop := u.isl[n].diag = i.diag ||| (1#11 <<< bit)
    let ana (u : State) (bit : Nat) : Prop := u.isl[n].adiag = i.adiag ||| (1#8 <<< bit)
    (s.isDue (.longHold n) = true → i.inputOn = true → i.din.qual = true → i.din.indet = false → i.din.long = false → i.reg 0x40 ≠ 0 →
      Completes (.longHold n) s (fun u => u.isl[n].din.long = true ∧ dig u 1 ∧ Reports u n 0x48 0 ∧ IslandOnly s u n)) ∧
    (i.reg 0x40 = 0 ∨ i.din.long = true → Completes (.longHold n) s (fun u => u = { s with due := u.due })) ∧
    (∀ old : Word, i.reg 0x40 = 0 → ∀ e ∈ (s.longLimit n old).due, e.2 ≠ .longHold n) ∧
    (i.din.brk = true → exec (.wireBreak n) s = .next s) ∧
    (i.vfLow = true → exec (.vfLow n) s = .next s) ∧
    (i.pers = .aiI → i.tbOn = true → s.running n = true → i.ana.loopOvl = true → exec (.loopOvl ⟨n, true⟩) s = .next s) ∧
    (i.wireOn = true → (i.reg 0).getLsbD 11 = false → i.din.brk = false → Completes (.wireBreak n) s (fun u =>
      u.isl[n].din.brk = true ∧ dig u 0 ∧ Reports u n 0x44 0 ∧ IslandOnly s u n)) ∧
    ((i.reg 0).getLsbD 11 = true → exec (.wireBreak n) s = .next s) ∧
    (i.pers.digIn = true → i.tbOn = true → s.running n = true → Completes (.sensOvl n) s (fun u =>
      dig u 2 ∧ Reports u n 0x45 0 ∧ IslandOnly s u n)) ∧
    (s.running n = true → i.vfLow = false → Completes (.vfLow n) s (fun u =>
      u.isl[n].vfLow = true ∧ (if i.pers.analog = true then ana u 7 else dig u 10) ∧ Reports u n 0x47 0 ∧ IslandOnly s u n)) ∧
    (i.pers = .aiI → i.tbOn = true → s.running n = true → i.ana.loopOvl = false → Completes (.loopOvl ⟨n, true⟩) s (fun u =>
      ana u 2 ∧ u.isl[n].ana.loopOvl = true ∧ Reports u n 0x46 0 ∧ IslandOnly s u n)) ∧
    exec (.loopOvl ⟨n, false⟩) s = .next (s.modIsl n (fun i => { i with ana := { i.ana with loopOvl := false } }))
  ) ∧ (
  ∀ (s : State) (n : IslandNo), s.clocked = true →
    let i := s.isl[n]
    exec (.breakClear n) s = .next (s.modIsl n (fun i => { i with din := { i.din with brk := false } })) ∧
    exec (.vfLowClear n) s = .next (s.modIsl n (fun i => { i with vfLow := false })) ∧
    (∀ k : Nat, i.wireOn = true → Completes (.currUpdate n k) s (fun u =>
      u = s.modIsl n (fun i => { i with din := { i.din with curr := u.isl[n].din.curr } }) ∧ u.isl[n].din.curr.toNat = min 255 k)) ∧
    (∀ w : Word, i.pers = .diCnt →
      exec (.cntWrite n w) s = .next (s.modIsl n (fun i => { i with din := { i.din with count := w } }))) ∧
    (s.isDue (.gateEnd n) = true → i.pers = .diCnt → i.rungs.rung = 2 → Completes (.gateEnd n) s (fun u =>
      u.isl[n].din.edges.toNat = min 65535 i.din.gEdges ∧
      u.isl[n].din.fValid = (decide (2 ≤ i.din.gEdges) && !i.din.gStop) ∧ u.isl[n].din.fStop = i.din.gStop ∧
      u.isl[n].din.span.toNat = (i.din.gLast - i.din.gFirst).toNat / 2 % 2 ^ 32 ∧
      u.isl[n].din.gEdges = 0 ∧ u.isl[n].din.gStop = false ∧
      (s.tick + BitVec.ofNat 64 (fld (i.reg 0x48) 8 24 * 512), .gateEnd n) ∈ u.due ∧ IslandOnly s u n))
  )

/-- R149: A PWM period of P itk, P the larger of PWM.PER and the rung's minimum, 100 000 at rung 1 and 5 000 above, starts with
its on-phase of floor(DUTY P / 65 536) itk, none under 32, all of P where fewer than 32 would be left or DUTY is 0xFFFF; the
next period and the end of the phase are owed. At that end the switch turns off. Commands that complete: PWM_PERIOD_START,
PWM_PHASE_END. -/
def Obligations.PwmPeriods : Prop :=
  ∀ (s : State) (n : IslandNo), s.isl[n].dout.run = true → s.clocked = true →
    let i := s.isl[n]
    let p := max (if i.rungs.rung = 1 then 100000 else 5000) (fld (i.reg 0x60) 0 20)
    let k := i.digTarget.toNat * p / 65536
    let on := if i.digTarget = 0xFFFF then p else if k < 32 then 0 else if p - k < 32 then p else k
    (s.isDue (.pwmPeriodStart n) = true → i.pers = .doPwm → Completes (.pwmPeriodStart n) s (fun u =>
      u.isl[n].dout.duty = i.digTarget ∧ u.isl[n].dout.effPer.toNat = p ∧ u.isl[n].dout.sw = decide (on ≠ 0) ∧
        u.isl[n].dout.phaseAt = s.tick ∧
      (s.tick + BitVec.ofNat 64 (2 * p), .pwmPeriodStart n) ∈ u.due ∧
      (on ≠ 0 → on ≠ p → (s.tick + BitVec.ofNat 64 (2 * on), .pwmPhaseEnd n) ∈ u.due) ∧ IslandOnly s u n)) ∧
    (s.isDue (.pwmPhaseEnd n) = true → Completes (.pwmPhaseEnd n) s (fun u =>
      u.isl[n].dout.sw = false ∧ u.isl[n].dout.run = true ∧ u.isl[n].dout.duty = i.dout.duty ∧ u.isl[n].dout.phaseAt = s.tick ∧
      IslandOnly s u n))

/-- R150, R152, R153, R156, R169, R175: A short and, outside the inrush window, an overload of a switch that is on, and an
overtemperature of a switch or a driver turn the output off, set their bit and report; a protection that stands reports no more.
Without HCK an overtemperature turns the output off, and its bit and report wait for the next tick. Cooled, the stage follows
its priority again; the end of the inrush window changes its flag alone. With the switch on a check that is due counts low load
current, with it off a current and, where CFG enables it, an open load, each in a row, and the counts of the other switch state
stand; the N-th in a row, N = VN + 1, sets its bit and reports with its kind. A DO takes a check every 64 itk and none within 64
itk of a switching edge; one that is not due counts nothing. A written one clears its DIAG bit, and SHORT and OVL their latches.
An analog output in force that is out of compliance is reported once. Commands that complete: SHORT_LATCH, OVERLOAD_LATCH,
SWITCH_OVERTEMP, SWITCH_COOLED, INRUSH_END, AO_OVERTEMP, AO_COOLED, OUTPUT_CHECK, DIAG_CLEAR, AO_OPEN. -/
def Obligations.OutputsProtectAndCheck : Prop :=
  (
  ∀ (s : State) (n : IslandNo), s.running n = true →
    let i := s.isl[n]
    let stopped : Prop := s.pow.hck = false ∧ s.pow.k4 = false ∧ s.pow.deferral = false
    let off (u : State) (bit : Nat) (src : Byte) : Prop :=
      u.isl[n].diag = i.diag ||| (1#11 <<< bit) ∧ Reports u n src 0 ∧ u.isl[n].dout.sw = false ∧ IslandOnly s u n
    (s.clocked = true → i.pers.digOut = true → i.dout.sw = true → i.dout.short = false →
      Completes (.shortLatch n) s (fun u => u.isl[n].dout.short = true ∧ off u 7 0x41)) ∧
    (s.clocked = true → i.pers.digOut = true → i.dout.sw = true → i.dout.inrush = false → i.dout.ovl = false →
      Completes (.overloadLatch n) s (fun u => u.isl[n].dout.ovl = true ∧ off u 8 0x42)) ∧
    (i.dout.short = true → exec (.shortLatch n) s = .next s) ∧ (i.dout.ovl = true → exec (.overloadLatch n) s = .next s) ∧
    (s.clocked = true → i.pers.digOut = true → i.dout.hotSwitch = false →
      Completes (.switchOvertemp n) s (fun u => u.isl[n].dout.hotSwitch = true ∧ off u 9 0x43)) ∧
    (s.clocked = true → i.pers.digOut = true → i.dout.hotSwitch = true → s.isDue (.switchOvertemp n) = true →
      Completes (.switchOvertemp n) s (fun u => u.isl[n].diag = i.diag ||| (1#11 <<< 9) ∧ Reports u n 0x43 0 ∧ IslandOnly s u n)) ∧
    (s.clocked = true → i.pers.digOut = true → i.dout.hotSwitch = true → s.isDue (.switchOvertemp n) = false →
      exec (.switchOvertemp n) s = .next s) ∧
    (stopped → i.pers.digOut = true → i.dout.hotSwitch = false → Completes (.switchOvertemp n) s (fun u =>
      u.isl[n].dout.hotSwitch = true ∧ u.isl[n].dout.sw = false ∧ u.isl[n].diag = i.diag ∧ u.isl[n].up = i.up ∧
      (s.tick + 1, .switchOvertemp n) ∈ u.due ∧ IslandOnly s u n)) ∧
    Completes (.switchCooled n) s (fun u =>
      u.isl[n].dout.hotSwitch = false ∧ (i.pers = .dO → u.isl[n].dout.sw = decide (u.isl[n].digTarget ≠ 0)) ∧ IslandOnly s u n) ∧
    Completes (.inrushEnd n) s (fun u =>
      u.isl[n] = { i with dout := { i.dout with inrush := false } } ∧ IslandOnly s u n) ∧
    (s.clocked = true → i.pers.anaOut = true → i.ana.hotDriver = false → Completes (.aoOvertemp n) s (fun u =>
      u.isl[n].ana.hotDriver = true ∧ u.isl[n].adiag = i.adiag ||| (1#8 <<< 6) ∧ Reports u n 0x4E 0 ∧
      (i.dead = false → i.rungs.rung ≠ 0 → u.isl[n].ana.driven = 0) ∧ IslandOnly s u n)) ∧
    (stopped → i.pers.anaOut = true → i.ana.hotDriver = false → Completes (.aoOvertemp n) s (fun u =>
      u.isl[n].ana.hotDriver = true ∧ u.isl[n].adiag = i.adiag ∧ u.isl[n].up = i.up ∧
      (i.dead = false → i.rungs.rung ≠ 0 → u.isl[n].ana.driven = 0) ∧ (s.tick + 1, .aoOvertemp n) ∈ u.due ∧ IslandOnly s u n)) ∧
    (i.pers.anaOut = true → Completes (.aoCooled n) s (fun u =>
      u.isl[n].ana.hotDriver = false ∧ u.isl[n].ana.driven = (u.aoTarget n).1 ∧ IslandOnly s u n))
  ) ∧ (
  ∀ (s : State) (n : IslandNo), s.clocked = true →
    let i := s.isl[n]
    let nn := fld (i.reg 0) 8 4 + 1
    let row (k : Nat) (bad : Bool) : Nat := if bad then min (nn + 1) (k + 1) else 0
    (i.pers = .dO → (s.checkDue n = true ↔ i.dout.swAt + 128 ≤ s.tick ∧ i.dout.checkAt + 128 ≤ s.tick)) ∧
    (∀ c : LoadCheck, s.checkDue n = true → i.checksOn = true → i.dout.sw = true →
      let hit : Prop := c.belowOl = true ∧ i.dout.cntOl + 1 = nn
      Completes (.outputCheck n c) s (fun u =>
        u.isl[n].dout.cntOl = row i.dout.cntOl c.belowOl ∧ u.isl[n].dout.cntStuck = i.dout.cntStuck ∧
        u.isl[n].dout.cntOff = i.dout.cntOff ∧ u.isl[n].dout.checkAt = s.tick ∧
        (hit → u.isl[n].diag = i.diag ||| (1#11 <<< 4) ∧ Reports u n 0x40 1) ∧
        (¬ hit → u.isl[n].diag = i.diag ∧ u.isl[n].up = i.up) ∧ IslandOnly s u n)) ∧
    (∀ c : LoadCheck, s.checkDue n = true → i.checksOn = true → i.dout.sw = false →
      let hit : Prop := c.aboveOff = true ∧ i.dout.cntStuck + 1 = nn
      let open_ : Prop := (i.reg 0).getLsbD 5 = true ∧ c.taHigh = true ∧ i.dout.cntOff + 1 = nn
      Completes (.outputCheck n c) s (fun u =>
        u.isl[n].dout.cntStuck = row i.dout.cntStuck c.aboveOff ∧ u.isl[n].dout.cntOl = i.dout.cntOl ∧
        u.isl[n].dout.cntOff = (if (i.reg 0).getLsbD 5 then row i.dout.cntOff c.taHigh else i.dout.cntOff) ∧
        u.isl[n].dout.checkAt = s.tick ∧ (hit → Reports u n 0x40 2) ∧ (open_ → Reports u n 0x40 3) ∧
        (hit → ¬ open_ → u.isl[n].diag = i.diag ||| (1#11 <<< 5)) ∧ (open_ → ¬ hit → u.isl[n].diag = i.diag ||| (1#11 <<< 6)) ∧
        (hit → open_ → u.isl[n].diag = i.diag ||| (1#11 <<< 5) ||| (1#11 <<< 6)) ∧
        (¬ hit → ¬ open_ → u.isl[n].diag = i.diag ∧ u.isl[n].up = i.up) ∧ IslandOnly s u n)) ∧
    (∀ c : LoadCheck, s.checkDue n = false → exec (.outputCheck n c) s = .next s) ∧
    (∀ w : Word, i.pers.digIn = true ∨ i.pers.digOut = true → Completes (.diagClear n w) s (fun u =>
      (∀ k < 11, u.isl[n].diag.getLsbD k = (i.diag.getLsbD k && !w.getLsbD k)) ∧
      u.isl[n].dout.short = (i.dout.short && !w.getLsbD 7) ∧ u.isl[n].dout.ovl = (i.dout.ovl && !w.getLsbD 8) ∧ IslandOnly s u n)) ∧
    (i.pers.anaOut = true → s.running n = true → exec (.aoOpen ⟨n, false⟩) s = .next (s.modIsl n (fun i =>
      { i with ana := { i.ana with opn := false } }))) ∧
    (i.pers.anaOut = true → s.running n = true → i.ana.hotDriver = false → (s.aoTarget n).2 = true →
      (i.ana.opn = false → Completes (.aoOpen ⟨n, true⟩) s (fun u =>
        u.isl[n].adiag = i.adiag ||| (1#8 <<< 0) ∧ u.isl[n].ana.opn = true ∧ Reports u n 0x4B 0 ∧ IslandOnly s u n)) ∧
      (i.ana.opn = true → exec (.aoOpen ⟨n, true⟩) s = .next s))
  )

/-- R181, R182, R185, R186, R187, R189: SEND limits its length to 1-288 and to the bytes that fit behind TXBASE, a clamp; on an
idle modem at rung 2 with the rate and no carrier it sends the preamble, so much of the buffer and its XOR, from 4 tk after the
next edge of HCK/4 on. With RATE under 8 000 RES is NORATE (7), with a carrier CARRIER (8), and in every other state BADCMD (9),
and the modem stays as it is. LISTEN arms an idle receiver, or starts it where a carrier stands; ABORT ends what the modem does.
Without the overlay HCMD is ignored. A carrier starts an armed receiver of a modem that runs. At the end of a character, on the
tick that it owes, the next one starts; after the last of a frame the modem waits RXTO characters, and a raw transmission ends
with DONE after LAST and with TX_UNDER where its queue is empty. Hardware framing hunts for two preamble bytes and a delimiter
and stores from the delimiter on; at rung 1 every character goes up. A gap ends reception with PERR, CKSUM or DONE, and no
answer in time gives TIMEOUT. A byte written to HRAW travels in a HART cell; landed, it starts an idle modem at rung 1 with the
rate, 4 tk after the next edge of HCK/4, waits in the queue of 2, or sets TXOVR; without the rate RES is NORATE, and at another
rung or in another state BADCMD. Received bytes wait in the host's queue of 16, or set RXOVR, and HRAWR takes the oldest, or
reads EMPTY. Commands that complete: HCMD_SEND, HCMD_LISTEN, HCMD_ABORT, HART_CHAR_END, HART_RX_END, HART_TIMEOUT,
CARRIER_DETECT, HART_CHAR_RX, HRAW_WRITE, HART_DOWN, HART_UP, HRAWR_READ. -/
def Obligations.HartModemWorks : Prop :=
  (
  ∀ (s : State) (n : IslandNo) (len : BitVec 9), s.clocked = true →
    let i := s.isl[n]
    let h := i.hart
    let only (u : State) : Prop := (∀ m, m ≠ n → u.isl[m] = s.isl[m]) ∧ u.mem = s.mem ∧ u.fault = s.fault ∧ u.facet = s.facet
    let res (u : State) (r : BitVec 4) : Prop := u.isl[n].hart = { h with res := r } ∧ only u
    let k := min (min 288 (max 1 len.toNat)) (0x4000 - i.txBase)
    let clamp (u : State) : Prop := u.clampLink.toNat = if k = len.toNat then s.clampLink.toNat else min (2 ^ 16 - 1) (s.clampLink.toNat + 1)
    let body := (List.range k).map (fun j => i.byte (i.txBase + j))
    let start := s.tick + BitVec.ofNat 64 (s.qtk + 4)
    (i.hartRung = 2 → h.st = .idle → s.hartRate = true → h.cd = false → Completes (.hcmdSend n len) s (fun u =>
      u.isl[n].hart.st = .tx ∧ u.isl[n].hart.framed = true ∧ u.isl[n].hart.txAt = start ∧ clamp u ∧
      u.isl[n].hart.txq.map (·.1) = List.replicate i.preambLen 0xFF ++ body ++ [body.foldl (· ^^^ ·) 0] ∧
      (start + BitVec.ofNat 64 (charsTk s.rate 1), .hartCharEnd n) ∈ u.due ∧ only u)) ∧
    (i.hartRung = 2 → h.st = .idle → s.hartRate = false → Completes (.hcmdSend n len) s (fun u => res u 7 ∧ clamp u)) ∧
    (i.hartRung = 2 → h.st = .idle → s.hartRate = true → h.cd = true → Completes (.hcmdSend n len) s (fun u => res u 8 ∧ clamp u)) ∧
    (i.pers.hart = true → i.hartRung ≠ 2 ∨ h.st ≠ .idle → Completes (.hcmdSend n len) s (fun u => res u 9)) ∧
    (i.hartRung ≠ 0 → h.st = .idle → s.hartRate = true → h.cd = false → Completes (.hcmdListen n) s (fun u =>
      u.isl[n].hart = { h with armed := true, rate := s.rate } ∧ IslandOnly s u n)) ∧
    (i.hartRung ≠ 0 → h.st = .idle → s.hartRate = true → h.cd = true → Completes (.hcmdListen n) s (fun u =>
      u.isl[n].hart.st = .rx ∧ u.isl[n].hart.stored = 0 ∧ IslandOnly s u n)) ∧
    (i.pers.hart = true → i.hartRung = 0 ∨ h.st ≠ .idle → Completes (.hcmdListen n) s (fun u => res u 9)) ∧
    (i.hartRung ≠ 0 → h.st = .idle → s.hartRate = false → Completes (.hcmdListen n) s (fun u => res u 7)) ∧
    (i.hartRung ≠ 0 → h.st ≠ .idle → Completes (.hcmdAbort n) s (fun u =>
      u.isl[n].hart.st = .idle ∧ u.isl[n].hart.res = 6 ∧ u.isl[n].hart.txq = [] ∧
      (∀ e ∈ u.due, e.2 ≠ .hartCharEnd n ∧ e.2 ≠ .hartRxEnd n ∧ e.2 ≠ .hartTimeout n) ∧ IslandOnly s u n)) ∧
    (i.pers.hart = true → i.hartRung = 0 ∨ h.st = .idle → Completes (.hcmdAbort n) s (fun u => res u 9)) ∧
    (i.pers.hart = false → ∀ c ∈ [Instr.hcmdSend n len, .hcmdListen n, .hcmdAbort n], exec c s = .next s)
  ) ∧ (
  ∀ (s : State) (n : IslandNo), s.clocked = true →
    let i := s.isl[n]
    let h := i.hart
    let stored (u : State) (b : Byte) (ok : Bool) : Prop :=
      u.isl[n].byte (i.rxBase + h.stored) = b ∧ (∀ a, a ≠ i.rxBase + h.stored → u.isl[n].byte a = i.byte a) ∧
      u.isl[n].hart.st = .rx ∧ u.isl[n].hart.storing = true ∧ u.isl[n].hart.stored = h.stored + 1 ∧
      u.isl[n].hart.cksum = h.cksum ^^^ b ∧ u.isl[n].hart.perr = (h.perr || !ok) ∧ IslandOnly s u n
    (i.hartRung ≠ 0 → s.hartRate = true → h.st = .idle → h.armed = true → Completes (.carrierDetect n) s (fun u =>
      u.isl[n].hart.st = .rx ∧ u.isl[n].hart.cd = true ∧ u.isl[n].hart.stored = 0 ∧ IslandOnly s u n)) ∧
    (i.hartRung ≠ 0 → s.hartRate = true → h.armed = false ∨ h.st ≠ .idle → Completes (.carrierDetect n) s (fun u =>
      u.isl[n].hart = { h with cd := true } ∧ IslandOnly s u n)) ∧
    (i.hartRung = 0 ∨ s.hartRate = false → exec (.carrierDetect n) s = .next s) ∧
    (s.isDue (.hartCharEnd n) = true → h.st = .tx →
      (∀ b l c q, h.txq = (b, l) :: c :: q → h.framed = true ∨ l = false → Completes (.hartCharEnd n) s (fun u =>
        u.isl[n].hart = { h with txq := c :: q, lastSent := l, txN := h.txN + 1 } ∧
        (h.txAt + BitVec.ofNat 64 (charsTk h.rate (h.txN + 2)), .hartCharEnd n) ∈ u.due ∧ IslandOnly s u n)) ∧
      (∀ b l, h.txq = [(b, l)] → h.framed = true → s.hartRate = true → Completes (.hartCharEnd n) s (fun u =>
        u.isl[n].hart.st = .wait ∧ u.isl[n].hart.txq = [] ∧
        (s.tick + BitVec.ofNat 64 (s.qtk + charsTk s.rate i.rxto), .hartTimeout n) ∈ u.due ∧ IslandOnly s u n)) ∧
      (∀ b l, h.txq = [(b, l)] → h.framed = true → s.hartRate = false → Completes (.hartCharEnd n) s (fun u =>
        u.isl[n].hart.st = .idle ∧ u.isl[n].hart.res = 7 ∧ IslandOnly s u n)) ∧
      (∀ b l q, h.txq = (b, l) :: q → h.framed = false → l = true ∨ q = [] → Completes (.hartCharEnd n) s (fun u =>
        u.isl[n].hart.st = .idle ∧ u.isl[n].hart.res = (if l then 0 else 4) ∧ u.isl[n].hart.txq = [] ∧ IslandOnly s u n))) ∧
    (∀ (b : Byte) (ok : Bool), i.hartRung = 2 → h.stored < 511 → i.rxBase + h.stored < 0x4000 → swf (fun _ => (0 : Byte)) i.mem = true →
      (h.st = .rx → h.storing = true → Completes (.hartCharRx n b ok) s (fun u => stored u b ok)) ∧
      (h.st = .wait ∨ h.st = .rx → h.storing = false → h.preamb = 2 → b ≠ 0xFF →
        Completes (.hartCharRx n b ok) s (fun u => stored u b ok))) ∧
    (∀ (b : Byte) (ok : Bool), h.st = .wait ∨ h.st = .rx → i.hartRung = 2 → h.storing = false → b = 0xFF ∨ h.preamb ≠ 2 →
      Completes (.hartCharRx n b ok) s (fun u =>
        u.isl[n].hart = { h with preamb := if b = 0xFF ∧ ok = true then min 2 (h.preamb + 1) else 0, perr := h.perr || !ok } ∧
        u.isl[n].mem = i.mem ∧ IslandOnly s u n)) ∧
    (∀ (b : Byte) (ok : Bool), h.st = .wait ∨ h.st = .rx → i.hartRung = 1 → Completes (.hartCharRx n b ok) s (fun u =>
      (∃ c ∈ u.isl[n].up, c.sent = false ∧ c.data = .hart b (!h.storing) (!ok)) ∧ u.isl[n].hart.st = .rx ∧
      u.isl[n].hart.storing = true ∧ IslandOnly s u n)) ∧
    (h.st = .rx → h.stored < 512 → Completes (.hartRxEnd n) s (fun u =>
      u.isl[n].hart.st = .idle ∧ u.isl[n].hart.cd = false ∧ u.isl[n].hart.rxlen.toNat = h.stored ∧
      u.isl[n].hart.res = (if h.perr then 1 else if i.hartRung = 2 ∧ h.cksum ≠ 0 then 2 else 0) ∧ IslandOnly s u n)) ∧
    (s.isDue (.hartTimeout n) = true → h.st = .wait → Completes (.hartTimeout n) s (fun u =>
      u.isl[n].hart.st = .idle ∧ u.isl[n].hart.res = 3 ∧ IslandOnly s u n))
  ) ∧ (
  ∀ (s : State) (n : IslandNo), s.clocked = true → s.running n = true →
    let i := s.isl[n]
    let h := i.hart
    (∀ (m : Master) (b : Byte) (last : Bool), (s.pers n).hart = true → Completes (.hrawWrite m n b last) s (fun u =>
      (∃ c ∈ u.isl[n].down, c.data = .hart b last ∧ c.req = m ∧ c.sent = false) ∧ IslandOnly s u n)) ∧
    (∀ (b : Byte) (last : Bool), i.hartRung = 1 →
      (h.st = .idle → s.hartRate = true → Completes (.hartDown n b last) s (fun u =>
        u.isl[n].hart.st = .tx ∧ u.isl[n].hart.framed = false ∧ u.isl[n].hart.txq = [(b, last)] ∧
        (s.tick + BitVec.ofNat 64 (s.qtk + 4) + BitVec.ofNat 64 (charsTk s.rate 1), .hartCharEnd n) ∈ u.due ∧ IslandOnly s u n)) ∧
      (h.st = .idle → s.hartRate = false → Completes (.hartDown n b last) s (fun u =>
        u.isl[n].hart = { h with res := 7 } ∧ IslandOnly s u n)) ∧
      (h.st = .tx → h.framed = false → h.txq.length < 2 → Completes (.hartDown n b last) s (fun u =>
        u.isl[n].hart = { h with txq := h.txq ++ [(b, last)] } ∧ IslandOnly s u n)) ∧
      (h.st = .tx → h.framed = false → 2 ≤ h.txq.length → Completes (.hartDown n b last) s (fun u =>
        u.isl[n].hart = { h with txovr := true } ∧ IslandOnly s u n))) ∧
    (∀ (b : Byte) (last : Bool), i.hartRung ≠ 1 ∨ h.st = .wait ∨ h.st = .rx → Completes (.hartDown n b last) s (fun u =>
      u.isl[n].hart = { h with res := 9 } ∧ IslandOnly s u n)) ∧
    (∀ (b : Byte) (st pe : Bool), (h.rxq.length < 16 → Completes (.hartUp n b st pe) s (fun u =>
        u.isl[n].hart = { h with rxq := h.rxq ++ [(b, st, pe)] } ∧ IslandOnly s u n)) ∧
      (16 ≤ h.rxq.length → Completes (.hartUp n b st pe) s (fun u =>
        u.isl[n].hart = { h with rxovr := true } ∧ IslandOnly s u n))) ∧
    (∀ b st pe q, (s.pers n).hart = true → h.rxq = (b, st, pe) :: q → s.link.readq.length < 64 →
      Completes (.hrawrRead .link n) s (fun u => u.isl[n].hart = { h with rxq := q } ∧
        ∃ w : Word, u.link.readq = s.link.readq ++ [{ val := w, err := false, wait := none }] ∧
          w.toNat = b.toNat + (if pe then 256 else 0) + (if st then 512 else 0))) ∧
    ((s.pers n).hart = true → h.rxq = [] → s.link.readq.length < 64 →
      Completes (.hrawrRead .link n) s (fun u => u.isl = s.isl ∧
        u.link.readq = s.link.readq ++ [{ val := 0x80000000, err := false, wait := none }]))
  )

/-- R170, R178, R190, R192, R193, R195, R198, R203, R204: An acquisition starts on the tick that it owes. A conversion takes ACQ
+ 20 itk, twice that in precision mode, with an ACQ of 4 in a calibration; on its last itk its code, trimmed by the zero, joins
the sum, and the last of the 2^AVG conversions of an entry makes the rounded mean ready for 2 itk later, and for the engine's 8,
16 or 12 tk more where it maps the result. On the tick that it owes the result enters its slot with NEW, and OVWR over an unread
one; a read returns the slot and clears both. A round starts with entry 0 once RPER itk have passed since the last one's start,
or on its trigger, and not within a round; an AO_V island that finds TB open sets ADIAG.LEAD. No conversion ends before its
time, and none that was discarded. That the verdict on TB comes with a conversion is the model's choice (log entry 50). Commands
that complete: ROUND_START, CONVERSION_START, CONVERSION_END, RESULT_WRITE, RESULT_SLOT_READ. -/
def Obligations.ConversionsAndResults : Prop :=
  ∀ (s : State) (n : IslandNo), s.clocked = true →
    let i := s.isl[n]
    let a := i.adc
    let acq := if a.cal = true ∧ a.st ≠ .injected then 4 else max 4 (fld i.curEntry 8 8)
    let tk := (if i.pers.anaIn = true ∧ i.rungs.rung = 3 then 2 else 1) * 2 * (acq + 20)
    let ends : Prop := a.conv = true ∧ ¬ s.tick + 2 < a.convAt + BitVec.ofNat 64 tk
    let convs := 2 ^ min 8 (fld i.curEntry 24 4)
    let engine (k : Fin 20) : Nat :=
      if i.pers.anaIn = true ∧ i.role k = 1 ∧ i.rungs.char = 1 then
        (if i.chMode = 1 then 8 else if i.chMode = 2 then 16 else if i.chMode = 3 then 12 else 0) else 0
    let may : Prop := i.adcMode ≠ 0 ∧ i.hold = false ∧ i.haseq = false ∧ a.inRound = false ∧ i.regSeq ≠ [] ∧
      (i.triggered = true → s.isDue (.roundStart n) = true) ∧
      (i.triggered = false → ∀ u, a.roundAt = some u → u + BitVec.ofNat 64 i.rperTk ≤ s.tick)
    (s.isDue (.conversionStart n) = true → i.adcMode ≠ 0 → i.hold = false → a.conv = false → a.work = true →
      Completes (.conversionStart n) s (fun u =>
      u.isl[n].adc = { a with conv := true, convAt := s.tick, started := true,
                              shown := if a.cal = true ∧ a.st ≠ .injected then a.shown else a.cur } ∧ IslandOnly s u n)) ∧
    (∀ (code : BitVec 18) (ovr tb lim : Bool), ends → a.cal = false → a.st = .regular → a.done + 1 < convs →
      Completes (.conversionEnd n code ⟨ovr, lim⟩ tb) s (fun u =>
        u.isl[n].adc.done = a.done + 1 ∧ u.isl[n].adc.sum = a.sum + max (-131072) (min 131071 (code.toInt - a.zero)) ∧
        u.isl[n].adc.slots = a.slots ∧ IslandOnly s u n)) ∧
    (∀ (code : BitVec 18) (ovr tb lim : Bool), ends → a.cal = false → a.st = .regular → convs ≤ a.done + 1 →
      Completes (.conversionEnd n code ⟨ovr, lim⟩ tb) s (fun u =>
        (∃ r, u.isl[n].adc.ready = some r ∧ r.slot.val = a.cur.toNat ∧ r.ovr = (a.ovr || ovr) ∧
          r.code = code18 (rdiv (a.sum + max (-131072) (min 131071 (code.toInt - a.zero))) convs)) ∧
        (s.tick + BitVec.ofNat 64 (4 + engine (Fin.ofNat 20 a.cur.toNat) + s.itk), .resultWrite n) ∈ u.due ∧ IslandOnly s u n)) ∧
    (∀ (code : BitVec 18) (ovr tb lim : Bool), ¬ ends → exec (.conversionEnd n code ⟨ovr, lim⟩ tb) s = .next s) ∧
    (∀ (code : BitVec 18) (ovr lim : Bool), ends → i.pers = .aoV → i.ana.tbOpen = false →
      Completes (.conversionEnd n code ⟨ovr, lim⟩ true) s (fun u =>
        u.isl[n].adiag = i.adiag ||| 2 ∧ u.isl[n].ana.tbOpen = true ∧ IslandOnly s u n)) ∧
    (∀ r, s.isDue (.resultWrite n) = true → a.ready = some r → Completes (.resultWrite n) s (fun u =>
      u.isl[n].adc.ready = none ∧ u.isl[n].adc.slots[r.slot].getLsbD 31 = true ∧
      u.isl[n].adc.slots[r.slot].getLsbD 30 = a.slots[r.slot].getLsbD 31 ∧ u.isl[n].adc.slots[r.slot].extractLsb' 0 18 = r.code ∧
      (∀ k, k ≠ r.slot → u.isl[n].adc.slots[k] = a.slots[k]) ∧
      (r.last = 1 → u.isl[n].adc.round = a.round + 1 ∧
        (s.tick + BitVec.ofNat 64 (12 + s.itk), .ind n (BitVec.ofNat 9 (0x080 + n.val)) none 3) ∈ u.transit) ∧ IslandOnly s u n)) ∧
    (may → a.st = .idle → a.cal = false → a.calPend = false →
      Completes (.roundStart n) s (fun u =>
        u.isl[n].adc = { a with inRound := true, roundNew := false, roundAt := some s.tick, cur := 0, done := 0, sum := 0, ovr := false,
                                st := .regular } ∧ IslandOnly s u n)) ∧
    (¬ may → Completes (.roundStart n) s (fun u => u = { s with due := u.due })) ∧
    (∀ k : Fin 20, s.running n = true → s.link.readq.length < 64 → Completes (.resultSlotRead .link n k) s (fun u =>
      u.isl[n].adc = { a with slots := a.slots.set k (a.slots[k] &&& 0x3FFFFFFF) } ∧ (∀ m, m ≠ n → u.isl[m] = s.isl[m]) ∧
      u.link.readq = s.link.readq ++ [{ val := a.slots[k], err := false, wait := none }]))

/-- R193, R195, R199, R200, R202: An injected trigger pre-empts regular work and keeps where it stood, or is held as pending, or
is lost; a triggered round, a named conversion and a calibration start on an idle converter, a triggered round or a conversion
that comes while another is under way is pending, a second one lost or dropped, and every command that its sequencing does not
allow is dropped and counted, as is a trigger of a group without entries. A conversion's entry is limited to the last one. The
calibration of CALINT goes in on the tick that it owes, before the next regular entry, and owes the next one. Commands that
complete: ADC_INJECT, ROUND_START, ADC_RTRIG, ADC_CONVERT, ADC_CAL, CALIBRATION_START. -/
def Obligations.ConverterTriggers : Prop :=
  ∀ (s : State) (n : IslandNo), s.clocked = true →
    let i := s.isl[n]
    let a := i.adc
    let only (u : State) : Prop := (∀ k, k ≠ n → u.isl[k] = s.isl[k]) ∧ u.mem = s.mem ∧ u.fault = s.fault ∧ u.cfg = s.cfg
    let dropped (u : State) : Prop := u.isl[n].adc = { a with drop := satAdd a.drop 1 } ∧ only u
    (fld (i.reg 0x150) 8 2 = 1 → i.adcMode ≠ 0 → i.ilen ≠ 0 → i.hold = false →
      (a.st ≠ .injected → Completes (.adcInject n) s (fun u =>
        u.isl[n].adc.st = .injected ∧ u.isl[n].adc.cur = 0 ∧ u.isl[n].adc.conv = false ∧
        (a.st = .regular ∨ a.inRound = true → u.isl[n].adc.saved = some (a.cur, a.done, a.sum, a.ovr, a.redone)) ∧ only u)) ∧
      (a.st = .injected → a.ipend = false → Completes (.adcInject n) s (fun u =>
        u.isl[n].adc = { a with ipend := true } ∧ only u)) ∧
      (a.st = .injected → a.ipend = true → Completes (.adcInject n) s (fun u =>
        u.isl[n].adc = { a with tovr := satAdd a.tovr 1 } ∧ only u))) ∧
    (fld (i.reg 0x150) 8 2 ≠ 1 ∨ i.adcMode = 0 ∨ i.ilen = 0 → Completes (.adcInject n) s dropped) ∧
    (i.adcMode ≠ 0 → i.haseq = false → i.triggered = true → a.inRound = false → a.st ≠ .injected → a.cal = false → i.hold = false →
      (s.due.any (fun e => decide (e.2 = .roundStart n))) = false → Completes (.adcRtrig n) s (fun u =>
        (s.tick, .roundStart n) ∈ u.due ∧ only u)) ∧
    (i.adcMode ≠ 0 → i.haseq = false → i.triggered = true → a.inRound = true ∨ a.st = .injected ∨ a.cal = true →
      (a.rpend = false → Completes (.adcRtrig n) s (fun u => u.isl[n].adc = { a with rpend := true } ∧ only u)) ∧
      (a.rpend = true → Completes (.adcRtrig n) s (fun u => u.isl[n].adc = { a with tovr := satAdd a.tovr 1 } ∧ only u))) ∧
    (i.adcMode = 0 ∨ i.haseq = true ∨ i.triggered = false → Completes (.adcRtrig n) s dropped) ∧
    (∀ e : BitVec 4, i.adcMode ≠ 0 → i.haseq = true → e.toNat < i.regSeq.length → a.convPend = none → a.work = false →
      a.calPend = false → a.inRound = false → Completes (.adcConvert n e) s (fun u =>
        u.isl[n].adc = { a with st := .regular, cur := e, done := 0, sum := 0, ovr := false, redone := false, convPend := none } ∧
        only u)) ∧
    (∀ e : BitVec 4, i.adcMode ≠ 0 → i.haseq = true → e.toNat < i.regSeq.length → a.convPend = none → a.work = true →
      Completes (.adcConvert n e) s (fun u => u.isl[n].adc = { a with convPend := some e } ∧ only u)) ∧
    (∀ e : BitVec 4, i.adcMode ≠ 0 → i.haseq = true → i.regSeq ≠ [] → i.regSeq.length ≤ e.toNat → a.convPend = none → a.work = true →
      Completes (.adcConvert n e) s (fun u =>
        u.isl[n].adc = { a with convPend := some (BitVec.ofNat 4 (i.regSeq.length - 1)) } ∧ only u)) ∧
    (∀ e : BitVec 4, i.adcMode = 0 ∨ i.haseq = false ∨ i.regSeq = [] ∨ a.convPend ≠ none → Completes (.adcConvert n e) s dropped) ∧
    (i.adcMode ≠ 0 → i.haseq = true → a.calPend = false → a.work = false → Completes (.adcCal n) s (fun u =>
      u.isl[n].adc = { a with cal := true, calDone := 0, calSum := 0 } ∧ only u)) ∧
    (i.adcMode ≠ 0 → i.haseq = true → a.calPend = false → a.cal = false → a.work = true → Completes (.adcCal n) s (fun u =>
      u.isl[n].adc = { a with calPend := true } ∧ only u)) ∧
    (i.adcMode = 0 ∨ i.haseq = false ∨ a.calPend = true ∨ a.cal = true → Completes (.adcCal n) s dropped) ∧
    (s.isDue (.calibrationStart n) = false → exec (.calibrationStart n) s = .next s) ∧
    (i.haseq = true → Completes (.calibrationStart n) s (fun u => u = { s with due := u.due })) ∧
    (s.isDue (.calibrationStart n) = true → i.adcMode ≠ 0 → i.haseq = false → i.hold = false →
      a.work = false ∨ (a.cal = false ∧ a.st = .regular ∧ a.conv = false ∧ a.done = 0) → Completes (.calibrationStart n) s (fun u =>
      u.isl[n].adc = { a with calPend := false, cal := true, calDone := 0, calSum := 0 } ∧
      (s.tick + BitVec.ofNat 64 i.calTk, .calibrationStart n) ∈ u.due ∧ only u)) ∧
    (s.isDue (.calibrationStart n) = true → i.adcMode ≠ 0 → i.haseq = false → i.hold = false → a.work = true →
      ¬ (a.cal = false ∧ a.st = .regular ∧ a.conv = false ∧ a.done = 0) → Completes (.calibrationStart n) s (fun u =>
      u.isl[n].adc = { a with calPend := !a.cal } ∧ (s.tick + BitVec.ofNat 64 i.calTk, .calibrationStart n) ∈ u.due ∧ only u))

/-- R20, R21, R43, R48, R49, R53, R54, R55, R56, R60, R61, R118: A LEDGER write and READMIT join the arbiter's queue, where they
are 4 tk after the next edge of HCK/4; on an edge an arbiter that is not busy takes the first, sets BUSY and ends after 48 tk,
READMIT after 32 tk and 16 tk for each clamped island. The write takes the request fields, limited to the ladder, to a
configured HART and to a configured characteristic, and is admitted: in full where its grains fit beside the other islands' and
the bases kept back, else one step lower at a time, HART, then the characteristic, then the rung, with CLAMPED, and at rung 0
without CLAMPED where the island is not ready or the device is parked. A RUNG cell that lands switches the stages and owes
RUNG_ACT within 512 tk; on that tick the island sends it. The cell that arrives crosses to the arbiter, 4 tk after the next edge
of HCK/4, and there it ends PENDING and leaves the grains of the rungs in force. The arbiter's edge and every row that changes
the ledger keep the sum of the charged grains within the arbiter's share, and the grains of one island within 60; powering
islands keeps the sum. That a bound of the spec is owed at its end is the model's choice (log entry 2). Commands that complete:
LEDGER_WRITE, READMIT, ADMISSION_COMPLETE, RUNG, RUNG_SWITCH_DONE, RUNG_ACT. -/
def Obligations.LedgerAndRungs : Prop :=
  (
  (∀ (s : State) (m : Master) (n : IslandNo) (w : Word), s.clocked = true →
    let there : Tick := s.tick + BitVec.ofNat 64 (s.qtk + 4)
    (s.present n = true → exec (.ledgerWrite m n w) s = .next { s with ledq := s.ledq ++ [(there, .write n w m)] }) ∧
    (s.present n = false → Completes (.ledgerWrite m n w) s (fun u => u.ledq = s.ledq ∧ u.isl = s.isl)) ∧
    exec (.readmit m) s = .next { s with ledq := s.ledq ++ [(there, .readmit m)] } ∧
    (s.isDue .admissionComplete = true → Completes .admissionComplete s (fun u =>
      u = { s with due := u.due, busy := decide (s.slate.st = .committing) && s.slate.passed }))) ∧
  (∀ (s : State) (m : Master) (n : IslandNo) (w : Word) (came : Tick) (rest : List (Tick × LedgerReq)),
    s.tick.toNat % 4 = 0 → s.busy = false → s.slate.st ≠ .committing → came ≤ s.tick →
    (s.ledq = (came, .write n w m) :: rest → s.isl[n].led.pendingBit = false →
      let u := s.ledEdge
      u.busy = true ∧ u.ledq = rest ∧ (s.tick + 48, .admissionComplete) ∈ u.due ∧
      u.isl[n].led.reqRung.toNat = min (w.toNat % 4) (topRung (s.pers n)) ∧
      u.isl[n].led.reqHart.toNat = (if (s.recAt n 0).getLsbD 4 then min (w.toNat / 4 % 4) 2 else 0) ∧
      u.isl[n].led.reqChar = (w.getLsbD 4 && (s.pers n).analog && decide (fld (s.recAt n 0) 28 2 ≠ 0)) ∧
      (s.isl[n].powered = true → s.pers n ≠ .off →
        let l := u.isl[n].led
        let cost (x : Nat × Nat × Nat) : Nat := islandGr (s.pers n) (s.modeGr n) x.1 x.2.1 x.2.2
        let q : Nat × Nat × Nat := if l.reqRung = 0 then (0, 0, 0) else (l.reqRung.toNat, l.reqHart.toNat, if l.reqChar then 1 else 0)
        let a : Nat × Nat × Nat := (l.admRung.toNat, l.admHart.toNat, if l.admChar then 1 else 0)
        let limit := min (60 - s.isl[n].heldGr - s.isl[n].heldRsv)
          (s.member.admissible - (s.admitted - s.isl[n].led.admGr) - s.owedGr n - s.keptBack n)
        (s.isl[n].ready = false ∨ s.parked = true → a = (0, 0, 0) ∧ l.clamped = false) ∧
        (s.isl[n].ready = true → s.parked = false → cost q ≤ limit → a = q ∧ l.clamped = false) ∧
        (s.isl[n].ready = true → s.parked = false → limit < cost q →
          (cost a ≤ limit ∨ a = (0, 0, 0)) ∧ (l.clamped = true ↔ a ≠ q) ∧ a.1 ≤ q.1 ∧ a.2.1 ≤ q.2.1 ∧ a.2.2 ≤ q.2.2 ∧
          (a.2.2 < q.2.2 → a.2.1 = 0) ∧ (a.1 < q.1 → a.2.1 = 0 ∧ a.2.2 = 0))) ∧
      ∀ k, k ≠ n → u.isl[k].led.reqRung = s.isl[k].led.reqRung) ∧
    (s.ledq = (came, .readmit m) :: rest →
      let u := s.ledEdge
      u.busy = true ∧ u.ledq = rest ∧
      (s.tick + BitVec.ofNat 64 (32 + 16 * (islands.filter (fun (k : IslandNo) => s.isl[k].led.clamped)).length),
        .admissionComplete) ∈ u.due))
  ) ∧ (
  ∀ (s : State) (n : IslandNo), s.clocked = true → s.running n = true →
    (∀ r : Rungs, Completes (.rung n r) s (fun u =>
      u.isl[n].rungs = r ∧ u.isl[n].rungNext = some r ∧ (s.tick + 512, .rungSwitchDone n) ∈ u.due ∧
      (∀ k, k ≠ n → u.isl[k] = s.isl[k]) ∧ u.mem = s.mem ∧ u.cfg = s.cfg ∧ u.fault = s.fault)) ∧
    (s.isDue (.rungSwitchDone n) = true → s.isl[n].rungNext ≠ none → Completes (.rungSwitchDone n) s (fun u =>
      u.isl[n].rungNext = none ∧ u.isl[n].rungs = s.isl[n].rungs ∧ (∃ c ∈ u.isl[n].up, c.data = .rungAct ∧ c.sent = false) ∧
      IslandOnly s u n)) ∧
    (s.isDue (.rungAct n) = false → (flying .rungAct s.isl[n].up).isSome = true → Completes (.rungAct n) s (fun u =>
      u.isl[n].led = s.isl[n].led ∧ (s.tick + BitVec.ofNat 64 (s.qtk + 4), .rungAct n) ∈ u.due ∧ IslandOnly s u n)) ∧
    (s.isDue (.rungAct n) = true → s.isl[n].led.pending = true → s.isl[n].led.waitGr = false → Completes (.rungAct n) s (fun u =>
      u.isl[n].led.pending = false ∧ u.isl[n].led.admGr = s.isl[n].led.sentGr)) ∧
    (s.isDue (.rungAct n) = false → (flying .rungAct s.isl[n].up).isSome = false → exec (.rungAct n) s = .next s)
  ) ∧ (
  (∀ s : State, s.admittedOk → (∀ n : IslandNo, s.isl[n].grainsOk) →
    (s.ledEdge.admittedOk ∧ ∀ n : IslandNo, s.ledEdge.isl[n].grainsOk) ∧
    ∀ (m : Master) (n : IslandNo) (w : Word), ∀ c ∈ [Instr.ledgerWrite m n w, .readmit m, .admissionComplete, .fullPass, .rungAct n,
        .grainRelease n, .chargeComplete n, .reservoirOk n, .symbolTimeout n, .couplerFault n, .fatal n, .firstSymbolTimeout n],
      Completes c s (fun u => u.admittedOk ∧ ∀ k : IslandNo, u.isl[k].grainsOk)) ∧
  (∀ (s : State) (m : Master) (w : Word), s.admittedOk → Completes (.islandPowerWrite m w) s (fun u => u.admittedOk))
  )

/-- R42, R43, R48, R57, R59, R120, R335, R352, R362, R369, R415: EN written 1 starts the coupler of an island that may be
powered, and written 0 kills it; in DORMANT the word goes to RESUME and nothing else happens. V_CV at V_CV_OK owes the first
symbol within 2048 tk; with it the island is RUNNING at rung 0 and gets its record, and on a standby an input or output with a
shadow stage that stage; a charged island gives its reserve grant back, and 512 tk after a kill the grains that it held return,
whether the island is powered again or not. That the bound of the first symbol is owed at its end is the model's choice (log
entry 2). Commands that complete: ISLAND_POWER_WRITE, RESERVOIR_OK, FIRST_SYMBOL, CHARGE_COMPLETE, GRAIN_RELEASE. -/
def Obligations.IslandsPowerUp : Prop :=
  (
  ∀ (s : State) (m : Master) (w : Word), s.clocked = true →
    (s.pow.ps ≠ .dormant → s.pow.ps ≠ .toDormant → Completes (.islandPowerWrite m w) s (fun u => ∀ n : IslandNo,
      (w.getLsbD n.val = true → s.mayPower n = true → s.isl[n].powered = false → u.isl[n].power = .charging ∧ u.isl[n].en = true) ∧
      (w.getLsbD n.val = true → s.isl[n].powered = true → u.isl[n].power = s.isl[n].power) ∧
      (w.getLsbD n.val = true → s.mayPower n = false → s.isl[n].powered = false → u.isl[n].power = s.isl[n].power) ∧
      (w.getLsbD n.val = false → u.isl[n].en = false ∧
        u.isl[n].power = if s.isl[n].powered then .bedrock else s.isl[n].power))) ∧
    (s.pow.ps = .dormant ∨ s.pow.ps = .toDormant →
      exec (.islandPowerWrite m w) s = .next { s with pow := { s.pow with resume := w.extractLsb' 0 16 } })
  ) ∧ (
  ∀ (s : State) (n : IslandNo), s.clocked = true →
    (s.isl[n].power = .charging → s.isl[n].cvOk = false → Completes (.reservoirOk n) s (fun u =>
      u.isl[n].cvOk = true ∧ u.isl[n].power = .charging ∧ (s.tick + 2048, .firstSymbolTimeout n) ∈ u.due ∧
      u.ledq = s.ledq ++ [(s.tick + BitVec.ofNat 64 (s.qtk + 4), .resOk n)])) ∧
    (s.isl[n].power = .charging → s.isl[n].cvOk = true → ∀ lvl, Completes (.firstSymbol n lvl) s (fun u =>
      u.isl[n].power = .running ∧ u.isl[n].rungs = Rungs.zero ∧ u.isl[n].recOut = true ∧ u.isl[n].din.lvl = lvl ∧
      Queues u n .slate (.cmd .apply) ∧ (s.tan.role = .standby → shadows (s.pers n) = true → Queues u n .tandem (.cmd .shadow)) ∧
      ∀ k, k ≠ n → u.isl[k] = s.isl[k])) ∧
    (s.isl[n].charging = true → Completes (.chargeComplete n) s (fun u =>
      u.isl[n].charging = false ∧ u.isl[n].rsv = 0 ∧ u.isl[n].power = s.isl[n].power)) ∧
    (∀ g rest, s.isDue (.grainRelease n) = true → s.isl[n].held = g :: rest → s.isl[n].led.waitGr = false →
      Completes (.grainRelease n) s (fun u =>
      u.isl[n].held = rest ∧ u.isl[n].led.admGr = s.isl[n].led.admGr ∧
      (s.isl[n].powered = false → u.isl[n].led.admRung = 0 ∧ u.isl[n].led.clamped = false))) ∧
    (s.isl[n].held = [] → Completes (.grainRelease n) s (fun u => u = { s with due := u.due }))
  )

/-- R42, R43, R58: A lost symbol stream, a coupler fault, a late first symbol and a FATAL cell declare the island LOST: EN reads
0, its grains stay charged until they return 512 tk later, and ISL_LOST is raised with its number. Power windows start on the
multiples of 8192 tk; one that the island was powered for all along is judged at its end. A judged window over 1.25 x (admitted
+ grant) + 2 gr counts, the second in a row raises LEDGER_OVER, and one within the limit ends the count; the row of a window
that is not to be judged changes nothing, and the end of a window that was not judged ends the count as well. That the measured
grains are an operand, and that a window not judged resets the count, are the model's choices (log entries 38 and 54). Commands
that complete: SYMBOL_TIMEOUT, FATAL, COUPLER_FAULT, FIRST_SYMBOL_TIMEOUT, POWER_WINDOW_END. -/
def Obligations.IslandsLostAndJudged : Prop :=
  (
  ∀ (s : State) (n : IslandNo), s.clocked = true →
    let lost (c : Instr) : Prop := Completes c s (fun u =>
      u.isl[n].power = .lost ∧ u.isl[n].en = false ∧ u.isl[n].held = s.isl[n].held ++ [(s.isl[n].led.admGr, s.isl[n].rsv)] ∧
      u.isl[n].led.admGr = 0 ∧ u.isl[n].led.pending = false ∧ (s.tick + 512, .grainRelease n) ∈ u.due ∧
      (∃ r ∈ u.fault.react ++ u.fault.dq, r.src = 0x11 ∧ r.mid = mid (.island n) ∧ r.kind = 0 ∧ r.came = s.tick) ∧
      ∀ k, k ≠ n → u.isl[k].power = s.isl[k].power)
    (s.running n = true → lost (.symbolTimeout n) ∧ lost (.fatal n)) ∧
    (s.isl[n].powered = true → lost (.couplerFault n)) ∧
    (s.isDue (.firstSymbolTimeout n) = true → s.isl[n].power = .charging → s.isl[n].cvOk = true → lost (.firstSymbolTimeout n))
  ) ∧ (
  (∀ (s : State) (n : IslandNo) (gr100 : Nat), s.clocked = true →
    let i := s.isl[n]
    let lim := 125 * i.winPrev + 200
    let judged : Prop := s.tick.toNat % 8192 = 0 ∧ i.winJudge = true
    (judged → lim < gr100 → i.winBad = 0 → Completes (.powerWindowEnd n gr100) s (fun u =>
      u.isl[n].winBad = 1 ∧ u.isl[n].winJudge = false ∧ u.fault = s.fault)) ∧
    (judged → lim < gr100 → i.winBad = 1 → Completes (.powerWindowEnd n gr100) s (fun u =>
      u.isl[n].winBad = 2 ∧ Raises s u 0x12 (0x30 + BitVec.ofNat 8 n.val) 0)) ∧
    (judged → gr100 ≤ lim → Completes (.powerWindowEnd n gr100) s (fun u =>
      u.isl[n].winBad = 0 ∧ u.isl[n].winJudge = false ∧ u.fault = s.fault)) ∧
    (¬ judged → exec (.powerWindowEnd n gr100) s = .next s)) ∧
  (∀ (s : State) (n : IslandNo), s.tick.toNat % 8192 = 0 →
    let i := s.isl[n]
    let j := s.rollWindows.isl[n]
    j.winJudge = (i.winWhole && i.powered) ∧ j.winPrev = max i.winMax (i.led.admGr + i.rsv) ∧ j.winWhole = i.powered ∧
    j.winBad = (if i.winJudge = true ∨ i.winWhole = false ∨ i.powered = false then 0 else i.winBad) ∧
    j.winMax = i.led.admGr + i.rsv)
  )

/-- R45, R46, R265, R266, R290, R302, R391: A mark, the loss of the carrier, a channel-fault cell and the die's protection each
put a demand for the programmed safe state into their island, and the end of a demand takes it away; the outputs follow, and an
island without power has every stage off and nothing of its configuration. A clear cell clears CHFAULT unless the fault applies
again in a cell that is still to land; the die's protection acts without HCK too, and is then reported on the next tick, once
per condition. Commands that complete: SAFE_MARK_DETECT, CARRIER_LOSS, CHANNEL_FAULT_CELL, CLEAR_CELL, ISL_THERM,
ISL_THERM_RELEASE, KILL_MARK_DETECT, CV_BELOW_6V. -/
def Obligations.IslandSafeDemands : Prop :=
  ∀ (s : State) (n : IslandNo),
    let i := s.isl[n]
    (s.markAll = true → i.powered = true → Completes (.safeMarkDetect n) s (fun u =>
      u.isl[n].safe.mark = true ∧ u.isl[n].inSafe = true ∧ Follows u n ∧ IslandOnly s u n)) ∧
    (i.powered = true → Completes (.carrierLoss n) s (fun u =>
      u.isl[n].safe.noCarrier = true ∧ u.isl[n].inSafe = true ∧ Follows u n ∧ IslandOnly s u n)) ∧
    (s.clocked = true → s.running n = true → Completes (.channelFaultCell n) s (fun u =>
      u.isl[n].safe.chFault = true ∧ u.isl[n].inSafe = true ∧ Follows u n ∧ ∀ k, k ≠ n → u.isl[k] = s.isl[k])) ∧
    (s.clocked = true → Completes (.clearCell n) s (fun u =>
      u.isl[n].safe.chFault = false ∧ Follows u n ∧
      ((∃ c ∈ i.down, c.data = .cmd .chanFault ∧ c.got = false) → u.fault.chFault = s.fault.chFault) ∧
      ((∀ c ∈ i.down, c.data = .cmd .chanFault → c.got = true) → u.fault.chFault = s.fault.chFault &&& ~~~(1#16 <<< n.val)) ∧
      ∀ k, k ≠ n → u.isl[k] = s.isl[k])) ∧
    (s.clocked = true → s.running n = true → i.safe.therm = false → Completes (.islTherm n) s (fun u =>
      u.isl[n].safe.therm = true ∧ u.isl[n].inSafe = true ∧ Follows u n ∧ Reports u n 0x31 0 ∧ IslandOnly s u n)) ∧
    (s.pow.hck = false → s.pow.k4 = false → s.pow.deferral = false → s.running n = true → i.safe.therm = false →
      Completes (.islTherm n) s (fun u =>
        u.isl[n].safe.therm = true ∧ u.isl[n].inSafe = true ∧ Follows u n ∧ u.isl[n].up = i.up ∧ (s.tick + 1, .islTherm n) ∈ u.due ∧
        IslandOnly s u n)) ∧
    (s.clocked = true → s.running n = true → i.safe.therm = true →
      (s.isDue (.islTherm n) = true → Completes (.islTherm n) s (fun u => Reports u n 0x31 0 ∧ IslandOnly s u n)) ∧
      (s.isDue (.islTherm n) = false → exec (.islTherm n) s = .next s)) ∧
    Completes (.islThermRelease n) s (fun u => u.isl[n].safe.therm = false ∧ Follows u n ∧ IslandOnly s u n) ∧
    (i.powered = false → Completes (.killMarkDetect n) s (fun u => u.isl[n] = i.fallen ∧ IslandOnly s u n)) ∧
    (i.powered = true → exec (.killMarkDetect n) s = .next s) ∧
    Completes (.cvBelow6v n) s (fun u =>
      u.isl[n] = { i.fallen with discharge := true, cvOk := false } ∧ IslandOnly s u n)

/-- R269, R270, R274, R275, R276, R285: SAFE_N held low and a trip of the armed stillness guard set their latch once; with HCK
running every island's SAFE bit is on its lane and the fault is raised on this tick, without it the fault is kept for the first
tick after the stop. A latch that is set already raises nothing again. The host link alone clears a latch, and only once its
cause allows: the stillness latch with the integrator discharged, the SAFE_N latch with the land high for 0.5 us. HOST.SAFE_CMD
takes its word from any master. The lanes carry what then stands. Commands that complete: SAFE_N_ASSERT, STILLNESS_TRIP,
CLR_STILL, CLR_SAFEN, CLR_FRESET, SAFE_CMD_WRITE, SAFE_N_HIGH, INTEGRATOR_DISCHARGED. -/
def Obligations.SafeLatches : Prop :=
  (
  ∀ (s : State), s.pow.k4 = false →
    let lanes (u : State) : Prop := ∀ n : IslandNo, u.isl[n].laneDn.safe = true
    (s.safe.safeN = false → s.clocked = true → Completes .safeNAssert s (fun u =>
      u.safe = { s.safe with safeN := true, safePin := true, safeHigh := false } ∧ lanes u ∧ Raises s u 0x2A 0x46 0)) ∧
    (s.safe.safeN = false → s.clocked = false → Completes .safeNAssert s (fun u =>
      u.safe = { s.safe with safeN := true, safePin := true, safeHigh := false, recSafeN := true } ∧ lanes u ∧ u.fault = s.fault)) ∧
    (s.armed = true → s.safe.charged = true → s.safe.still = false → s.clocked = true → Completes .stillnessTrip s (fun u =>
      u.safe = { s.safe with still := true } ∧ lanes u ∧ Raises s u 0x29 0x45 0)) ∧
    (s.armed = true → s.safe.charged = true → s.safe.still = false → s.clocked = false → Completes .stillnessTrip s (fun u =>
      u.safe = { s.safe with still := true, recStill := true } ∧ lanes u ∧ u.fault = s.fault)) ∧
    (s.safe.safeN = true → exec .safeNAssert s = .next { s with safe := { s.safe with safePin := true, safeHigh := false } }) ∧
    (s.armed = false ∨ s.safe.still = true → exec .stillnessTrip s = .next s)
  ) ∧ (
  ∀ (s : State),
    let lanes (u : State) : Prop := ∀ n : IslandNo, u.isl[n].laneDn.safe = u.safeBit n
    (s.clocked = true → s.safe.charged = false → Completes (.clrStill .link) s (fun u => u.safe = { s.safe with still := false } ∧
      lanes u)) ∧
    (s.safe.charged = true → exec (.clrStill .link) s = .next s) ∧
    (s.clocked = true → s.safe.safeHigh = true → Completes (.clrSafen .link) s (fun u => u.safe = { s.safe with safeN := false } ∧
      lanes u)) ∧
    (s.safe.safeHigh = false → exec (.clrSafen .link) s = .next s) ∧
    (s.clocked = true → Completes (.clrFreset .link) s (fun u => u.safe = { s.safe with flint := false } ∧ lanes u)) ∧
    (∀ m : Master, s.clocked = true → m ≠ .link → ∀ c ∈ [Instr.clrStill m, .clrSafen m, .clrFreset m],
      Completes c s (fun u => u.safe = s.safe ∧ u.isl = s.isl ∧ Raises s u 0x09 (mid m) 0)) ∧
    (∀ (m : Master) (w : Word), s.clocked = true → Completes (.safeCmdWrite m w) s (fun u =>
      u.safe = { s.safe with cmd := w.extractLsb' 0 16 } ∧ lanes u)) ∧
    (∀ held : Bool, exec (.safeNHigh held) s = .next { s with safe := { s.safe with safePin := false, safeHigh := held } }) ∧
    (s.pow.hck = true → s.isDue .integratorDischarged = true → Completes .integratorDischarged s (fun u =>
      u = { s with due := u.due, safe := { s.safe with charged := false } })) ∧
    (s.pow.hck = false ∨ s.isDue .integratorDischarged = false → exec .integratorDischarged s = .next s)
  )

/-- R278, R279, R280, R281, R283: A kick with the right word inside the window restarts the count, and in challenge-response
mode the next question is ready a tick later, or, where the host supplies the questions, one written on this tick stands and any
other is stale; one before WMIN, a wrong word and the close of the window expire the channel with their reason: the latch sets,
every lane carries SAFE, FLINT_EXPIRE is raised, and the K3 reset is due 32 tk after the first expiry. QW supplies a question. A
budget from context 0 in the boot ROM arms the trial-boot count of 65 536 tk each, CONFIRM from any master ends it, also beside
a budget that is refused, and at its end an armed count expires the CORE channel with reason BOOT. That QW is taken in a RUNNING
channel alone, and that an expired CORE channel ignores the end of the budget, are the model's readings (log entries 29 and 43).
Commands that complete: KICK, WINDOW_CLOSE, QW_WRITE, BOOT_BUDGET, BUDGET_EXPIRY, BOOT_CONFIRM. -/
def Obligations.FlintJudgesKicksAndBoots : Prop :=
  (
  ∀ (s : State) (m : Master) (ch : FlintChan) (key : BitVec 16), s.clocked = true → (s.flintCh ch).st = .running →
    let e := s.elapsed ch
    let right : BitVec 16 := if s.flintMode ch = 2 then token (s.question ch) (s.flintSeed ch) else 0xC35A
    let expired (u : State) (r : ExpReason) : Prop :=
      (u.flintCh ch).st = .expired ∧ u.safe.flint = true ∧ (∀ n : IslandNo, u.isl[n].laneDn.safe = true) ∧ u.flint.resetDue = true ∧
      (if ch = .host then u.flint.hostReason else u.flint.coreReason) = r ∧ Raises s u 0x28 0x44 0 ∧
      (s.flint.resetDue = false → (s.tick + 32, .flintReset) ∈ u.due)
    (s.mayKick m ch = true →
      (s.flintWmin ch ≤ e → e < s.flintWmax ch → key = right → Completes (.kick m ch key) s (fun u =>
        (u.flintCh ch).st = .running ∧ (u.flintCh ch).start = s.tick ∧ u.safe = s.safe ∧ u.fault = s.fault ∧
        (s.tick + BitVec.ofNat 64 (s.flintWmax ch), .windowClose ch) ∈ u.due ∧
        (s.flintMode ch = 2 → s.flintQha ch = false → (u.flintCh ch).qnew = some (s.tick + 1, qStep (s.question ch))) ∧
        (∀ q, s.flintQha ch = true → s.tick.toNat + 1 < 2 ^ 64 → (s.flintCh ch).qnew = some (s.tick + 1, q) →
          (u.flintCh ch).qnew = some (s.tick + 1, q) ∧ (u.flintCh ch).qstale = (s.flintCh ch).qstale) ∧
        (s.flintMode ch = 2 → s.flintQha ch = true → (s.flintCh ch).qnew = none → (u.flintCh ch).qstale = true))) ∧
      (s.flintWmin ch ≤ e → s.flintWmax ch ≤ e → Completes (.kick m ch key) s (fun u => expired u .late)) ∧
      (e < s.flintWmin ch → Completes (.kick m ch key) s (fun u => expired u .early)) ∧
      (s.flintWmin ch ≤ e → e < s.flintWmax ch → key ≠ right → Completes (.kick m ch key) s (fun u => expired u .badkey))) ∧
    (s.mayKick m ch = false → Completes (.kick m ch key) s (fun u => u.flint = s.flint ∧ u.safe = s.safe ∧ Raises s u 0x09 (mid m) 0)) ∧
    (s.flintWmax ch ≤ e → Completes (.windowClose ch) s (fun u => expired u .late)) ∧
    (∀ q : BitVec 16, mayAsk m ch = true → s.flintQha ch = true → Completes (.qwWrite m ch q) s (fun u =>
      (u.flintCh ch).qnew = some (s.tick + 1, q) ∧ (u.flintCh ch).qstale = false ∧ (u.flintCh ch).st = .running ∧ u.safe = s.safe))
  ) ∧ (
  ∀ (s : State), s.clocked = true →
    (∀ b : BitVec 16, b ≠ 0 → s.inRom 0 = true → Completes (.bootBudget (.thread 0) b false) s (fun u =>
      u.flint.armed = true ∧ (s.tick + BitVec.ofNat 64 (65536 * b.toNat), .budgetExpiry) ∈ u.due ∧ u.fault = s.fault)) ∧
    (∀ (m : Master) (b : BitVec 16), b ≠ 0 → m ≠ .thread 0 → Completes (.bootBudget m b false) s (fun u =>
      u.flint = s.flint ∧ Raises s u 0x09 (mid m) 0)) ∧
    (∀ (m : Master) (b : BitVec 16), b ≠ 0 → m ≠ .thread 0 → Completes (.bootBudget m b true) s (fun u =>
      u.flint = { s.flint with armed := false } ∧ (∀ x ∈ u.due, x.2 ≠ .budgetExpiry) ∧ Raises s u 0x09 (mid m) 0)) ∧
    (∀ m : Master, Completes (.bootConfirm m) s (fun u =>
      u = { s with due := u.due, flint := { s.flint with armed := false } } ∧ ∀ x ∈ u.due, x.2 ≠ .budgetExpiry)) ∧
    (s.isDue .budgetExpiry = true → s.flint.armed = true → s.flint.core.st ≠ .expired → Completes .budgetExpiry s (fun u =>
      u.flint.armed = false ∧ u.flint.core.st = .expired ∧ u.flint.coreReason = .boot ∧ u.safe.flint = true ∧ Raises s u 0x28 0x44 0)) ∧
    (s.isDue .budgetExpiry = true → s.flint.armed = false → Completes .budgetExpiry s (fun u => u = { s with due := u.due })) ∧
    (s.isDue .budgetExpiry = false → exec .budgetExpiry s = .next s)
  )

/-- R290, R297, R298, R299, R301: On its tick a fault of class Log changes nothing, a Channel fault reaches a RUNNING island as
a cell, a Halt puts SAFE on every lane and owes its recovery, a Lockout takes every island to Bedrock with its EN cleared;
RECLAIM kills the thread that the fault names, or disables the channel. A Halt whose recovery is due ends with a K0 reset,
unless a reset of a higher level is pending, which absorbs it, its lanes released, and is counted; with K - 1 recoveries in the
window of 65 536 x ESCW ticks it escalates instead, and 4 ticks later the device is locked out. Commands that complete:
FAULT_REACTION, HALT_RECOVERY, ESCALATION_LOCKOUT. -/
def Obligations.ReactionsAndRecovery : Prop :=
  (
  ∀ (s : State) (r : FaultRec), s.clocked = true → s.fault.react = [r] → r.act ≤ s.tick → s.fault.lockout = false →
    s.slate.st ≠ .committing →
    (r.mtx.getLsbD 3 = false →
      (r.cls = 0 → Completes .faultReaction s (fun u => u = { s with due := u.due, fault := { s.fault with react := [] } })) ∧
      (∀ n : IslandNo, r.cls = 1 → r.mid = mid (.island n) → s.running n = true → Completes .faultReaction s (fun u =>
        u.fault = { s.fault with react := [], chFault := s.fault.chFault ||| (1#16 <<< n.val) } ∧
        Queues u n .collector (.cmd .chanFault) ∧ IslandOnly { s with fault := u.fault } u n)) ∧
      (r.cls = 2 → Completes .faultReaction s (fun u =>
        u.fault = { s.fault with react := [], halt := true, restart := s.tick } ∧ (∀ n : IslandNo, u.isl[n].laneDn.safe = true) ∧
        (s.fault.escalating = false →
          (laterTick s.tick (s.tick + BitVec.ofNat 64 (256 * (s.cfgAt 0x6028).toNat)), .haltRecovery) ∈ u.due))) ∧
      (r.cls = 3 → Completes .faultReaction s (fun u =>
        u.fault.lockout = true ∧ u.fault.halt = false ∧ u.fault.escalating = false ∧ u.fault.rpend = s.fault.rpend ||| 2 ∧
        ∀ n : IslandNo, u.isl[n].en = false ∧ u.isl[n].power = (if s.isl[n].powered then .bedrock else s.isl[n].power)))) ∧
    (∀ t : CtxNo, r.mtx.getLsbD 3 = true → r.cls = 0 → r.mid = mid (.thread t) → s.facet.ctx[t].st ≠ .free →
      Completes .faultReaction s (fun u =>
        u.facet.ctx[t].st = .free ∧ u.facet.ctx[t].killed = true ∧ ∀ k : CtxNo, k ≠ t → u.facet.ctx[k] = s.facet.ctx[k])) ∧
    (∀ c : ChNo, r.mtx.getLsbD 3 = true → r.cls = 0 → r.mid = mid (.dma c) → Completes .faultReaction s (fun u =>
      u.dma[c].st = .idle ∧ u.facet = s.facet ∧ ∀ k : ChNo, k ≠ c → u.dma[k] = s.dma[k]))
  ) ∧ (
  ∀ (s : State), s.clocked = true →
    (s.fault.halt = true → s.fault.escalating = false →
      s.fault.restart + BitVec.ofNat 64 (256 * (s.cfgAt 0x6028).toNat) ≤ s.tick →
      let kept : Nat := (s.fault.hist.filter (fun t => s.tick.toNat - t.toNat ≤ 65536 * (s.cfgAt 0x6030).toNat)).length
      let k : Nat := fld (s.cfgAt 0x602C) 0 4
      (k = 0 ∨ kept + 1 < k → Completes .haltRecovery s (fun u =>
        u.fault.halt = false ∧ u.fault.hist = (s.tick :: s.fault.hist).take 15 ∧ u.fault.rpend = s.fault.rpend ||| 1 ∧
        (∀ n : IslandNo, u.isl[n].laneDn.safe = u.safeBit n) ∧
        (s.pow.k2due = false → s.flint.resetDue = false → u.pow.k0cnt = satAdd s.pow.k0cnt 1 ∧
          u.slate.keydata = Vector.replicate 8 0 ∧ u.link.loopAct = 0 ∧ u.fault.injSrc = 0 ∧ u.fault.injMid = 0) ∧
        (s.pow.k2due = true ∨ s.flint.resetDue = true → u.pow.k0cnt = s.pow.k0cnt ∧ u.slate = s.slate ∧ u.link = s.link))) ∧
      (k ≠ 0 → k ≤ kept + 1 → Completes .haltRecovery s (fun u =>
        u.fault.halt = true ∧ u.fault.escalating = true ∧ u.isl = s.isl ∧ Raises s u 0x2B 0x43 0 ∧
        (s.tick + 4, .escalationLockout) ∈ u.due))) ∧
    (s.fault.halt = false → Completes .haltRecovery s (fun u => u = { s with due := u.due })) ∧
    (s.isDue .escalationLockout = true → s.fault.escalating = true → s.fault.lockout = false → s.slate.st ≠ .committing →
      Completes .escalationLockout s (fun u =>
      u.fault.lockout = true ∧ u.fault.halt = false ∧ u.fault.escalating = false ∧
      ∀ n : IslandNo, u.isl[n].en = false ∧ u.isl[n].powered = false)) ∧
    (s.isDue .escalationLockout = true → s.fault.escalating = false →
      Completes .escalationLockout s (fun u => u = { s with due := u.due }))
  )

/-- R288, R292, R302, R303: A decision inside the grace gives the fault its class, which acts 4 ticks later with DEC HOST, and
ends its grace time; that record alone leaves the queue. One whose tag names no fault in its grace sets DLATE; at the end of the
grace the class of the matrix acts at once, and the record goes to the log. CHCLR sends a clear cell to every faulted island of
its mask; an injection raises its source in factory test mode; the host die raises HOST_HOT once per excess. That a queued fault
keeps the matrix word of its capture is the model's reading (log entry 16). Commands that complete: DECIDE, GRACE_EXPIRY, CHCLR,
FAULT_INJECT, HOST_HOT, HOST_HOT_END. -/
def Obligations.DecisionsAndChannelClears : Prop :=
  (
  ∀ (s : State) (m : Master) (dtag : Byte) (cls : BitVec 2), s.clocked = true → (m = .link ∨ ∃ t, m = .thread t) →
    (∀ x ∈ s.fault.dq, x.dtag = dtag → s.tick < x.act → (∀ y ∈ s.fault.dq, y.dtag = dtag → s.tick < y.act → y = x) →
      s.fault.logq.length < 16 → Completes (.decide m dtag cls) s (fun u =>
        u.fault.dq = s.fault.dq.erase x ∧ u.fault.dlate = s.fault.dlate ∧
        (∀ r ∈ [{ x with cls := BitVec.ofNat 2 (classClamp x.src.toNat cls.toNat), dec := 1, act := s.tick + 4 }],
          r ∈ u.fault.react ∧ r ∈ u.fault.logq) ∧
        (s.tick + 4, .faultReaction) ∈ u.due ∧ (s.due.Nodup → (x.act, .graceExpiry dtag) ∉ u.due) ∧
        ∀ e ∈ s.due, e ≠ (x.act, .graceExpiry dtag) → e ∈ u.due)) ∧
    ((∀ x ∈ s.fault.dq, x.dtag = dtag → x.act ≤ s.tick) →
      exec (.decide m dtag cls) s = .next { s with fault := { s.fault with dlate := true } }) ∧
    (∀ c : ChNo, Completes (.decide (.dma c) dtag cls) s (fun u => u.fault.dlate = s.fault.dlate ∧ Raises s u 0x09 (mid (.dma c)) 0)) ∧
    (∀ x ∈ s.fault.dq, x.dtag = dtag → x.act ≤ s.tick → (∀ y ∈ s.fault.dq, y.dtag = dtag → y.act ≤ s.tick → y = x) →
      s.fault.logq.length < 16 → x.mtx.getLsbD 2 = true → x.mtx.getLsbD 3 = false →
      (x.mtx.extractLsb' 0 2 = 0 → Completes (.graceExpiry dtag) s (fun u =>
        u.fault.dq = s.fault.dq.erase x ∧ { x with cls := 0, dec := 2 } ∈ u.fault.logq ∧ u.fault.react = s.fault.react ∧ u.isl = s.isl)) ∧
      (x.mtx.extractLsb' 0 2 = 2 → s.fault.lockout = false → Completes (.graceExpiry dtag) s (fun u =>
        u.fault.halt = true ∧ u.fault.dq = s.fault.dq.erase x ∧ { x with cls := 2, dec := 2 } ∈ u.fault.logq ∧
        ∀ n : IslandNo, u.isl[n].laneDn.safe = true))) ∧
    ((∀ x ∈ s.fault.dq, x.dtag = dtag → s.tick < x.act) → exec (.graceExpiry dtag) s = .next s)
  ) ∧ (
  ∀ (s : State), s.clocked = true →
    (∀ (m : Master) (mask : BitVec 16), (m = .link ∨ ∃ t, m = .thread t) → Completes (.chclr m mask) s (fun u =>
      u = { s with isl := u.isl } ∧
      ∀ n : IslandNo, (mask.getLsbD n.val = true → s.fault.chFault.getLsbD n.val = true → Queues u n .collector (.cmd .clear)) ∧
        (mask.getLsbD n.val = false ∨ s.fault.chFault.getLsbD n.val = false → u.isl[n] = s.isl[n]))) ∧
    (∀ (c : ChNo) (mask : BitVec 16), Completes (.chclr (.dma c) mask) s (fun u => u.isl = s.isl ∧ Raises s u 0x09 (mid (.dma c)) 0)) ∧
    (∀ (m : Master) (src mid : Byte),
      (s.pow.ftm = false → exec (.faultInject m src mid) s = .next s) ∧
      (s.pow.ftm = true → m = .link → srcListed src.toNat = true → Completes (.faultInject m src mid) s (fun u =>
        u.fault.injSrc = src ∧ u.fault.injMid = mid ∧
        ∃ r ∈ u.fault.react ++ u.fault.dq, r.src = src ∧ r.mid = mid ∧ r.inj = true ∧ r.seq = s.nextSeq src)) ∧
      (s.pow.ftm = true → m = .link → srcListed src.toNat = false → Completes (.faultInject m src mid) s (fun u =>
        u = { s with fault := { s.fault with injSrc := src, injMid := mid } })) ∧
      (s.pow.ftm = true → m ≠ .link → Completes (.faultInject m src mid) s (fun u =>
        u.fault.injSrc = s.fault.injSrc ∧ Raises s u 0x09 (Machine.mid m) 0))) ∧
    (s.pow.hot = false → Completes .hostHot s (fun u => u.pow = { s.pow with hot := true, above115 := true } ∧ Raises s u 0x30 0x48 0)) ∧
    (s.pow.hot = true → Completes .hostHot s (fun u => u = { s with due := u.due })) ∧
    (∀ b : Bool, Completes (.hostHotEnd b) s (fun u => u.pow = { s.pow with hot := false, above115 := b } ∧ u.fault = s.fault))
  )

/-- R343, R350, R355, R356, R370, R371: A K4 reset takes every island to Bedrock with its queues, keeps what the spec keeps (key
slots, and PEND and RPEND while VH stays), and records its cause; the first cause stands. At its release tick 0 begins, the
straps are sampled, and the boot ROM and the journal scan are due; a SAFE_N that is low sets its latch. A device that is ACTIVE
defers the reset of a removed card and of the die temperature, not its KILL marks: it becomes STANDBY, every island falls to
Bedrock, and the deferral ends within 1024 tk. While it lasts the host die sends those frames alone: writes, commands and events
change nothing. That registers return at the assertion and the tick at the release is the model's reading (log entry 18).
Commands that complete: BROWN_OUT, RST_N_ASSERT, PRSNT_N_REMOVAL, THERMAL_SHUTDOWN, DEFERRAL_END, K4_RELEASE. -/
def Obligations.K4ResetsAndDeferral : Prop :=
  (
  ∀ (s : State),
    let k4 (u : State) (c : Cause) (vh : Bool) : Prop :=
      u.pow.k4 = true ∧ u.pow.rcause = c ∧ u.pow.vhLost = vh ∧ u.pow.ps = .run ∧ u.cfg = [] ∧ u.slate.committed = false ∧
      u.slate.keys = s.slate.keys ∧ u.facet = Facet.reset ∧ u.evt = Events.reset ∧ u.tan = Tandem.reset ∧ u.pow.hck = s.pow.hck ∧
      u.fault = { Collector.reset with rpend := if vh then 0 else s.fault.rpend } ∧ u.flint.pend = (if vh then 0 else s.flint.pend) ∧
      u.nvm.cpend = (if vh then 0 else s.nvm.cpend) ∧
      ∀ n : IslandNo, u.isl[n].power = .bedrock ∧ u.isl[n].en = false ∧ u.isl[n].down = [] ∧ u.isl[n].led = Ledger.reset
    (s.pow.k4 = false →
      Completes .brownOut s (fun u => k4 u .brownOut true) ∧
      Completes .rstNAssert s (fun u => k4 u .rstN s.pow.vhLost) ∧
      (s.tan.role ≠ .active → Completes .prsntNRemoval s (fun u => k4 u .prsnt true ∧ u.pow.prsntLow = false)) ∧
      (s.tan.role ≠ .active → Completes .thermalShutdown s (fun u => k4 u .thermal s.pow.vhLost)) ∧
      (s.pow.deferral = true → Completes .deferralEnd s (fun u => k4 u s.pow.k4cause (s.pow.vhLost || s.pow.k4cause.vh)))) ∧
    (s.pow.k4 = true → Completes .rstNAssert s (fun u => u.pow.rcause = s.pow.rcause ∧ u.isl = s.isl ∧ u.flint.pend =
      (if s.pow.vhLost then 0 else s.flint.pend))) ∧
    (∀ c : ReleaseLands,
      (s.pow.k4 = true → s.pow.hck = true → Completes (.k4Release c) s (fun u =>
        u.tick = 0 ∧ u.pow.k4 = false ∧ u.pow.rcause = s.pow.rcause ∧ (8, .bootStart) ∈ u.due ∧ (40960, .scanDone) ∈ u.due ∧
        u.link.lmode = c.lmode ∧ u.link.st = (if c.lmode then .ready else .untrained) ∧
          (∀ n : IslandNo, u.isl[n].power = .bedrock ∧ u.isl[n].recd = []) ∧
        u.safe.safeN = (c.safeLow || s.safe.safeN) ∧ u.pow.almh0 = c.almh0 ∧ u.pow.almh1 = c.almh1 ∧
        (c.safeLow = true → Raises { s with tick := 0 } u 0x2A 0x46 0))) ∧
      (s.pow.k4 = false ∨ s.pow.hck = false → exec (.k4Release c) s = .next s))
  ) ∧ (
  ∀ (s : State), s.tan.role = .active → s.pow.hck = true → s.pow.k4 = false → s.pow.deferral = false → s.tick.toNat < 2 ^ 63 →
    let deferred (u : State) (c : Cause) : Prop :=
      u.pow.deferral = true ∧ u.pow.k4cause = c ∧ u.pow.k4 = false ∧ u.tan.role = .standby ∧
        (∃ f ∈ u.tan.sent, f.2.head? = some 0xA5500001) ∧
      (∃ t : Tick, u.due = [(t, .deferralEnd)] ∧ s.tick ≤ t ∧ t ≤ s.tick + 1024) ∧
      ∀ n : IslandNo, u.isl[n].power = if s.isl[n].powered then .bedrock else s.isl[n].power
    Completes .prsntNRemoval s (fun u => deferred u .prsnt) ∧ Completes .thermalShutdown s (fun u => deferred u .thermal) ∧
    ∀ (u : State) (m : Master) (a w : Word), u.pow.deferral = true →
      ∀ c ∈ [Instr.registerWrite m a w, .islandPowerWrite m w, .kill m (w.extractLsb' 0 8), .swWrite m w, .hostHot, .commandExecute],
        exec c u = .next u
  )

/-- R281, R353, R354, R355: The key word alone requests a K2 reset, 32 ticks ahead. K2 and the watchdog's K3 put Facet, DMA, the
link's queues and the open slate session at reset and start the boot ROM again, and keep the committed configuration, SRAM and
the islands' power, and what an instruction that has issued still does (R215); each waits for an NVM slice, and a K3 reset that
is pending absorbs K2. K3 drops RATE and the error counters as well. Commands that complete: RESET, SOFT_RESET, FLINT_RESET. -/
def Obligations.SoftAndFlintResets : Prop :=
  ∀ (s : State), s.clocked = true →
    let k2 (u : State) (c : Cause) : Prop :=
      u.pow.rcause = c ∧ u.pow.k2due = false ∧ u.facet = { Facet.reset with ctx := u.facet.ctx } ∧
      (∀ t : CtxNo, u.facet.ctx[t] = { Facet.reset.ctx[t] with
        flight := s.facet.ctx[t].flight, left := u.facet.ctx[t].left, old := u.facet.ctx[t].old }) ∧
          (∀ k : ChNo, u.dma[k] = Channel.reset) ∧ u.link.queue = [] ∧
      u.link.readq = [] ∧ u.slate.st = .empty ∧ u.slate.owner = none ∧ (slotFrom (s.tick + 8) 0, .bootStart) ∈ u.due ∧ u.nvm.st = .scan ∧
      u.cfg = s.cfg ∧ u.slate.committed = s.slate.committed ∧ u.mem = s.mem ∧ u.safe = s.safe ∧ u.tick = s.tick ∧
      ∀ n : IslandNo, u.isl[n].power = s.isl[n].power ∧ u.isl[n].en = s.isl[n].en
    (∀ (m : Master) (w : Word),
      (fld w 16 16 = 0xA5C3 → w.getLsbD 0 = true → s.pow.k2due = false → Completes (.reset m w) s (fun u =>
        u = { s with due := u.due, pow := { s.pow with k2due := true } } ∧ (s.tick + 32, .softReset) ∈ u.due)) ∧
      (fld w 16 16 ≠ 0xA5C3 ∨ w.getLsbD 0 = false → Completes (.reset m w) s (fun u => u = { s with due := u.due }))) ∧
    (s.isDue .softReset = true → s.pow.k2due = true → s.slate.st ≠ .committing → s.flint.resetDue = false → s.slicing = false →
      Completes .softReset s (fun u => k2 u .soft ∧ u.rate = s.rate)) ∧
    (s.isDue .softReset = true → s.pow.k2due = true → s.slate.st ≠ .committing → s.flint.resetDue = true → s.slicing = false →
      Completes .softReset s (fun u => u = { s with due := u.due, pow := { s.pow with k2due := false } })) ∧
    (∀ c ∈ [Instr.softReset, .flintReset],
      (s.isDue c = true → s.slicing = true → Completes c s (fun u => u = { s with due := u.due })) ∧
      (s.isDue c = false → exec c s = .next s)) ∧
    (s.isDue .flintReset = true → s.flint.resetDue = true → s.slate.st ≠ .committing → s.slicing = false →
      Completes .flintReset s (fun u =>
      k2 u .flint ∧ u.rate = 0 ∧ u.flint.resetDue = false ∧ u.pow.k1cnt = 0 ∧ u.link.errCrc = 0 ∧ u.clampLink = 0))

/-- R16, R17, R18, R20, R21, R267, R270, R273, R274, R352, R366, R369, R414: A loss of VMICA cancels the waits of an earlier
return; at a return each island on reservoir energy whose V_CV stands waits 8192 tk from the next itk, and its outputs then
follow what is demanded without it, unless VMICA or V_CV has gone again. In a stop the ledger does not learn of the return yet.
A stop of HCK holds every output, but a PWM that a safe state governs is on at 0xFFFF and off at every other duty until the
first itk after the stop, and the guard's integrator charges; clocked rows change nothing, or wait for the next edge. After 32
edges the integrator is discharged, and what the stop kept for the first tick after it is raised then. PARK asks the arbiter, 4
tk after its next edge, to lower every RUNNING island to rung 0, and keeps the requests; DORMANT saves EN in RESUME and kills
every island, and an ACTIVE device refuses it; RUN leaves Park by a request to the arbiter, which admits every island against
the free grains in 288 tk, and DORMANT with EN as RESUME. That leaving Park keeps BUSY for 288 tk is the model's reading (log
entry 41). Commands that complete: VMICA_UNDERVOLTAGE, VMICA_HOLD_END, VMICA_RETURN, HCK_STOP, INTEGRATOR_DISCHARGED,
HCK_RESUME, REQ_PARK, REQ_DORMANT, REQ_RUN. -/
def Obligations.SuppliesClockAndPowerStates : Prop :=
  (
  ∀ (s : State) (n : IslandNo),
    Completes .vmicaUndervoltage s (fun u =>
      u = { s with due := u.due, pow := { s.pow with vmicaOk := false } } ∧ ∀ e ∈ u.due, e ∈ s.due ∧ e.2 ≠ .vmicaHoldEnd n ∧
        e.2 ≠ .vmicaReturn) ∧
    (s.clocked = true → s.running n = true → s.isl[n].safe.noCarrier = true → s.isl[n].cvOk = true → Completes .vmicaReturn s (fun u =>
      u.pow.vmicaOk = true ∧ (s.tick + BitVec.ofNat 64 (8192 + s.itk), .vmicaHoldEnd n) ∈ u.due ∧ u.isl[n].safe = s.isl[n].safe)) ∧
    (s.pow.hck = false → s.pow.k4 = false → s.pow.deferral = false → Completes .vmicaReturn s (fun u =>
      u = { s with due := u.due, pow := { s.pow with vmicaOk := true } } ∧ (s.tick + 1, .vmicaReturn) ∈ u.due)) ∧
    (s.clocked = true → s.isDue (.vmicaHoldEnd n) = true → s.pow.vmicaOk = true → s.running n = true → s.isl[n].cvOk = true →
      s.isl[n].safe.noCarrier = true →
      Completes (.vmicaHoldEnd n) s (fun u =>
      u.isl[n].safe.noCarrier = false ∧ Follows u n ∧ ∀ k, k ≠ n → u.isl[k] = s.isl[k])) ∧
    (s.clocked = true → s.isDue (.vmicaHoldEnd n) = true → s.pow.vmicaOk = false ∨ s.isl[n].cvOk = false →
      Completes (.vmicaHoldEnd n) s (fun u => u = { s with due := u.due })) ∧
    (s.isDue (.vmicaHoldEnd n) = false → exec (.vmicaHoldEnd n) s = .next s)
  ) ∧ (
  ∀ (s : State),
    Completes .hckStop s (fun u =>
      u.pow = { s.pow with hck := false } ∧ u.safe = { s.safe with charged := true } ∧ u.tick = s.tick ∧ u.fault = s.fault ∧
      (∀ e ∈ u.due, e.2 ≠ .integratorDischarged) ∧
      ∀ n : IslandNo, (s.isl[n].pers ≠ .doPwm ∨ s.isl[n].inSafe = false → u.isl[n] = { s.isl[n] with imgSent := u.isl[n].imgSent }) ∧
        (s.isl[n].pers = .doPwm → s.isl[n].inSafe = true →
          u.isl[n].dout.sw = decide (s.isl[n].digTarget = 0xFFFF) ∧ u.isl[n].dout.run = false)) ∧
    (s.pow.hck = false → Completes .hckResume s (fun u =>
      u = { s with due := u.due, pow := { s.pow with hck := true, resumeAt := if s.pow.k4 then s.pow.resumeAt else some (s.tick + 1) } } ∧
      (s.tick + 32, .integratorDischarged) ∈ u.due)) ∧
    (s.pow.hck = true → exec .hckResume s = .next s) ∧
    (s.pow.hck = false → s.idle = s) ∧
    (s.pow.resumeAt = some s.tick → s.tick.toNat % 2 = 1 → s.resumed.safe = { s.safe with recStill := false, recSafeN := false } ∧
      (s.safe.recStill = true → ∃ r ∈ s.resumed.fault.react ++ s.resumed.fault.dq, r.src = 0x29 ∧ r.mid = 0x45 ∧ r.came = s.tick) ∧
      (s.safe.recSafeN = true → ∃ r ∈ s.resumed.fault.react ++ s.resumed.fault.dq, r.src = 0x2A ∧ r.mid = 0x46 ∧ r.came = s.tick)) ∧
    (∀ (t : Tick) (n : IslandNo), s.pow.hck = true → s.pow.resumeAt = some t → t < s.tick → s.tick.toNat % 2 = 0 → s.running n = true →
      s.isl[n].pers = .doPwm → s.isl[n].pwmMay = true → s.isl[n].dout.run = false →
        s.resumed.isl[n].dout.run = true ∧ s.resumed.isl[n].dout.duty = s.isl[n].digTarget)
  ) ∧ (
  ∀ (s : State) (m : Master), s.clocked = true →
    (s.pow.ps = .run → Completes (.reqPark m) s (fun u =>
      u.pow = { s.pow with ps := .parking, refused := false } ∧
      u.ledq = s.ledq ++ [(s.tick + BitVec.ofNat 64 ((4 - s.tick.toNat % 4) % 4 + 4), .park m)] ∧ u.isl = s.isl)) ∧
    (∀ came rest, s.tick.toNat % 4 = 0 → s.busy = false → s.slate.st ≠ .committing → came ≤ s.tick → s.ledq = (came, .park m) :: rest →
      s.pow.ps = .parking → ∀ n : IslandNo, s.running n = true → s.pers n ≠ .off → s.ledEdge.isl[n].led.admRung = 0 ∧
        s.ledEdge.isl[n].led.admHart = 0 ∧ s.ledEdge.isl[n].led.admChar = false ∧
        s.ledEdge.isl[n].led.reqRung = s.isl[n].led.reqRung) ∧
    (s.pow.ps ≠ .run → exec (.reqPark m) s = .next s) ∧
    (s.pow.ps ≠ .dormant → s.pow.ps ≠ .toDormant →
      (s.tan.role = .active → exec (.reqDormant m) s = .next { s with pow := { s.pow with refused := true } }) ∧
      (s.tan.role ≠ .active → Completes (.reqDormant m) s (fun u =>
        u.pow.ps = (if u.admitted = 0 then .dormant else .toDormant) ∧
        ∀ n : IslandNo, u.pow.resume.getLsbD n.val = s.isl[n].en ∧ u.isl[n].en = false ∧ u.isl[n].powered = false))) ∧
    (s.pow.ps = .parking ∨ s.pow.ps = .park → Completes (.reqRun m) s (fun u =>
      u.pow = { s.pow with ps := .run, refused := false } ∧
      u.ledq = s.ledq ++ [(s.tick + BitVec.ofNat 64 ((4 - s.tick.toNat % 4) % 4 + 4), .unpark m)] ∧ u.isl = s.isl)) ∧
    (∀ came rest, s.tick.toNat % 4 = 0 → s.busy = false → s.slate.st ≠ .committing → came ≤ s.tick → s.ledq = (came, .unpark m) :: rest →
      s.ledEdge.busy = true ∧ (s.tick + 288, .admissionComplete) ∈ s.ledEdge.due) ∧
    (s.pow.ps = .dormant → Completes (.reqRun m) s (fun u => u.pow.ps = .run ∧
      ∀ n : IslandNo, s.pow.resume.getLsbD n.val = true → s.mayPower n = true → s.isl[n].powered = false →
        u.isl[n].power = .charging ∧ u.isl[n].en = true)) ∧
    (s.pow.ps = .run → exec (.reqRun m) s = .next s)
  )

/-- R400, R401, R402, R403, R404, R405, R410: A request of a loopback that the islands can take sends its ECHO or test cell and
reads BUSY, one that they cannot ends FAILED with its reason, and one while a measurement runs, also one that holds the island
as the peer of a cross loop, counts as a clamp; a measurement's code returns in a STATUS cell once its settling and conversions
have passed, and not before. Commands that complete: ILOOP_ECHO, ILOOP_DAC_ADC, ILOOP_TERMINAL, ILOOP_CROSS, ILOOP_OFF,
MEASUREMENT_DONE. -/
def Obligations.IslandLoopbacks : Prop :=
  ∀ (s : State) (m : Master) (n : IslandNo) (w : BitVec 16), s.clocked = true → (m = .link ∨ ∃ t, m = .thread t) → s.present n = true →
    let busy : Prop := s.isl[n].loop.st = 1 ∨ (s.isl[n].loop.peer = true ∧ s.isl[peerOf n].loop.st = 1 ∧
      s.isl[peerOf n].loop.cross = true)
    (¬ busy →
      (s.isl[n].loop.term ≠ 3 → s.running n = true → s.isl[n].shadow = false → Completes (.iloopEcho m n w) s (fun u =>
        u.isl[n].loop.st = 1 ∧ u.isl[n].loop.pattern = w ∧ u.isl[n].loop.depth = 1 ∧ Queues u n .ledger (.cmd (.echo (~~~w ++ w))) ∧
        IslandOnly s u n)) ∧
      (s.isl[n].loop.term ≠ 3 → s.loopRefusal n 2 = none → Completes (.iloopDacAdc m n w) s (fun u =>
        u.isl[n].loop.st = 1 ∧ u.isl[n].loop.depth = 2 ∧ Queues u n .ledger (.cmd (.test 2)) ∧ IslandOnly s u n)) ∧
      (∀ term : BitVec 2, term ≠ 3 → s.loopRefusal n 3 = none → Completes (.iloopTerminal m n w term) s (fun u =>
        u.isl[n].loop.st = 1 ∧ u.isl[n].loop.depth = 3 ∧ u.isl[n].loop.term = term ∧ Queues u n .ledger (.cmd (.test 3)) ∧
        IslandOnly s u n)) ∧
      (s.isl[n].loop.term ≠ 3 → s.loopRefusal n 4 = none → Completes (.iloopCross m n w) s (fun u =>
        u.isl[n].loop.depth = 4 ∧ u.isl[n].loop.cross = true ∧ u.isl[peerOf n].loop.depth = 4 ∧ u.isl[peerOf n].loop.peer = true ∧
        Queues u n .ledger (.cmd (.test 4)) ∧ Queues u (peerOf n) .ledger (.cmd (.test 4)))) ∧
      Completes (.iloopOff m n) s (fun u => u.isl[n].loop.depth = 0 ∧ u.isl[n].hold = false ∧ u.isl[n].loop.st = s.isl[n].loop.st) ∧
      (∀ r : Nat, s.isl[n].loop.term ≠ 3 → s.loopRefusal n 2 = some r → Completes (.iloopDacAdc m n w) s (fun u =>
        u.isl[n].loop.st = 3 ∧ u.isl[n].loop.reason = BitVec.ofNat 4 r ∧ u.isl[n].down = s.isl[n].down ∧ IslandOnly s u n))) ∧
    (busy → ∀ c ∈ [Instr.iloopOff m n, .iloopEcho m n w, .iloopDacAdc m n w, .iloopTerminal m n w 0, .iloopCross m n w],
      exec c s = .next (s.clamped m 1)) ∧
    (∀ code : BitVec 18, s.running n = true → s.isl[n].hold = true → s.isl[n].loop.st = 1 → 2 ≤ s.isl[n].loop.depth.val →
      ∀ t, s.isl[n].loop.doneAt = some t →
      (t ≤ s.tick → Completes (.measurementDone n code) s (fun u =>
        (∃ c ∈ u.isl[n].up, c.data = .status (.measured code) ∧ c.sent = false) ∧ IslandOnly s u n)) ∧
      (s.tick < t → exec (.measurementDone n code) s = .next s)) ∧
    (∀ code : BitVec 18, s.isl[n].loop.doneAt = none → exec (.measurementDone n code) s = .next s)

/-- R406, R407, R408, R409: Three right words of the link in a row unlock factory test mode while TEST_N is low, a wrong one
starts the sequence over, and TEST_N high ends it on the first tick on which its level is sampled; each TAP instruction becomes
current under its code, without HCK as well, and those that give the host lands to the scan demand the SAFE marks. Commands that
complete: UNLOCK, TEST_N_HIGH, TEST_N_LOW, EXTEST, HIGHZ, CLAMP, IDCODE, SAMPLE_PRELOAD, BYPASS, TAP_RESET. -/
def Obligations.TestAccess : Prop :=
  ∀ (s : State),
    (∀ w : Word, s.clocked = true →
      (s.pow.testLow = true → w = unlockWord s.pow.ustep → s.pow.ustep ≠ 2 →
        exec (.unlock .link w) s = .next { s with pow := { s.pow with ustep := s.pow.ustep + 1 } }) ∧
      (s.pow.testLow = true → w = unlockWord s.pow.ustep → s.pow.ustep = 2 →
        exec (.unlock .link w) s = .next { s with pow := { s.pow with ustep := 0, ftm := true } }) ∧
      (s.pow.testLow = false ∨ w ≠ unlockWord s.pow.ustep →
        exec (.unlock .link w) s = .next { s with pow := { s.pow with ustep := 0 } }) ∧
      (∀ t : CtxNo, s.pow.ftm = false → Completes (.unlock (.thread t) w) s (fun u =>
        u.pow.ustep = 0 ∧ u.pow.ftm = false ∧ Raises s u 0x09 (mid (.thread t)) 0))) ∧
    (s.clocked = true → Completes .testNHigh s (fun u =>
      u = { s with due := u.due, pow := { s.pow with testLow := false, ftm := false, ustep := 0 } })) ∧
    (s.pow.hck = false → s.pow.k4 = false → Completes .testNHigh s (fun u =>
      u = { s with due := u.due, pow := { s.pow with testLow := false } } ∧ (s.tick + 1, .testNHigh) ∈ u.due)) ∧
    Completes .testNLow s (fun u => u = { s with due := u.due, pow := { s.pow with testLow := true } } ∧ ∀ e ∈ u.due, e.2 ≠ .testNHigh) ∧
    (∀ c ∈ [((Instr.extest, (0 : BitVec 4), true) : Instr × BitVec 4 × Bool), (.highz, 4, true), (.clamp, 5, true), (.idcode, 1, false),
            (.samplePreload, 2, false), (.bypass, 0xF, false), (.tapReset, 1, false)],
      Completes c.1 s (fun u => u.pow = { s.pow with ir := c.2.1 } ∧ u.safe = { s.safe with scanMark := c.2.2 } ∧
        (u.markAll = false → ∀ n : IslandNo, u.isl[n].safe.mark = false)))

/-- R32, R84, R118, R121, R146, R172, R266, R335, R336, R401, R402, R403: An output word that lands becomes the command and OUT,
and the stage follows; under FORCE it is ignored, and in PREP, service hold or a shadow stage it changes nothing. A landed
OUTWORD ends STALE. PREP de-energises the stages; APPLY brings the shadowed record into force, and a new personality starts at
rung 0 without a command; SHADOW and UNSHADOW set and end the shadow stage; ECHO returns its word with the halves exchanged.
That an output word between PREP and APPLY is discarded is the model's reading (log entry 48), as is the delay of the image
freeze (log entry 12). Commands that complete: OUTWORD, OUTPUT_COMMAND, CMD_PREP, CMD_APPLY, CMD_SHADOW, CMD_UNSHADOW, CMD_ECHO.
-/
def Obligations.OutputAndCommandCells : Prop :=
  (
  ∀ (s : State) (n : IslandNo) (m : Master) (w : Word), s.clocked = true →
    ∀ c ∈ [Instr.outword n w, .outputCommand n m w], s.running n = true → s.isl[n].pers.output = true →
      let by_ : Master := if c = .outword n w then .link else m
      let rest (u : State) : Prop := (∀ k, k ≠ n → u.isl[k] = s.isl[k]) ∧ u.mem = s.mem ∧ u.fault = s.fault ∧ u.cfg = s.cfg ∧
        (c = .outword n w → u.isl[n].stale = false)
      (s.isl[n].prep = false → s.isl[n].hold = false → s.isl[n].shadow = false →
        (s.isl[n].lane.force = false → (s.isl[n].pers.anaOut = true → s.isl[n].engineTk = 0) → Completes c s (fun u =>
          u.isl[n].cmd = { en := w.getLsbD 31, alm := w.getLsbD 30, value := w.extractLsb' 0 16, raw := false, req := by_ } ∧
          u.isl[n].outBit = w.getLsbD 31 ∧ u.isl[n].lastOut = w ∧ Follows u n ∧ rest u)) ∧
        (s.isl[n].lane.force = false → s.isl[n].pers.anaOut = true → s.isl[n].engineTk ≠ 0 → Completes c s (fun u =>
          (s.tick + BitVec.ofNat 64 s.isl[n].engineTk, .word n { en := w.getLsbD 31, alm := w.getLsbD 30, value := w.extractLsb' 0 16, raw := false, req := by_ }) ∈ u.transit ∧
          u.isl[n].outBit = w.getLsbD 31 ∧ u.isl[n].lastOut = w ∧ rest u)) ∧
        (s.isl[n].lane.force = true → Completes c s (fun u =>
          u.isl[n].cmd = s.isl[n].cmd ∧ u.isl[n].outBit = w.getLsbD 31 ∧ Follows u n ∧ rest u))) ∧
      (s.isl[n].prep = true ∨ s.isl[n].hold = true ∨ (s.isl[n].shadow = true ∧ s.isl[n].shadowUntilCmd = false) →
        Completes c s (fun u => u.isl[n].cmd = s.isl[n].cmd ∧ u.isl[n].dout = s.isl[n].dout ∧ u.isl[n].ana = s.isl[n].ana ∧ rest u))
  ) ∧ (
  ∀ (s : State) (n : IslandNo), s.clocked = true → s.running n = true →
    let rest (u : State) : Prop := (∀ k, k ≠ n → u.isl[k].recd = s.isl[k].recd) ∧ u.mem = s.mem ∧
      u.fault = s.fault ∧ u.cfg = s.cfg
    Completes (.cmdPrep n) s (fun u =>
      u.isl[n].prep = true ∧ Follows u n ∧ (s.tick + BitVec.ofNat 64 (12 + s.itk), .freeze n) ∈ u.transit ∧ rest u) ∧
    (∀ l, s.isl[n].recShadow = some l → Completes (.cmdApply n) s (fun u =>
      u.isl[n].recShadow = none ∧ u.isl[n].prep = false ∧ u.isl[n].recOut = false ∧ u.isl[n].hold = false ∧
      u.isl[n].recd = (s.isl[n].takeRecord l).recd ∧ u.isl[n].mem = (s.isl[n].takeRecord l).mem ∧
      u.isl[n].safe.ctlPreset = (u.isl[n].reg 0x30).extractLsb' 0 16 ∧ Follows u n ∧
      (u.isl[n].pers ≠ s.isl[n].pers → u.isl[n].rungs = Rungs.zero ∧ u.isl[n].cmd = OutCmd.reset) ∧ rest u)) ∧
    (s.isl[n].recShadow = none → Completes (.cmdApply n) s (fun u => u.isl[n].recd = s.isl[n].recd ∧
      u.isl[n].prep = s.isl[n].prep ∧ rest u)) ∧
    Completes (.cmdShadow n) s (fun u =>
      u.isl[n].shadow = true ∧ u.isl[n].din.brk = false ∧ u.isl[n].hold = false ∧ Follows u n ∧ rest u) ∧
    Completes (.cmdUnshadow n) s (fun u => u.isl[n].shadow = false ∧ u.isl[n].cmd = s.isl[n].cmd ∧ Follows u n ∧ rest u) ∧
    (∀ w : Word, Completes (.cmdEcho n w) s (fun u =>
      (∃ c ∈ u.isl[n].up, c.data = .status (.echo (swapHalves w)) ∧ c.sent = false) ∧ u.isl[n].cmd = s.isl[n].cmd ∧ rest u))
  )

/-- R35, R38, R86, R118, R229, R234, R255: A RADDR cell that lands is answered, 4 tk later, with the word of island SRAM or the
register that its address names, and the answer goes to the requester whose read its cell carries, else to that of the oldest
read: the read queue, the waiting thread, or the channel. WADDR sets the address; a WDATA word of a slate joins the shadow of
the record, any other goes, in the byte lanes of a narrow store, to island SRAM and nowhere else in it, or to its register; the
address steps by 4. The byte order of a word in island SRAM is the model's choice (log entry 9). Commands that complete: RADDR,
RDATA, WADDR, WDATA. -/
def Obligations.IslandAccessCells : Prop :=
  (
  ∀ (s : State) (n : IslandNo), s.clocked = true →
    (∀ a : Word, s.running n = true →
      let v : Word := if a.getLsbD 31 then s.isl[n].word (fld a 0 14) else (s.islRegRead n (fld a 0 14)).2
      Completes (.raddr n a) s (fun u =>
        (∃ c ∈ u.isl[n].up, c.data = .rdata v ∧ c.sent = false ∧ c.since = s.tick + 4 ∧ c.req = s.requester n (.raddr a)) ∧
        u.isl[n].reads.length = s.isl[n].reads.length + 1 ∧ IslandOnly s u n)) ∧
    (∀ (w a : Word),
      let read : Option (Master × Word) := match flying (.rdata w) s.isl[n].up with
        | some c => some (c.req, c.addr)
        | none => s.isl[n].reads.head?
      let left (u : State) (m : Master) : Prop := u.isl[n].reads = s.isl[n].reads.erase (m, a)
      (read = some (.link, a) → Completes (.rdata n w) s (fun u => u.link.readq = fillRead n (some w) s.link.readq ∧ left u .link)) ∧
      (∀ c : ChNo, read = some (.dma c, a) → s.dma[c].st = .move → s.dma[c].reading ≠ 0 → Completes (.rdata n w) s (fun u =>
        (s.dma[c].buf = none → u.dma[c].buf = some w) ∧ (s.dma[c].buf ≠ none → u.dma[c].more = s.dma[c].more ++ [w]) ∧
        u.dma[c].reading = s.dma[c].reading - 1 ∧ left u (.dma c))) ∧
      (∀ (t : CtxNo) rd k ad e, read = some (.thread t, a) → s.facet.ctx[t].stall = .load rd k n ad none e →
        Completes (.rdata n w) s (fun u =>
          u.facet.ctx[t].stall = .load rd k n ad (some w) false ∧ (s.tick, .islandLoadReturn t) ∈ u.due ∧ left u (.thread t))))
  ) ∧ (
  ∀ (s : State) (n : IslandNo), s.clocked = true → s.running n = true →
    (∀ a : Word, Completes (.waddr n a) s (fun u => u.isl[n].waddr = a ∧ u.isl[n].mem = s.isl[n].mem ∧ ∀ k, k ≠ n →
      u.isl[k] = s.isl[k])) ∧
    (∀ w : Word, let a := s.isl[n].waddr; let off := fld a 0 14; let req := s.requester n (.wdata w); let lanes := s.lanesOf n w
      (req = .slate → Completes (.wdata n w) s (fun u =>
        u.isl[n].waddr = a + 4 ∧ u.isl[n].mem = s.isl[n].mem ∧ u.isl[n].recd = s.isl[n].recd ∧
        u.isl[n].recShadow = some (s.isl[n].recShadow.getD [] ++ [(if a.getLsbD 31 then off + 0x10000 else off, w)]))) ∧
      (req ≠ .slate → a.getLsbD 31 = true → Memory.wf s.isl[n].mem = true → Completes (.wdata n w) s (fun u =>
        u.isl[n].waddr = a + 4 ∧ u.isl[n].word off = mergeLanes lanes (s.isl[n].word off) w ∧ Memory.wf u.isl[n].mem = true ∧
        ((∀ t, req ≠ .thread t) → u.isl[n].word off = w) ∧
        (∀ b : Nat, b < off ∨ off + 4 ≤ b → u.isl[n].byte b = s.isl[n].byte b) ∧ ∀ k, k ≠ n → u.isl[k] = s.isl[k])) ∧
      (req ≠ .slate → a.getLsbD 31 = false → off = 0x44 → s.isl[n].pers = .diCnt → Completes (.wdata n w) s (fun u =>
        u.isl[n].din.count = mergeLanes lanes s.isl[n].din.count w ∧ u.isl[n].mem = s.isl[n].mem)))
  )

/-- R40, R83, R204, R260, R288, R295, R352, R401, R404: What arrives from an island: SYNC sets the SEQ that is expected; a
RESULT with VAL gives the image its value, and joins the result stream if its entry asks for it; a STATUS cell raises its fault
in the island's name, ends a measurement, or reports its reservoir, which starts or ends the 8192 tk of delivery after an
under-voltage. A source that no island reports raises nothing. Commands that complete: SYNC, RESULT_CELL, STATUS_CELL,
VMICA_HOLD_END. -/
def Obligations.IslandReportsArrive : Prop :=
  ∀ (s : State) (n : IslandNo), s.clocked = true →
    (∀ q : BitVec 2, Completes (.sync n .down q) s (fun u => u.isl[n].dnRx = q + 1 ∧ u.isl[n].upRx = s.isl[n].upRx) ∧
      Completes (.sync n .up q) s (fun u => u.isl[n].upRx = q + 1 ∧ u.isl[n].dnRx = s.isl[n].dnRx)) ∧
    (∀ w : Word, s.running n = true →
      let marks : BitVec 19 := match flying (.result w) s.isl[n].up with | some c => c.xref | none => s.isl[n].valueMarks
      Completes (.resultCell n w) s (fun u =>
      (w.getLsbD 18 = true → s.isl[n].hold = false →
        u.isl[n].ana.value = w.extractLsb' 0 16 ∧ u.isl[n].ana.valid = !marks.getLsbD 1 ∧ u.isl[n].ana.new = true) ∧
      (w.getLsbD 18 = false → u.isl[n].ana = s.isl[n].ana) ∧
      u.isl[n].rstream = (if (s.isl[n].slotEntry (Fin.ofNat 20 (fld w 27 5))).getLsbD 22 ∧ s.isl[n].rstream.length < 32 then
        s.isl[n].rstream ++ [w] else s.isl[n].rstream) ∧ IslandOnly s u n)) ∧
    (∀ src kind d,
      (src ∉ [0x10, 0x31, 0x4C, 0x4D, 0x4E] → src < 0x40 ∨ 0x4B < src → Completes (.statusCell n (.fault src kind d)) s (fun u =>
        u.fault = s.fault ∧ IslandOnly s u n)) ∧
      (src ∈ [0x10, 0x31, 0x4C, 0x4D, 0x4E] ∨ (0x40 ≤ src ∧ src ≤ 0x4B) → Completes (.statusCell n (.fault src kind d)) s (fun u =>
      (∃ r ∈ u.fault.react ++ u.fault.dq, r.src = src ∧ r.mid = mid (.island n) ∧ r.kind = kind ∧ r.detail = d ∧ r.came = s.tick) ∧
      (diagSource src = true → s.isl[n].imgFrozen = none → u.isl[n].diagEv = true)))) ∧
    (∀ w : Word, s.isl[n].loop.st = 1 → s.isl[n].loop.depth = 1 → Completes (.statusCell n (.echo w)) s (fun u =>
      u.isl[n].loop.st = 2 ∧ u.isl[n].loop.code = (s.tick - s.isl[n].loop.start).extractLsb' 0 18 ∧
      u.isl[n].loop.pass = decide (w = (s.isl[n].loop.pattern ++ ~~~s.isl[n].loop.pattern : BitVec 32)) ∧ IslandOnly s u n)) ∧
    (∀ code : BitVec 18, s.isl[n].loop.st = 1 → 2 ≤ s.isl[n].loop.depth.val → Completes (.statusCell n (.measured code)) s (fun u =>
      u.isl[n].loop.st = 2 ∧ u.isl[n].loop.code = code ∧
      u.isl[n].loop.pass = loopPass s.isl[n].loop.depth.val s.isl[n].loop.pattern code ∧ IslandOnly s u n)) ∧
    (∀ ok : Bool, Completes (.statusCell n (.cvOk ok)) s (fun u => u.isl[n].cvOk = ok ∧ IslandOnly s u n ∧
      (s.running n = true → ok = false → ∀ e ∈ u.due, e.2 ≠ .vmicaHoldEnd n) ∧
      (s.running n = true → ok = true → s.isl[n].cvOk = false → s.pow.vmicaOk = true → s.isl[n].safe.noCarrier = true →
        (s.tick + BitVec.ofNat 64 (8192 + s.itk), .vmicaHoldEnd n) ∈ u.due)))

/-- R39, R40: A cell that is corrupted, or whose acknowledgement is, is not acknowledged 24 tk after its slot: the first time it
and every cell behind it that has left are sent again, in order; the second time it is dropped: the drop is counted, MICA_CELL
is raised and a SYNC cell with its SEQ goes out in its place. An acknowledged cell leaves the queue. Where the numbers of the
next cells stand after a drop is the model's reading (log entry 52). Commands that complete: CELL_RETRANSMIT. -/
def Obligations.CellsAreRepeatedThenDropped : Prop :=
  (∀ (s : State) (n : IslandNo), s.clocked = true →
    (∀ c l, s.isl[n].down = c :: l → c.sent = true → exec (.cellRetransmit n .down) s = .next (s.modIsl n (fun i =>
      { i with down := { c with bad := true } :: l }))) ∧
    (∀ c l, s.isl[n].up = c :: l → c.sent = true → exec (.cellRetransmit n .up) s = .next (s.modIsl n (fun i =>
      { i with up := { c with bad := true } :: l }))) ∧
    ((∀ c ∈ s.isl[n].down, c.sent = false) → exec (.cellRetransmit n .down) s = .next s) ∧
    ((∀ c ∈ s.isl[n].up, c.sent = false) → exec (.cellRetransmit n .up) s = .next s)) ∧
  (∀ (s : State) (n : IslandNo) (c : DownCell) (l : List DownCell), s.isl[n].down = c :: l → c.sent = true → c.slot + 24 ≤ s.tick →
    let u := s.ackDown n
    let back (x : DownCell) : DownCell := if x.sent then { x with sent := false, bad := false, again := true } else x
    (c.got = true → c.bad = false → u.isl[n].down = l ∧ u.isl[n].cellDrop = s.isl[n].cellDrop ∧ u.fault = s.fault) ∧
    (c.got = false ∨ c.bad = true → c.failed = false →
      u = s.modIsl n (fun i => { i with down := { c with sent := false, bad := false, again := true, failed := true } :: l.map back })) ∧
    (∀ w : Word, c.got = false ∨ c.bad = true → c.failed = true → c.data = .outword w → c.req ≠ .slate → c.sync = false →
      u.isl[n].cellDrop = satAdd s.isl[n].cellDrop 1 ∧ u.isl[n].stale = true ∧ Raises s u 0x10 (mid (.island n)) 0 ∧
      ∃ x, u.isl[n].down = x :: reseq (c.seq + 1) (l.map back) ∧ x.data = .sync c.seq ∧ x.seq = c.seq ∧ x.sync = true ∧ x.again = true)) ∧
  (∀ (s : State) (n : IslandNo) (c : UpCell) (l : List UpCell), s.isl[n].up = c :: l → c.sent = true → c.slot + 24 ≤ s.tick →
    let u := s.ackUp n
    let back (x : UpCell) : UpCell := if x.sent then { x with sent := false, bad := false, again := true } else x
    (c.got = true → c.bad = false → u = s.modIsl n (fun i => { i with up := l })) ∧
    (c.got = false ∨ c.bad = true → c.failed = false →
      u = s.modIsl n (fun i => { i with up := { c with sent := false, bad := false, again := true, failed := true } :: l.map back })))

/-- R65, R66, R67, R69, R70, R72, R75, R93, R94, R99, R100: The link trains on the training word, on an eye found within 192 of
its words and on the echo of idle, falls back when the word is lost, sends the training word aligned to the downstream words in
ECHO, and starts READY with empty queues, E free and no result; RETRAIN takes a READY link back to UNTRAINED at the end of the
tail, and nothing more is awaited of a frame in progress. A header with SYNC 0xB4 after 16 idle ticks opens its frame and its
twin, a CYCLE header is a sample point, and any other header is a SYNC error, after which the deframer takes none until 16 idle
ticks have passed; a reserved TYPE or a LEN out of range is a FORMAT error. At DOWN_LIMIT the link falls back. In bring-up mode
CS_N is low for the announced words and 8 ticks, MISO is released when it rises, and a rise before the CRC is a FORMAT error.
That the header row runs on its header tick, and that an overrun header counts as a SYNC error, are the model's choices (log
entries 35 and 55). Commands that complete: TP_LOCK, EYE_FOUND, TRAINING_LOST, ECHO_IDLE, LINK_CTRL_RETRAIN, RETRAIN_APPLY,
LOOP_APPLY, FRAME_HEADER, CS_EARLY_RISE. -/
def Obligations.LinkTrainsAndHeaders : Prop :=
  (
  ∀ (s : State),
    (s.awake = true → s.link.lmode = false → s.link.st = .untrained →
      Completes .tpLock s (fun u => u = { s with free := s.free + 1, link := { s.link with
        st := .lock, lockAt := s.tick, tap0 := u.link.tap0, tap1 := u.link.tap1 } })) ∧
    (∀ t0 t1 : BitVec 4, s.awake = true → s.link.st = .lock → s.tick ≤ s.link.lockAt + 8 * 188 →
      exec (.eyeFound t0 t1) s = .next { s with link := { s.link with st := .echo, tap0 := t0, tap1 := t1, echoAt := s.tick } }) ∧
    (∀ m k : Nat, k < 8 → 8 * m + k < 2 ^ 64 → s.link.st = .echo → s.tick = s.link.lockAt + BitVec.ofNat 64 (8 * m + k) →
      s.upstreamBits = if s.link.echoAt + BitVec.ofNat 64 k ≤ s.tick then laneBits 0x6C93A55A k else 0) ∧
    (s.awake = true → s.link.st = .lock → exec .trainingLost s = .next { s with link := { s.link with st := .untrained } }) ∧
    (s.awake = true → s.link.st = .echo → Completes .echoIdle s (fun u =>
      u.link = { s.link with st := .ready, eFree := true, queue := [], readq := [], pres := 15, cur := none, deaf := false } ∧
      u = { s with link := u.link, isl := u.isl, due := u.due })) ∧
    (∀ m : Master, s.clocked = true → s.link.lmode = false → s.link.st = .ready → Completes (.linkCtrlRetrain m) s (fun u =>
      u = { s with due := u.due, link := { s.link with retrain := true } } ∧ (laterTick s.tick s.link.tail, .retrainApply) ∈ u.due)) ∧
    (∀ m : Master, s.link.lmode = true ∨ s.link.st ≠ .ready → exec (.linkCtrlRetrain m) s = .next s) ∧
    (s.clocked = true → s.link.retrain = true → s.link.st = .ready → Completes .retrainApply s (fun u =>
      u = { s with due := u.due, link := { s.link with st := .untrained, retrain := false, cur := none } } ∧
      ∀ e ∈ u.due, isFrame e.2 = false)) ∧
    (s.clocked = true → Completes .loopApply s (fun u => u = { s with due := u.due, link := { s.link with loopAct := s.link.loopReq } }))
  ) ∧ (
  ∀ (s : State) (hdr : Word) (idle : Nat),
    let legal := lenLegal (fld hdr 20 4) (fld hdr 0 16)
    let empty : Word := 0x4B000000 ||| (hdr &&& 0x00FF0000)
    let early : Prop := idle < 16 ∨ s.midFrame = true
    let below : Prop := s.link.bad + 1 < s.link.downLimit.toNat
    let tailTk : Nat := if s.link.lmode then 24 else 32
    (s.linkReady = true →
      (early → s.link.deaf = true → exec (.frameHeader hdr idle) s = .next s) ∧
      ((early ∧ s.link.deaf = false) ∨ (¬ early ∧ fld hdr 24 8 ≠ 0xB4) → Completes (.frameHeader hdr idle) s (fun u =>
        u.link.errSync = satAdd s.link.errSync 1 ∧ u.link.deaf = true ∧ Raises s u 0x03 0x00 0 ∧
        (below → u.link.bad = s.link.bad + 1 ∧ u.link.evDown = s.link.evDown) ∧
        (¬ below → u.link.bad = 0 ∧ u.link.evDown = satAdd s.link.evDown 1 ∧
          Raises { s with fault := { s.fault with seq := s.fault.seq + 1 } } u 0x04 0x00 0) ∧
        u.link.st = (if below ∨ s.link.lmode then .ready else .untrained) ∧
        u.link.cur = (if below ∨ s.link.lmode then s.link.cur else none) ∧
        (s.link.loopAct = 1 → u.link.twin = [hdr]) ∧ (s.link.loopAct ≠ 1 → u.link.twin = s.link.twin))) ∧
      (¬ early → fld hdr 24 8 = 0xB4 → legal = true → Completes (.frameHeader hdr idle) s (fun u =>
        (∃ f, u.link.cur = some f ∧ f.hdr = hdr ∧ f.tick = s.tick ∧ f.shortTail = decide (idle < tailTk) ∧ f.void = false) ∧
        u.link.twin = (if s.link.loopAct = 1 then [hdr] else [0x4B000000 ||| (hdr &&& 0x00FFFFFF)]) ∧ u.link.twinAt = s.tick + 8 ∧
        u.link.grid = s.tick ∧ u.link.deaf = false ∧
        (s.link.lmode = true → u.link.csEnd = s.tick + BitVec.ofNat 64 (32 * (fld hdr 0 16 + 2) + 8)) ∧
        u.link.tail = s.tick + BitVec.ofNat 64 (s.link.wordTk * (fld hdr 0 16 + 2) + 32) ∧
        u.link.evShort = (if idle < tailTk then satAdd s.link.evShort 1 else s.link.evShort) ∧ u.fault = s.fault ∧
        (fld hdr 20 4 = 1 → (∀ l ∈ linesOf s 0x120, (s.tick, .eventPulse l) ∈ u.due) ∧ ∀ n : IslandNo,
          u.isl[n].cos = false ∧ u.isl[n].diagEv = false ∧ u.isl[n].din.rise = false ∧ u.isl[n].din.fall = false ∧
            u.isl[n].ana.new = false) ∧
        (fld hdr 20 4 ≠ 1 → u = { s with link := u.link }))) ∧
      (¬ early → fld hdr 24 8 = 0xB4 → legal = false → Completes (.frameHeader hdr idle) s (fun u =>
        u.link.errFormat = satAdd s.link.errFormat 1 ∧ u.link.pres = 4 ∧ u.link.pseq = hdr.extractLsb' 16 4 ∧ u.link.cur = none ∧
        u.link.deaf = true ∧ Raises s u 0x03 0x00 0 ∧
        (s.link.loopAct ≠ 1 → u.link.twin = [empty, crc32c [empty]])))) ∧
    (s.linkReady = false → exec (.frameHeader hdr idle) s = .next s) ∧
    (∀ f, s.awake = true → s.link.lmode = true → s.link.cur = some f → Completes (.csEarlyRise false) s (fun u =>
      u.link.errFormat = satAdd s.link.errFormat 1 ∧ u.link.pres = 4 ∧ u.link.cur = none ∧ u.miso = none ∧ Raises s u 0x03 0x00 0)) ∧
    (s.awake = true → s.link.lmode = true → Completes (.csEarlyRise true) s (fun u => u.miso = none ∧
      u = { s with link := { s.link with csEnd := if s.tick < s.link.csEnd then s.tick else s.link.csEnd } }))
  )

/-- R73, R74, R76, R78, R85, R92, R93, R97: A frame takes effect two ticks after its last bit, no sooner; the check a tick
before tells whether the queue has a place. A lane loopback and a frame echo send the payload upstream as soon as it has come.
One whose CRC fails is discarded with its result and LINK_CRC. A command frame in sequence is queued and moves EXP_SEQ, one that
finds no place is BUSY, one already taken is a duplicate, and any other is a sequence error; an IDLE frame ends with its result
alone; in a frame echo no frame but CTRL executes. That a good frame voided by a reset leaves the count of bad frames is the
model's choice (log entry 55). Commands that complete: CYCLE, REGW, REGR, BULK, IDLE_FRAME. -/
def Obligations.FramesAreJudged : Prop :=
  ∀ (s : State) (p : List Word) (crc : Word) (f : CurFrame), s.awake = true → s.link.cur = some f → frameLen f.hdr = p.length →
    let good := crc32c (f.hdr :: p)
    let ok : BitVec 4 := if f.shortTail then 5 else 0
    let rows : List (Instr × Nat) := [(.cycle p crc, 1), (.regw p crc, 2), (.regr p crc, 3), (.bulk p crc, 4), (.idleFrame p crc, 6)]
    let h : Word := 0x4B000000 ||| (f.hdr &&& 0x00FFFFFF)
    let sent : List Word :=
      if s.link.loopAct = 2 then (h :: p) ++ [crc32c (h :: p)] else if s.link.loopAct = 1 then (f.hdr :: p) ++ [crc] else s.link.twin
    let linkOnly (u : State) : Prop := u = { s with link := u.link, due := u.due } ∧ u.link.cur = none ∧ u.link.pseq = frameSeq f.hdr
    (∀ c ∈ rows, frameType f.hdr = c.2 → s.tick < f.tick + BitVec.ofNat 64 (s.link.wordTk * (p.length + 2) + 2) →
      Completes c.1 s (fun u =>
      u = { s with due := u.due, link := { s.link with twin := sent } } ∧
      (f.tick + BitVec.ofNat 64 (s.link.wordTk * (p.length + 2) + 2), c.1) ∈ u.due)) ∧
    (s.tick + 1 = f.tick + BitVec.ofNat 64 (s.link.wordTk * (p.length + 2) + 2) → s.crcCheck = { s with link := { s.link with
      cur := some { f with
        busy := decide (2 ≤ s.link.queue.length ∨ (frameType f.hdr = 3 ∧ 64 < p.length + s.link.readq.length)) } } }) ∧
    (f.tick + BitVec.ofNat 64 (s.link.wordTk * (p.length + 2) + 2) ≤ s.tick →
      (∀ c ∈ rows, frameType f.hdr = c.2 → f.void = true → Completes c.1 s (fun u =>
        linkOnly u ∧ u.link.pres = 15 ∧ u.link.queue = s.link.queue ∧ u.link.expSeq = s.link.expSeq)) ∧
      (∀ c ∈ rows, frameType f.hdr = c.2 → f.void = false → crc ≠ good → Completes c.1 s (fun u =>
        u.link.errCrc = satAdd s.link.errCrc 1 ∧ u.link.pres = 1 ∧ u.link.pseq = frameSeq f.hdr ∧ u.link.cur = none ∧
        u.link.queue = s.link.queue ∧ u.link.expSeq = s.link.expSeq ∧ Raises s u 0x01 0x00 0)) ∧
      (∀ c ∈ rows, frameType f.hdr = c.2 → f.void = false → crc = good → s.link.loopAct = 2 → Completes c.1 s (fun u =>
        linkOnly u ∧ u.link.pres = 7 ∧ u.link.bad = 0 ∧ u.link.queue = s.link.queue ∧ u.link.expSeq = s.link.expSeq ∧
        u.link.twin = sent)) ∧
      (frameType f.hdr = 6 → f.void = false → crc = good → s.link.loopAct ≠ 2 → s.link.loopAct ≠ 1 →
        Completes (.idleFrame p crc) s (fun u =>
        u = { s with due := u.due, link := { s.link with cur := none, bad := 0, pseq := frameSeq f.hdr, pres := ok } })) ∧
      (∀ c ∈ [(Instr.regw p crc, 2), (.regr p crc, 3), (.bulk p crc, 4)], frameType f.hdr = c.2 → f.void = false → crc = good →
        s.link.loopAct ≠ 2 →
        let d := (s.link.expSeq - frameSeq f.hdr).toNat
        (s.link.eFree = true ∨ d = 0 → f.busy = false → Completes c.1 s (fun u =>
          linkOnly u ∧ u.link.expSeq = frameSeq f.hdr + 1 ∧ u.link.eFree = false ∧ u.link.pres = ok ∧ u.link.bad = 0 ∧
          (∃ g, u.link.queue = s.link.queue ++ [g] ∧ g.payload = p ∧ g.seq = frameSeq f.hdr ∧ g.type.toNat = c.2 ∧ g.stop = false) ∧
          (s.link.queue = [] → (s.tick, .commandExecute) ∈ u.due))) ∧
        (s.link.eFree = true ∨ d = 0 → f.busy = true → Completes c.1 s (fun u =>
          linkOnly u ∧ u.link.queue = s.link.queue ∧ u.link.expSeq = s.link.expSeq ∧ u.link.pres = 6 ∧
            u.link.evBusy = satAdd s.link.evBusy 1)) ∧
        (s.link.eFree = false → 1 ≤ d → d ≤ 8 → Completes c.1 s (fun u =>
          linkOnly u ∧ u.link.queue = s.link.queue ∧ u.link.expSeq = s.link.expSeq ∧ u.link.pres = 3 ∧
            u.link.evDup = satAdd s.link.evDup 1)) ∧
        (s.link.eFree = false → 8 < d → Completes c.1 s (fun u =>
          u.link.queue = s.link.queue ∧ u.link.expSeq = s.link.expSeq ∧ u.link.pres = 2 ∧ u.link.errSeq = satAdd s.link.errSeq 1 ∧
          Raises s u 0x02 0x00 0))))

/-- R81, R82, R85, R237: A CYCLE frame that is good sends, on its effect tick, an OUTWORD to every island of OUTMASK that takes
output words, writes SAFE_CMD if its word says so, and pulses its software sources and CYCLE_APPLIED. Commands that complete:
CYCLE. -/
def Obligations.CycleFrameApplies : Prop :=
  ∀ (s : State) (p : List Word) (f : CurFrame), s.awake = true → s.link.cur = some f → frameType f.hdr = 1 → frameLen f.hdr = p.length →
    f.void = false → s.link.loopAct ≠ 2 → s.effectTick f ≤ s.tick → Completes (.cycle p (crc32c (f.hdr :: p))) s (fun u =>
      u.link.pres = (if f.shortTail then 5 else 0) ∧ u.link.pseq = frameSeq f.hdr ∧ u.link.cur = none ∧ u.link.bad = 0 ∧
      (∀ n : IslandNo, (p.getD 0 0).getLsbD n.val = true → s.takesOut n = true → s.prepped n = false →
        Queues u n .link (.outword (p.getD (5 + n.val) 0))) ∧
      u.safe.cmd = (if (p.getD 1 0).getLsbD 31 then (p.getD 1 0).extractLsb' 0 16 else s.safe.cmd) ∧
      (∀ (k : Fin 16) (l : BitVec 8), (p.getD 3 0).getLsbD k.val = true → l ∈ linesOf s (0x0E0 + k.val) →
        (s.tick, .eventPulse l) ∈ u.due) ∧
      (∀ l ∈ linesOf s 0x121, (s.tick, .eventPulse l) ∈ u.due) ∧ u.mem = s.mem ∧ u.cfg = s.cfg)

/-- R12, R14, R76, R78, R79, R80, R86, R88, R89, R90, R91, R97, R101, R354: The command queue executes in order: a REGW or BULK
word of SRAM is written and the next follows 2 or 1 ticks later, a REGR word enters the read queue after 2 and waits while that
is full, a word at an unmapped address stops its frame with LINK_XERR and ACC_ADDR, and a frame that is over leaves once its
cells have, and the next starts at once. A good CTRL frame sets EXP_SEQ whatever its SEQ and carries out its command: nothing,
and for a reserved code a clamp; a K1 reset, unless a reset of a higher level is pending, retraining, the replay of the last
batch, an empty read queue, or a loopback depth at the end of the tail. Before its effect tick it waits. What counts as a
waiting read word, and what RESEND_READS does without a last batch, are the model's readings (log entries 23 and 55). Commands
that complete: COMMAND_EXECUTE, CTRL_NOP, LINK_RESET, CTRL_RETRAIN, RESEND_READS, FLUSH_READS, CTRL_LOOP. -/
def Obligations.CommandAndControlFrames : Prop :=
  (
  ∀ (s : State) (f : CmdFrame) (r : List CmdFrame), s.clocked = true → s.link.queue = f :: r →
    let waits (u : State) : Prop := u = { s with due := u.due } ∧ (s.tick + 1, .commandExecute) ∈ u.due
    (f.over = true → s.leaving f = true → Completes .commandExecute s waits) ∧
    (f.over = true → s.leaving f = false → r = [] → Completes .commandExecute s (fun u =>
      u = { s with due := u.due, link := { s.link with queue := [] } })) ∧
    (f.over = true → s.leaving f = false → (∃ g l, r = g :: l ∧ g.over = false) →
      exec .commandExecute s = exec .commandExecute { s with link := { s.link with queue := r } }) ∧
    (f.over = false → s.link.loopAct ≠ 3 →
      let a := f.addr f.idx
      let moved (u : State) (k : Nat) (b : Nat) : Prop :=
        u.link.queue = { f with idx := f.idx + 1 } :: r ∧ (s.tick + BitVec.ofNat 64 k, .commandExecute) ∈ u.due ∧
        u.link.touch = (touchOf s.member b).map (fun x => (s.tick, x))
      (∀ k ∈ [(2, 2), (4, 1)], f.type.toNat = k.1 → (regionOf s.member a = .shared ∨ ∃ t, regionOf s.member a = .slice t) →
        Memory.wf s.mem = true → Completes .commandExecute s (fun u =>
          u.sramWord a = f.payload.getD f.idx 0 ∧ (∀ b : Nat, b < a ∨ a + 4 ≤ b → u.sram b = s.sram b) ∧ Memory.wf u.mem = true ∧
          moved u k.2 a ∧ u.fault = s.fault ∧ u.isl = s.isl)) ∧
      (∀ b : Nat, f.type = 3 → b = (f.payload.getD f.idx 0).toNat / 4 * 4 → s.link.readq.length < 64 →
        (regionOf s.member b = .shared ∨ ∃ t, regionOf s.member b = .slice t) → Completes .commandExecute s (fun u =>
          u.link.readq = s.link.readq ++ [{ val := s.sramWord b, err := false, wait := none }] ∧ moved u 2 b ∧ u.mem = s.mem ∧
          u.fault = s.fault)) ∧
      (f.type = 3 → 64 ≤ s.link.readq.length → Completes .commandExecute s waits) ∧
      (f.type = 2 ∨ f.type = 4 → regionOf s.member a = .none → Completes .commandExecute s (fun u =>
        u.link.xerr = true ∧ u.link.xseq = f.seq ∧ u.link.xtype = f.type ∧ u.link.xword = BitVec.ofNat 11 f.idx ∧ u.mem = s.mem ∧
        (∃ g, u.link.queue.head? = some g ∧ g.stop = true ∧ g.seq = f.seq) ∧ Raises s u 0x08 0x00 0)))
  ) ∧ (
  ∀ (s : State) (p : List Word) (f : CurFrame), s.awake = true → s.link.cur = some f → frameType f.hdr = 5 → frameLen f.hdr = p.length →
    let crc := crc32c (f.hdr :: p)
    let rows : List (Instr × Nat) :=
      [(.ctrlNop p crc, 0), (.linkReset p crc, 1), (.ctrlRetrain p crc, 2), (.resendReads p crc, 3), (.flushReads p crc, 4), (.ctrlLoop p crc, 5)]
    let h : Word := 0x4B000000 ||| (f.hdr &&& 0x00FFFFFF)
    let echo : List Word :=
      if s.link.loopAct = 2 then (h :: p) ++ [crc32c (h :: p)] else if s.link.loopAct = 1 then (f.hdr :: p) ++ [crc] else s.link.twin
    let base : Link := { s.link with
      cur := none, bad := 0, expSeq := frameSeq f.hdr + 1, eFree := false, pseq := frameSeq f.hdr, pres := if f.shortTail then 5 else 0,
      twin := echo }
    (∀ c ∈ rows, ctrlCode p = c.2 → s.tick < s.effectTick f → Completes c.1 s (fun u =>
      u = { s.oweAt (s.effectTick f) c.1 with link := { s.link with twin := echo } })) ∧
    (∀ c ∈ rows, ctrlCode p ≠ c.2 → exec c.1 s = .next s) ∧
    (s.effectTick f ≤ s.tick → f.void = false →
      (ctrlCode p = 0 → Completes (.ctrlNop p crc) s (fun u => u = { s with
        due := u.due, link := base, clampLink := if 5 < fld (p.getD 0 0) 0 8 then satAdd s.clampLink 1 else s.clampLink })) ∧
      (ctrlCode p = 1 → s.pow.k2due = true ∨ s.flint.resetDue = true → Completes (.linkReset p crc) s (fun u =>
        u = { s with due := u.due, link := base })) ∧
      (ctrlCode p = 1 → s.pow.k2due = false → s.flint.resetDue = false → Completes (.linkReset p crc) s (fun u =>
        u.pow.k1cnt = satAdd s.pow.k1cnt 1 ∧ u.link.expSeq = 0 ∧ u.link.eFree = true ∧ u.link.queue = s.link.queue.take 1 ∧
        u.link.readq = [] ∧ u.link.last = [] ∧ u.link.xerr = false ∧ u.link.xseq = 0 ∧ u.link.loopAct = 0 ∧
        u.slate.keydata = Vector.replicate 8 0 ∧ u.link.pres = base.pres ∧ u.mem = s.mem ∧ u.cfg = s.cfg)) ∧
      (ctrlCode p = 2 → s.link.st = .ready → s.link.lmode = false → Completes (.ctrlRetrain p crc) s (fun u =>
        u = { s with due := u.due, link := { base with retrain := true } } ∧ (laterTick s.tick s.link.tail, .retrainApply) ∈ u.due)) ∧
      (ctrlCode p = 3 → Completes (.resendReads p crc) s (fun u => u = { s with due := u.due, link := { base with replay := true } })) ∧
      (ctrlCode p = 4 → Completes (.flushReads p crc) s (fun u =>
        u = { s with due := u.due, isl := u.isl, link := { base with readq := [], last := [] } })) ∧
      (ctrlCode p = 5 → Completes (.ctrlLoop p crc) s (fun u =>
        let d := fld (p.getD 1 0) 0 3
        u.link = { base with loopReq := if 3 < d then 0 else (p.getD 1 0).extractLsb' 0 3 } ∧
        u.clampLink = (if 3 < d then satAdd s.clampLink 1 else s.clampLink) ∧
        u = { s with due := u.due, link := u.link, clampLink := u.clampLink } ∧ (laterTick s.tick s.link.tail, .loopApply) ∈ u.due)))
  )

/-- R10, R12, R22, R25, R88, R124, R276, R412: A read of TICK_LO keeps the high word in TICK_HI; a written register takes its
legal neighbour and counts a clamp to its master; a write that this master may not make is ACC_MASTER, and one at an address
that the index does not list ACC_ADDR, and neither changes a register. Commands that complete: TICK_LO_READ, REGISTER_WRITE,
WADDR, WDATA. -/
def Obligations.RegisterAccesses : Prop :=
  ∀ (s : State) (m : Master), s.clocked = true → (m = .link ∨ ∃ t, m = .thread t) →
    Completes (.tickLoRead m) s (fun u =>
      u.snapHi = s.tick.extractLsb' 32 32 ∧ u = { s with snapHi := u.snapHi, link := u.link, dma := u.dma }) ∧
    (s.link.readq.length < 64 → exec (.tickLoRead .link) s = .next { s with
      snapHi := s.tick.extractLsb' 32 32,
      link := { s.link with readq := s.link.readq ++ [{ val := s.tick.extractLsb' 0 32, err := false, wait := none }] } }) ∧
    (∀ w : Word, s.link.lmode = false → 25000 ≤ fld w 0 18 → fld w 0 18 ≤ 200000 → Completes (.registerWrite m 0x010 w) s (fun u =>
      u.rate = w.extractLsb' 0 18 ∧ u.clampLink = s.clampLink ∧ u.clampT = s.clampT ∧ u.fault = s.fault)) ∧
    (∀ w : Word, s.link.lmode = false → 200000 < fld w 0 18 → Completes (.registerWrite .link 0x010 w) s (fun u =>
      u.rate = 200000 ∧ u.clampLink = satAdd s.clampLink 1 ∧ u.fault = s.fault)) ∧
    (∀ w : Word, Completes (.registerWrite m 0x140 w) s (fun u =>
      u.safe = { s.safe with cmd := w.extractLsb' 0 16 } ∧ ∀ n : IslandNo, u.isl[n].laneDn.safe = u.safeBit n)) ∧
    (∀ w : Word, Completes (.registerWrite m 0x4008 w) s (fun u =>
      u = { s with due := u.due, facet := { s.facet with launchPc := w &&& 0xFFFFFFFC } })) ∧
    (∀ (n : IslandNo) (w : Word), s.present n = true →
      Completes (.registerWrite m (0x00100000 ||| BitVec.ofNat 32 (0x1000 * n.val) ||| 0x10) w) s (fun u =>
        u = { s with due := u.due, ledq := s.ledq ++ [(s.tick + BitVec.ofNat 64 ((4 - s.tick.toNat % 4) % 4 + 4), .write n w m)] }) ∧
      (s.running n = true → s.queueFull n = false →
        Completes (.registerWrite m (0x00100000 ||| BitVec.ofNat 32 (0x1000 * n.val) ||| 0x44) w) s (fun u =>
          Queues u n m (.waddr 0x44) ∧ Queues u n m (.wdata w) ∧ IslandOnly s u n))) ∧
    (∀ (t : CtxNo) (w : Word), Completes (.registerWrite (.thread t) 0x148 w) s (fun u =>
      u.safe = s.safe ∧ u.isl = s.isl ∧ Raises s u 0x09 (mid (.thread t)) 0)) ∧
    (∀ w : Word, Completes (.registerWrite m 0x00C w) s (fun u =>
      u = { s with fault := u.fault, due := u.due } ∧ Raises s u 0x08 (mid m) 0))

/-- R102, R104, R113, R114, R115, R117, R288: A session opens on an empty engine and belongs to its master; words are staged up
to TOTAL_LEN, of the owner or of a channel, or read from NVM 2 tk each, and a read that fails is NVM_ERR as well; VERIFY ends
with the verdict of R115 and the clamped image; ABORT of the owner or the link discards the slate; a command that the state does
not take sets BADCMD, and one of another master is ACC_MASTER. That a read of NVM comes with its verdict, and what LOAD_NVM and
OPEN clear of ERR and ERR_SEC, are the model's choices (log entries 38 and 56). Commands that complete: SLATE_OPEN,
SLATE_LOAD_NVM, SLATE_VERIFY, NVM_LOAD_COMPLETE, SLATE_LOAD, VERIFY_COMPLETE, SLATE_ABORT. -/
def Obligations.SlateSessions : Prop :=
  ∀ (s : State) (m : Master), s.clocked = true →
    let z := s.slate
    let may : Prop := m = .link ∨ ∃ t, m = .thread t
    let mine : Prop := z.owner = none ∨ z.owner = some m
    let only (u : State) (y : Slate) : Prop := u = { s with due := u.due, slate := y }
    let opened : Slate := { z with st := .loading, owner := some m, staged := [], total := 0, err := 0, errSec := 0, badcmd := false }
    let turned (u : State) : Prop := u.slate = z ∧ Raises s u 0x09 (mid m) 0
    (may → mine → z.st = .empty →
      exec (.slateOpen m) s = .next { s with slate := { opened with fromNvm := false } } ∧
      Completes (.slateLoadNvm m) s (fun u => only u { opened with fromNvm := true, nvmFrom := z.nvmaddr, loadAt := s.tick } ∧
        (s.tick + BitVec.ofNat 64 (2 * u.nvmSlateLen), .nvmLoadComplete true) ∈ u.due)) ∧
    (may → mine → z.st ≠ .empty → ∀ c ∈ [Instr.slateOpen m, .slateLoadNvm m], Completes c s (fun u => only u { z with badcmd := true })) ∧
    (¬ may ∨ ¬ mine → ∀ c ∈ [Instr.slateOpen m, .slateLoadNvm m, .slateVerify m, .slateCommit m], Completes c s turned) ∧
    (z.st = .loading → z.fromNvm = true →
      let unread (u : State) : Prop :=
        u = { s with due := u.due, fault := u.fault, evt := u.evt, slate := { z with st := .failed, err := 13, errSec := 0xFF } } ∧
        Raises s u 0x20 (mid .nvm) 0
      Completes (.nvmLoadComplete false) s unread ∧
      (s.nvmSlateLen ≠ 3 → z.staged.length < s.nvmSlateLen → (3 ≤ z.staged.length → z.total = s.nvmSlateLen) →
        (4 * (z.nvmFrom.toNat + s.nvmSlateLen) ≤ s.member.nvmBytes →
          (∀ i < s.nvmSlateLen, s.flashBusy (4 * (z.nvmFrom.toNat + i)) = false) →
          Completes (.nvmLoadComplete true) s (fun u =>
            u = { s with due := u.due, slate := u.slate } ∧ u.slate.st = .loaded ∧ u.slate.staged.length = s.nvmSlateLen ∧
            u.slate.staged.take z.staged.length = z.staged ∧
            ∀ i : Nat, z.staged.length ≤ i → i < s.nvmSlateLen → u.slate.staged.getD i 0 = s.windowWord (4 * (z.nvmFrom.toNat + i)))) ∧
        (s.flashBusy (4 * (z.nvmFrom.toNat + z.staged.length)) = true → Completes (.nvmLoadComplete true) s unread))) ∧
    (∀ w : Word,
      let takes (y : Slate) : Prop := ∀ k ∈ [m, .dma 0], z.owner = some m → Completes (.slateLoad k w) s (fun u => only u y)
      (z.st = .loading → z.fromNvm = false →
        (z.staged.length < 2 → takes { z with staged := z.staged ++ [w] }) ∧
        (z.staged.length = 2 → 8 ≤ w.toNat → w.toNat ≤ 16384 → takes { z with staged := z.staged ++ [w], total := w.toNat }) ∧
        (z.staged.length = 2 → w.toNat < 8 ∨ 16384 < w.toNat →
          takes { z with staged := z.staged ++ [w], total := w.toNat, st := .failed, err := 4, errSec := 0xFF }) ∧
        (3 ≤ z.staged.length →
          takes { z with staged := z.staged ++ [w], st := if z.staged.length + 1 = z.total then .loaded else .loading })) ∧
      (z.st = .loaded → takes { z with st := .failed, err := 4, errSec := 0xFF }) ∧
      ((∀ c, m ≠ .dma c) → z.owner ≠ some m → Completes (.slateLoad m w) s turned)) ∧
    (may → mine → z.st = .loaded → Completes (.slateVerify m) s (fun u =>
      only u { z with st := .verifying, badcmd := false } ∧ (s.tick + BitVec.ofNat 64 z.verifyTk, .verifyComplete) ∈ u.due)) ∧
    (may → mine → z.st ≠ .loaded → Completes (.slateVerify m) s (fun u => only u { z with badcmd := true })) ∧
    (z.st = .verifying →
      (s.slateFault z.staged = none →
        let x := stage s.member (sections z.staged.length (z.staged.drop 8)).1
        Completes .verifyComplete s (fun u => only u u.slate ∧ u.slate.st = .verified ∧ u.slate.err = 0 ∧ u.slate.errSec = 0 ∧
          u.slate.staged = z.staged.take 8 ++ x.image.reverse ∧ u.slate.clamps = BitVec.ofNat 16 (min 0xFFFF x.clamps))) ∧
      (∀ e, s.slateFault z.staged = some e → Completes .verifyComplete s (fun u =>
        only u { z with st := .failed, err := BitVec.ofNat 8 e.1, errSec := BitVec.ofNat 8 e.2 }))) ∧
    ((may ∧ mine) ∨ m = .link → z.st ≠ .committing → z.st ≠ .empty → Completes (.slateAbort m) s (fun u =>
      only u { z with st := .empty, owner := none, staged := [], total := 0, fromNvm := false, badcmd := false })) ∧
    (may → mine → z.st = .committing ∨ z.st = .empty → Completes (.slateAbort m) s (fun u => only u { z with badcmd := true }))

/-- R59, R60, R61, R108, R114, R118, R119, R121, R122, R126: COMMIT is refused in a Halt or Lockout, and else reaches T_C within
two ticks a word: there the whole configuration takes the staged values, each island that keeps its personality gets its new
record, one that changes it PREP first, and one that turns OFF falls to Bedrock; the full pass, in which the arbiter is BUSY,
and the end of the commit follow within 512 tk, each on the tick that is owed. HOLDCLR ends the orphaned holds of its islands.
That the bounds of a commit are owed at their ends is the model's choice (log entry 2). Commands that complete: SLATE_COMMIT,
COMMIT_SWITCH, FULL_PASS, COMMIT_COMPLETE, HOLDCLR. -/
def Obligations.SlateCommits : Prop :=
  ∀ (s : State), s.clocked = true →
    let z := s.slate
    (∀ m : Master, (m = .link ∨ ∃ t, m = .thread t) → z.owner = some m → z.st = .verified →
      (s.fault.halt = false → s.fault.lockout = false → Completes (.slateCommit m) s (fun u =>
        u = { s with due := u.due, slate := { z with st := .committing, switched := false, passed := false, badcmd := false } } ∧
        (s.tick + BitVec.ofNat 64 (2 * z.staged.length), .commitSwitch) ∈ u.due)) ∧
      (s.fault.halt = true ∨ s.fault.lockout = true → Completes (.slateCommit m) s (fun u =>
        u = { s with due := u.due, slate := { z with err := 15, badcmd := false } }))) ∧
    (z.st = .committing → z.switched = false → Completes .commitSwitch s (fun u =>
      u.cfg = (stage s.member (sections z.staged.length (z.staged.drop 8)).1).cfg ∧ u.slate.id = z.staged.getD 3 0 ∧ u.slate.tc = s.tick ∧
      u.slate.switched = true ∧ u.mem = s.mem ∧
      ∀ n : IslandNo,
        (s.takeSlate.pers n = .off → s.pers n ≠ .off → u.isl[n].en = false ∧ u.isl[n].powered = false) ∧
        (s.takeSlate.pers n ≠ .off → s.running n = true → s.takeSlate.recordOf n ≠ s.recordOf n → s.fault.lockout = false →
          (s.takeSlate.pers n = s.pers n → Queues u n .slate (.cmd .apply)) ∧
          (s.takeSlate.pers n ≠ s.pers n → Queues u n .slate (.cmd .prep))) ∧
        u.isl[n].led.reqRung = (u.recAt n 0x10).extractLsb' 0 2)) ∧
    (s.isDue .fullPass = true → z.st = .committing → z.switched = true → z.passed = false → Completes .fullPass s (fun u =>
      u.slate = { z with passed := true } ∧ u.busy = true ∧ (s.tick + 512, .commitComplete) ∈ u.due ∧ u.cfg = s.cfg)) ∧
    (s.isDue .commitComplete = true → z.st = .committing → z.passed = true → s.pow.k2due = false → Completes .commitComplete s (fun u =>
      u.slate.st = .empty ∧ u.slate.owner = none ∧ u.slate.committed = true ∧ u.slate.authed = (z.staged.getD 1 0).getLsbD 0 ∧
      u.slate.ctick = z.tc ∧ u.slate.rateMatch = rateMatch (fld (z.staged.getD 5 0) 0 18) s.rate.toNat ∧
      u.busy = s.due.any (fun e => decide (e.2 = Instr.admissionComplete)) ∧ u.cfg = s.cfg)) ∧
    (∀ c ∈ [Instr.fullPass, .commitComplete], s.isDue c = false → exec c s = .next s) ∧
    (∀ (m : Master) (w : Word), Completes (.holdclr m w) s (fun u => ∀ n : IslandNo,
      (w.getLsbD n.val = true → u.isl[n].orphForce = false ∧ u.isl[n].orphSafe = false) ∧
      (w.getLsbD n.val = false → u.isl[n].orphForce = s.isl[n].orphForce ∧ u.isl[n].orphSafe = s.isl[n].orphSafe)))

/-- R110, R111, R127, R309, R409: A key operation of the link that the controller and the slot allow starts, and holds KEYDATA
until its end; a refused one sets KRES, a low rate before a hot die before any other reason, and clears KEYDATA at once, one of
another master is ACC_MASTER, and outside factory test mode ERASE_ALL falls back to NONE. Commands that complete: KEY_PROGRAM,
KEY_REVOKE, SET_AUTH_REQ, KEY_ERASE_ALL. -/
def Obligations.KeyOperations : Prop :=
  ∀ (s : State) (k : Fin 8), s.clocked = true →
    let starts (u : State) (key : List Word → NvmAfter) : Prop :=
      u.slate.kbusy = true ∧ u.nvm.isKey = true ∧ (u.nvm.st = .busy ∨ u.nvm.st = .stepWait) ∧ u.slate.keydata = s.slate.keydata ∧
      (∃ j l, u.nvm.jobs = l ++ [j] ∧ j.after = key s.slate.keydata.toList) ∧ u.slate.keys = s.slate.keys ∧ u.fault = s.fault
    let refused (c : Instr) (r : BitVec 3) : Prop :=
      exec c s = .next { s with slate := { s.slate with kres := r, keydata := Vector.replicate 8 0 } }
    (s.nvmRefusal = none →
      (s.slate.keys[k] = .empty → Completes (.keyProgram .link k) s (fun u => starts u (fun l => .keySet k l))) ∧
      (s.slate.keys[k] ≠ .empty → refused (.keyProgram .link k) 1) ∧
      ((∃ l, s.slate.keys[k] = .set l) → Completes (.keyRevoke .link k) s (fun u => starts u (fun _ => .keyRevoke k))) ∧
      (s.slate.keys[k] = .empty ∨ s.slate.keys[k] = .revoked → refused (.keyRevoke .link k) 1) ∧
      (s.slate.authReq = false → Completes (.setAuthReq .link) s (fun u => starts u (fun _ => .authReq))) ∧
      (s.slate.authReq = true → refused (.setAuthReq .link) 0) ∧
      (s.pow.ftm = true → Completes (.keyEraseAll .link) s (fun u => starts u (fun _ => .keyEraseAll)))) ∧
    (s.pow.ftm = false → exec (.keyEraseAll .link) s = .next (s.clamped .link 1)) ∧
    (∀ c ∈ [Instr.keyProgram .link k, .keyRevoke .link k, .setAuthReq .link],
      (s.rate.toNat < 50000 → refused c 2) ∧ (50000 ≤ s.rate.toNat → s.pow.above115 = true → refused c 5) ∧
      (50000 ≤ s.rate.toNat → s.pow.above115 = false → s.nvm.st ≠ .idle → refused c 1)) ∧
    (∀ m : Master, m ≠ .link → ∀ c ∈ [Instr.keyProgram m k, .keyRevoke m k, .setAuthReq m, .keyEraseAll m], Completes c s (fun u =>
      u.slate = s.slate ∧ u.nvm = s.nvm ∧ Raises s u 0x09 (mid m) 0))

/-- R250, R253, R257, R258, R261: START walks from HEAD and START_TPL, AUTO and a write of TLINK run the template, in every
state between descriptors, START_TPL and AUTO within one tick; a disable ends all work of its channel and of no other; APPENDs
are served one per tick, and one links a descriptor behind TAIL, misses a chain that has read it, or is refused. That START
clears WORDS and a loop keeps it is the model's reading (log entry 22). Commands that complete: DMA_START, DMA_START_TPL,
AUTO_START, TLINK_WRITE, DMA_DISABLE, APPEND. -/
def Obligations.DmaChainsStart : Prop :=
  ∀ (s : State) (m : Master) (c : ChNo), s.clocked = true →
    let h := s.dma[c]
    let others (u : State) : Prop := (∀ k : ChNo, k ≠ c → u.dma[k] = s.dma[k]) ∧ u.fault = s.fault ∧
      ∀ n : IslandNo, u.isl[n].down = s.isl[n].down
    let tpl (u : State) : Prop :=
      u.dma[c].src = s.chWord c 0x30 ∧ u.dma[c].dst = s.chWord c 0x34 ∧ u.dma[c].remain = (s.chWord c 0x38).extractLsb' 0 16 ∧
      u.dma[c].tpl = true ∧ u.dma[c].buf = none ∧ u.dma[c].more = [] ∧
      u.dma[c].st = (if s.chPace c ∧ h.ppend = false then .wait else .move) ∧ others u
    (h.rests = true → s.chHaw c = false → Completes (.dmaStart m c) s (fun u =>
      u.dma[c].st = .fetch ∧ u.dma[c].cur = h.head ∧ u.dma[c].words = 0 ∧ u.dma[c].err = 0 ∧ others u)) ∧
    (h.rests = false ∨ s.chHaw c = true → exec (.dmaStart m c) s = .next s) ∧
    ((s.chWord c 0x38).extractLsb' 0 16 ≠ (0 : BitVec 16) →
      (h.rests = true → Completes (.dmaStartTpl m c) s (fun u => tpl u ∧ u.dma[c].words = 0 ∧ u.dma[c].goAt = s.tick + 1)) ∧
      (h.st = .idle → s.chAuto c = true → s.slate.committed = true → Completes (.autoStart c) s (fun u =>
        tpl u ∧ u.dma[c].words = 0 ∧ u.dma[c].goAt = s.tick + 1)) ∧
      (h.st = .done → s.chLoop c = true → Completes (.autoStart c) s (fun u => tpl u ∧ u.dma[c].words = h.words)) ∧
      (∀ w : Word, h.rests = true → s.chHaw c = true → Completes (.tlinkWrite m c w) s (fun u =>
        tpl u ∧ (swf (cfgReset s.member) s.cfg = true → u.dma[c].link = w)))) ∧
    (h.rests = false → exec (.dmaStartTpl m c) s = .next s ∧ ∀ w : Word, exec (.tlinkWrite m c w) s = .next s) ∧
    Completes (.dmaDisable m c) s (fun u =>
      u.dma[c].st = .idle ∧ u.dma[c].err = 0 ∧ u.dma[c].ppend = false ∧ u.dma[c].head = h.head ∧ u.dma[c].tail = h.tail ∧
      (∀ k : ChNo, k ≠ c → u.dma[k] = s.dma[k]) ∧ u.mem = s.mem ∧ (∀ e ∈ u.due, e.2 ≠ .autoStart c) ∧ (∀ r, u.nvmRd = some r → r.1 ≠ c) ∧
      ∀ n : IslandNo, ∀ x ∈ u.isl[n].down, x.req = .dma c → x.sent = true ∨ x.again = true) ∧
    (∀ (a : Word) (t : Tick), s.isDue (.append m c a) = false → s.appendAt = some t → s.tick ≤ t → Completes (.append m c a) s (fun u =>
      u = { s with due := u.due, appendAt := some (t + 1) } ∧ (t + 1, .append m c a) ∈ u.due)) ∧
    (∀ a : Word, Memory.wf s.mem = true → (s.isDue (.append m c a) = true ∨ ∀ t, s.appendAt = some t → t < s.tick) →
      (s.chHaw c = false → s.mayFetch c (a &&& 0xFFFFFFF0).toNat = true → s.mayPatch c h.tail.toNat = true →
        (h.seen.contains h.tail = false → Completes (.append m c a) s (fun u =>
          u.dma[c] = { h with ares := 1, tail := a &&& 0xFFFFFFF0 } ∧ u.sramWord (h.tail.toNat + 12) = a &&& 0xFFFFFFF0 ∧
          (∀ b : Nat, b < h.tail.toNat + 12 ∨ h.tail.toNat + 16 ≤ b → u.sram b = s.sram b) ∧ others u)) ∧
        (h.seen.contains h.tail = true → Completes (.append m c a) s (fun u =>
          u.dma[c] = { h with ares := 2, tail := a &&& 0xFFFFFFF0 } ∧ u.mem = s.mem ∧ others u))) ∧
      (s.chHaw c = true ∨ s.mayFetch c (a &&& 0xFFFFFFF0).toNat = false ∨ s.mayPatch c h.tail.toNat = false →
        Completes (.append m c a) s (fun u => u.dma[c] = { h with ares := 3 } ∧ u.mem = s.mem ∧ others u)))

/-- R250, R251, R252, R253, R255, R256, R259, R260: The walker takes the four words of a descriptor that the channel may read; a
word moves from SRAM to SRAM, to island SRAM or to an output command, and its addresses step; what the channel may not reach
stops it in ERROR with DMA_ERR. A word of the NVM window takes 8 tk. Output commands and result streams are ports of every
master. Commands that complete: DESCRIPTOR_FETCHED, WORD_MOVE, OCMD_WRITE, RSTREAM_READ. -/
def Obligations.DmaMovesWords : Prop :=
  ∀ (s : State) (c : ChNo), s.clocked = true →
    let h := s.dma[c]
    let a := h.src.toNat / 4 * 4
    let b := h.dst.toNat / 4 * 4
    let stepped (u : State) : Prop :=
      u.dma[c].remain = h.remain - 1 ∧ u.dma[c].words = satAdd h.words 1 ∧ u.dma[c].src = h.src + 4 ∧ u.dma[c].buf = none ∧
      u.dma[c].st = .move ∧ u.moved = c ∧ u.fault = s.fault ∧ ∀ k : ChNo, k ≠ c → u.dma[k] = s.dma[k]
    (h.st = .fetch → h.fetched = 0 → s.chHaw c = false →
      (s.mayFetch c h.cur.toNat = true → (s.sramWord (h.cur.toNat + 8)).extractLsb' 0 16 ≠ (0 : BitVec 16) → s.chPace c = false →
        Completes (.descriptorFetched c) s (fun u =>
          u.dma[c].src = s.sramWord h.cur.toNat ∧ u.dma[c].dst = s.sramWord (h.cur.toNat + 4) ∧
          u.dma[c].lenf = s.sramWord (h.cur.toNat + 8) ∧ u.dma[c].link = s.sramWord (h.cur.toNat + 12) ∧
          u.dma[c].remain = u.dma[c].lenf.extractLsb' 0 16 ∧ u.dma[c].st = .move ∧ u.mem = s.mem ∧ u.fault = s.fault)) ∧
      (s.mayFetch c h.cur.toNat = false → Completes (.descriptorFetched c) s (fun u =>
        u.dma[c].st = .error ∧ u.dma[c].err = 3 ∧ Raises s u 0x1A (mid (.dma c)) 0))) ∧
    (h.st = .move → h.ahead = 0 → h.remain.toNat ≥ 2 → s.chUnit c = false → h.lenf.getLsbD 30 = false →
      h.lenf.getLsbD 28 = false → regionOf s.member a = .shared → Memory.wf s.mem = true →
      (regionOf s.member b = .shared → Completes (.wordMove c) s (fun u =>
        u.sramWord b = s.sramWord a ∧ (∀ x : Nat, x < b ∨ b + 4 ≤ x → u.sram x = s.sram x) ∧ Memory.wf u.mem = true ∧
        u.isl = s.isl ∧ stepped u)) ∧
      (∀ n : IslandNo, regionOf s.member b = .islMem n → s.running n = true → s.queueFull n = false → Completes (.wordMove c) s (fun u =>
        Queues u n (.dma c) (.wdata (s.sramWord a)) ∧ u.mem = s.mem ∧ stepped u ∧ u.isl[n].wrun = some (.dma c, b + 4) ∧
        (s.isl[n].wrun ≠ some (.dma c, b) → Queues u n (.dma c) (.waddr (BitVec.ofNat 32 (2 ^ 31 + b % 0x4000)))))) ∧
      (∀ n : IslandNo, b = 0x3A00 + 4 * n.val → s.present n = true → h.lenf.getLsbD 29 = true → s.takesOut n = true →
        s.queueFull n = false → Completes (.wordMove c) s (fun u =>
          Queues u n (.dma c) (.cmd (.output (s.sramWord a))) ∧ u.mem = s.mem ∧ u.dma[c].dst = h.dst ∧ stepped u)) ∧
      (∀ n : IslandNo, b = 0x3A00 + 4 * n.val → s.present n = true → h.lenf.getLsbD 29 = true → s.takesOut n = true →
        s.queueFull n = true →
        Completes (.wordMove c) s (fun u => u.dma[c].st = .move ∧ u.dma[c].remain = h.remain ∧ u.isl = s.isl ∧ u.mem = s.mem)) ∧
      (regionOf s.member b = .none → Completes (.wordMove c) s (fun u =>
        u.dma[c].st = .error ∧ u.dma[c].err = 2 ∧ u.mem = s.mem ∧ Raises s u 0x1A (mid (.dma c)) 0))) ∧
    (h.st = .move → h.ahead = 0 → regionOf s.member a = .nvm → s.flashBusy (a - 0x30000000) = false → Completes (.wordMove c) s (fun u =>
      u = { s with dma := u.dma, nvmRd := some (c, s.tick + 7) } ∧ u.dma[c] = { h with reading := 1 } ∧
      ∀ k : ChNo, k ≠ c → u.dma[k] = s.dma[k])) ∧
    (h.st = .move → h.ahead = 0 → regionOf s.member a = .none → Completes (.wordMove c) s (fun u =>
      u.dma[c].st = .error ∧ u.dma[c].err = 1 ∧ u.mem = s.mem ∧ Raises s u 0x1A (mid (.dma c)) 0)) ∧
    (∀ (m : Master) (n : IslandNo) (w : Word), s.present n = true →
      (s.takesOut n = true → Completes (.ocmdWrite m n w) s (fun u => Queues u n m (.cmd (.output w)) ∧ IslandOnly s u n)) ∧
      (s.takesOut n = false → exec (.ocmdWrite m n w) s = .next s)) ∧
    (∀ (n : IslandNo) (w : Word) (r : List Word), s.present n = true → s.isl[n].rstream = w :: r →
      (∀ m : Master, Completes (.rstreamRead m n) s (fun u => u.isl[n].rstream = r)) ∧
      (s.link.readq.length < 64 → Completes (.rstreamRead .link n) s (fun u =>
        u.isl[n].rstream = r ∧ u.link.readq = s.link.readq ++ [{ val := w, err := false, wait := none }]))) ∧
    (∀ n : IslandNo, s.present n = true → s.isl[n].rstream = [] → s.link.readq.length < 64 → Completes (.rstreamRead .link n) s (fun u =>
      u.link.readq = s.link.readq ++ [{ val := 0xFFFFFFFF, err := false, wait := none }]))

/-- R305, R306, R308, R309, R310, R319, R322, R324, R326, R327: An operation that meets the controller's and its own
preconditions starts with its intent record, or with the check of the image, of every command of the store; one that does not
sets RES to the first refusal, of recovery, a busy controller, the rate and the temperature in this order, and starts nothing.
Commands that complete: NVM_ERASE, NVM_PROGRAM, NVM_APPEND, MARK_WRITTEN, MARK_CONFIRMED, MARK_REJECTED, NVM_COMPACT,
MARK_TRIAL. -/
def Obligations.NvmOperationsStart : Prop :=
  ∀ (s : State) (m : Master), s.clocked = true → (m = .link ∨ ∃ t, m = .thread t) →
    let o := s.nvm.offset
    let starts (u : State) (k : NvmKind) (a : Nat) : Prop :=
      (u.nvm.st = .busy ∨ u.nvm.st = .stepWait) ∧ u.nvm.owner = mid m ∧ u.nvm.res = 0 ∧ u.nvm.steps = 0 ∧ u.nvm.rate = s.rate ∧
      u.nvm.began = s.tick ∧ u.nvm.cur = s.nvm.iseq ∧
      (∃ j l, u.nvm.jobs = j :: l ∧ j.kind = k ∧ j.target = a) ∧ u.nvm.mem = s.nvm.mem ∧ u.fault = s.fault
    let refuses (u : State) (r : NvmRes) : Prop := u.nvm.res = r.code ∧ u.nvm.jobs = s.nvm.jobs ∧ u.nvm.st = s.nvm.st ∧
      u.nvm.mem = s.nvm.mem
    let commands : List Instr := [.nvmErase m, .nvmProgram m 1, .nvmAppend m, .markWritten m .bankA, .markConfirmed m .bankA,
      .markRejected m .bankA, .nvmCompact m]
    (∀ r, s.nvmRefusal = some r → ∀ c ∈ commands, Completes c s (fun u => refuses u r)) ∧
    (s.nvm.st = .recovering → s.nvmRefusal = some .recovering) ∧
    (s.nvm.st ≠ .recovering → s.nvm.redo = false → s.nvm.intents = [] →
      s.nvmRefusal = if s.nvm.st ≠ .idle then some .busy else if s.rate.toNat < 50000 then some .rate else if s.pow.above115 then some .temp
        else none) ∧
    (s.nvmRefusal = none →
      (s.nvmOpen o = true → o < s.member.nvmBytes → o % 4096 = 0 → Completes (.nvmErase m) s (fun u => starts u .erase o)) ∧
      (s.nvmOpen o = false → Completes (.nvmErase m) s (fun u => refuses u .prot)) ∧
      (s.nvmOpen o = true → o < s.member.nvmBytes → o % 4096 ≠ 0 → Completes (.nvmErase m) s (fun u => refuses u .align)) ∧
      (∀ k : BitVec 4, s.nvmOpen o = true → o < s.member.nvmBytes → o % 32 = 0 →
        (s.blank o (32 * unitsOf o k.toNat) = true → Completes (.nvmProgram m k) s (fun u => starts u .program o)) ∧
        (s.blank o (32 * unitsOf o k.toNat) = false → Completes (.nvmProgram m k) s (fun u => refuses u .notBlank))) ∧
      (s.slate.committed = true → 2 ≤ s.sjFree → Completes (.nvmAppend m) s (fun u =>
        starts u .program (settingsJob s.member s.nvm.spos (settingsWords s.nvm.skey s.slate.schema s.nvm.sseq
          (s.nvm.pbuf.toList.take (min 60 s.nvm.slen.toNat)))).1.target)) ∧
      (s.slate.committed = false → Completes (.nvmAppend m) s (fun u => refuses u .noSlate)) ∧
      (s.slate.committed = true → s.sjFree < 2 → Completes (.nvmAppend m) s (fun u => refuses u .full)) ∧
      (∀ b : Bank,
        (¬(s.nvm.booted = true ∧ s.nvm.active = b) → s.marked b 0 = false → Completes (.markWritten m b) s (fun u =>
          u.nvm.st = .busy ∧ u.nvm.phase = .image b ∧ u.nvm.owner = mid m ∧ u.nvm.sliceAt = s.tick + BitVec.ofNat 64 (s.imageTk b) ∧
          (∃ j, u.nvm.jobs = [j] ∧ j.kind = .mark ∧ j.target = markAt s.member b 0) ∧ u = { s with nvm := u.nvm })) ∧
        (s.nvm.booted = true → s.nvm.active = b → Completes (.markWritten m b) s (fun u => refuses u .prot)) ∧
        (s.inRom 0 = true → s.marked b 1 = false → Completes (.markTrial (.thread 0) b) s (fun u =>
          u.nvm.owner = 0x10 ∧ ∃ j, u.nvm.jobs = [j] ∧ j.kind = .mark ∧ j.target = markAt s.member b 1)) ∧
        (s.nvm.booted = true → s.nvm.active = b → s.bankSt b = 3 → s.marked b 2 = false → Completes (.markConfirmed m b) s (fun u =>
          starts u .mark (markAt s.member b 2))) ∧
        (s.bankSt b ≠ 3 → Completes (.markConfirmed m b) s (fun u => refuses u .prot)) ∧
        (s.marked b 3 = false → Completes (.markRejected m b) s (fun u => starts u .mark (markAt s.member b 3)))) ∧
      (1 ≤ s.sjFree → (∃ k, s.oldest = some k) → Completes (.nvmCompact m) s (fun u => u.nvm.jobs ≠ [] ∧ u.nvm.owner = mid m)) ∧
      (s.sjFree < 1 → Completes (.nvmCompact m) s (fun u => refuses u .full))) ∧
    (∀ (t : CtxNo) (b : Bank), t ≠ 0 ∨ s.inRom 0 = false → Completes (.markTrial (.thread t) b) s (fun u =>
      refuses u .priv ∧ Raises s u 0x09 (mid (.thread t)) 0))

/-- R18, R281, R282, R299, R301, R308, R310, R311, R312, R313, R314, R315, R316, R317, R319, R321, R357: A slice that verified
programs its 32-byte unit, erases its sector or records the intent and the end of its step, and none ends before its time; a
failed one is pulsed again up to its limit; the first verify of an erase and the check of an image end on their own tick; STEP
starts a pulse that waits, ABORT stops at the end of the slice, or at once where none is in progress, and a stop of HCK cuts the
step and leaves its intent open. A reset that waits for the slice comes on the next tick, and no other slice starts before it.
The journal scan ends IDLE or, with open intents or a torn sector, RECOVERING, and recovery takes the first of them with its
owner and SEQ; a waiting increment is programmed by the controller in its own name, behind a snapshot where a sector has filled;
context 0 starts in the boot ROM with phase 1 on the tick that is due, and no other. That the twelve pulses count for each unit,
and that the scan ends at its bound, are the model's readings (log entries 20, 30 and 38). Commands that complete: SLICE_END,
FLINT_RESET, NVM_STEP, NVM_ABORT_CMD, SCAN_DONE, INTENT_RECOVERY, COUNTER_INCREMENT, BOOT_START. -/
def Obligations.NvmSlicesAndRecovery : Prop :=
  (
  ∀ (s : State) (j : NvmJob) (l : List NvmJob), s.nvm.jobs = j :: l → s.clocked = true → s.nvm.stopAfter = none →
    (s.nvm.st = .busy → s.nvm.held = false → s.nvm.sliceAt ≤ s.tick →
      (s.nvm.phase = .intent → Completes (.sliceEnd true) s (fun u =>
        (∃ i, u.nvm.intents = s.nvm.intents ++ [i] ∧ i.seq = s.nvm.cur ∧ i.kind = j.kind ∧ i.target = j.target ∧ i.began = s.nvm.began) ∧
        u.nvm.jpos = (s.nvm.jpos + 1) % s.member.nvmAt 2048 ∧ u.nvm.jobs = j :: l ∧
        (j.kind = .erase → u.nvm.phase = .check ∧ u.nvm.sliceAt = s.tick + 1024))) ∧
      (s.nvm.phase = .body → j.kind ≠ .erase → j.kind ≠ .keyErase → 32 * (s.nvm.units + 1) < j.data.length →
        Completes (.sliceEnd true) s (fun u =>
          u.nvm.mem = flashPut s.nvm.mem (j.target + 32 * s.nvm.units) ((j.data.drop (32 * s.nvm.units)).take 32) ∧
          u.nvm.units = s.nvm.units + 1 ∧ u.nvm.steps = satAdd s.nvm.steps 1 ∧ u.nvm.jobs = j :: l ∧
          (s.flint.resetDue = true → u.slicing = false ∧ ((∀ e ∈ s.due, e.2 ≠ .flintReset) → (s.tick + 1, .flintReset) ∈ u.due)))) ∧
      (s.nvm.phase = .body → j.kind = .erase → j.after = .plain → Completes (.sliceEnd true) s (fun u =>
        (∀ a : Nat, j.target ≤ a → a < j.target + 4096 → u.flash a = 0xFF) ∧
        (∀ a : Nat, a < j.target ∨ j.target + 4096 ≤ a → u.flash a = s.flash a) ∧ u.nvm.jobs = j :: l)) ∧
      (s.nvm.phase = .body → j.kind ≠ .erase → j.kind ≠ .keyErase → s.nvm.pulses + 1 < 12 → Completes (.sliceEnd false) s (fun u =>
        u.nvm.mem = s.nvm.mem ∧ u.nvm.pulses = s.nvm.pulses + 1 ∧ u.nvm.units = s.nvm.units ∧ u.fault = s.fault)) ∧
      (s.nvm.phase = .body → j.kind ≠ .erase → j.kind ≠ .keyErase → 12 ≤ s.nvm.pulses + 1 → j.after ≠ .journal →
        Completes (.sliceEnd false) s (fun u =>
          u.nvm.res = NvmRes.verify.code ∧ u.nvm.status = 3 ∧ u.nvm.jobs = [j] ∧ Raises s u 0x20 (mid .nvm) 0)) ∧
      (s.nvm.phase = .done → l = [] → s.nvm.intents.filter (fun i => i.seq ≠ s.nvm.cur) = [] → Completes (.sliceEnd true) s (fun u =>
        u.nvm.st = .idle ∧ u.nvm.jobs = [] ∧ u.nvm.intents = [] ∧ u.nvm.jpos = (s.nvm.jpos + 1) % s.member.nvmAt 2048))) ∧
    (∀ v : Bool, s.tick < s.nvm.sliceAt → exec (.sliceEnd v) s = .next s) ∧
    (s.nvm.st = .busy → s.nvm.sliceAt ≤ s.tick →
      (s.nvm.phase = .check → s.blank j.target 4096 = true → j.after = .plain → s.nvmTick.nvm.phase = .done ∨
        ∃ d, s.nvmTick.nvm.phase = .journalErase d) ∧
      (s.nvm.phase = .check → s.blank j.target 4096 = false → s.nvmTick.nvm.phase = .body ∧ s.nvmTick.nvm.mem = s.nvm.mem) ∧
      (∀ b, s.nvm.phase = .image b → s.imageOk b = false →
        s.nvmTick.nvm.res = NvmRes.badImg.code ∧ s.nvmTick.nvm.st = .idle ∧ s.nvmTick.nvm.jobs = [] ∧ s.nvmTick.nvm.mem = s.nvm.mem)) ∧
    (∀ (m : Master) (w : Word), (m = .link ∨ ∃ t, m = .thread t) →
      (s.nvm.st = .stepWait → s.nvm.redo = false → Completes (.nvmStep m w) s (fun u =>
        let k := max 1 (min (s.nvm.hwstep.toNat * 5 / 4) w.toNat)
        u.nvm = { s.nvm with
          st := .busy, held := s.flint.resetDue || (s.pow.k2due && decide (s.slate.st ≠ .committing)),
          sliceAt := s.tick + BitVec.ofNat 64 (1 + k + s.nvm.verifyTk) } ∧ u.fault = s.fault)) ∧
      (s.nvm.st ≠ .stepWait → exec (.nvmStep m w) s = .next s) ∧
      (s.nvm.st = .busy → s.nvm.held = false → (s.nvm.phase = .intent ∨ s.nvm.phase = .body ∨ s.nvm.phase = .done) →
        exec (.nvmAbortCmd m) s = .next { s with nvm := { s.nvm with
          stopAfter := some NvmRes.aborted.code, status := if s.nvm.phase = .done then 2 else s.nvm.status } }) ∧
      (s.nvm.st = .stepWait → j.after ≠ .journal → s.nvm.phase = .intent → Completes (.nvmAbortCmd m) s (fun u =>
        u.nvm.res = NvmRes.aborted.code ∧ u.nvm.jobs = [] ∧ u.nvm.mem = s.nvm.mem)) ∧
      (s.nvm.st = .stepWait → j.after ≠ .journal → s.nvm.phase = .body → Completes (.nvmAbortCmd m) s (fun u =>
        u.nvm.res = NvmRes.aborted.code ∧ u.nvm.status = 2 ∧ u.nvm.jobs = [j] ∧ u.nvm.intents = s.nvm.intents ∧
        (u.nvm.phase = .done ∨ u.nvm.phase = .journalErase true)))) ∧
    (s.nvm.st = .busy → s.nvm.held = false → s.nvm.phase = .body → j.after ≠ .journal → s.nvmResume.nvm.res = NvmRes.abortStill.code ∧
      s.nvmResume.nvm.jobs = [] ∧ s.nvmResume.nvm.intents = s.nvm.intents)
  ) ∧ (
  ∀ (s : State), s.clocked = true →
    (s.nvm.st = .scan → Completes .scanDone s (fun u =>
      u.nvm = { s.nvm with scanned := true, st := if s.nvm.intents = [] ∧ s.nvm.jtorn = false then .idle else .recovering } ∧
      (s.nvmFit = true → s.nvm.jobs = [] → s.nvm.intents ≠ [] → (s.tick, .intentRecovery) ∈ u.due))) ∧
    (s.nvm.st ≠ .scan → Completes .scanDone s (fun u => u = { s with due := u.due })) ∧
    (s.nvm.st = .recovering → s.nvm.jobs = [] → s.nvmFit = true →
      (s.nvm.jtorn = true → Completes .intentRecovery s (fun u =>
        u.nvm.owner = mid .nvm ∧ u.nvm.redo = true ∧ u.nvm.phase = .check ∧ u.nvm.sliceAt = s.tick + 1024 ∧
          u.nvm.intents = s.nvm.intents ∧
        u.nvm.jobs = [{ kind := .erase, target := s.journalNext, data := [], after := .journal }])) ∧
      (∀ (i : Intent) (l : List Intent), s.nvm.jtorn = false → s.nvm.intents = i :: l → i.kind = .program → i.after = .plain →
        Completes .intentRecovery s (fun u =>
          u.nvm.owner = i.mid ∧ u.nvm.cur = i.seq ∧ u.nvm.redo = true ∧ u.nvm.mem = s.nvm.mem ∧
          u.nvm.intents.map (fun x => { x with applied := false }) = (i :: l).map (fun x => { x with applied := false }) ∧
          u.nvm.status = (if crc32cBytes (s.flashBytes i.target i.len) = i.dcrc then 0 else 1) ∧
          ∃ j, u.nvm.jobs = [j] ∧ j.target = i.target ∧ j.kind = i.kind))) ∧
    (s.nvmFit = false → Completes .intentRecovery s (fun u => u = { s with due := u.due })) ∧
    (∀ k : Fin 7, s.nvm.st = .idle → s.nvmFit = true → s.counterPend k = true →
      (∀ x : Fin 7, x < k → s.counterPend x = false) → s.nvm.cpos % 128 ≠ 0 → Completes .counterIncrement s (fun u =>
        (u.nvm.st = .busy ∨ u.nvm.st = .stepWait) ∧ u.nvm.owner = mid .nvm ∧ u.nvm.rcnt = s.nvm.rcnt ∧ u.counterPend k = true ∧
        ∃ j, u.nvm.jobs = [j] ∧ j.after = .count k ∧ j.target = s.member.nvmAt 0x1C_0000 + 32 * s.nvm.cpos)) ∧
    (∀ k : Fin 7, s.nvm.st = .idle → s.nvmFit = true → s.counterPend k = true → (∀ x : Fin 7, x < k → s.counterPend x = false) →
      s.nvm.cpos % 128 = 0 →
      s.blank (s.member.nvmAt 0x1C_0000 + 32 * ((s.nvm.cpos + s.member.nvmAt 2048 - 1) % s.member.nvmAt 2048)) 32 = false →
      Completes .counterIncrement s (fun u => ∃ a b c d, u.nvm.jobs = [a, b, c, d] ∧
        a.target = s.member.nvmAt 0x1C_0000 + 32 * s.nvm.cpos ∧ b.target = a.target + 32 ∧ c.target = a.target + 64 ∧ c.after = .count k ∧
        d.kind = .erase ∧ d.target = s.member.nvmAt 0x1C_0000 + 4096 * ((s.nvm.cpos / 128 + 1) % s.member.nvmAt 16))) ∧
    ((∀ k : Fin 7, s.counterPend k = false) ∨ s.nvm.st ≠ .idle ∨ s.nvmFit = false →
      Completes .counterIncrement s (fun u => u = { s with due := u.due })) ∧
    (s.inRom 0 = true → s.pow.bootStep = 0 → s.isDue .bootStart = true → Completes .bootStart s (fun u =>
      u = { s with due := u.due, pow := { s.pow with bootStep := 1, phase := 1, bootAt := none } })) ∧
    (s.isDue .bootStart = false → Completes .bootStart s (fun u => u = { s with due := u.due }))
  )

/-- R329, R330, R332, R333, R337, R338, R339, R347: The device sends TP until its receiver locks and TPL until the partner's
has; training ends READY on idle and, after a loss, raises TANDEM_EVT 6; a device that falls idle sends its beacon, and hears
the role of its partner; a standby takes a good RECORD as its copy, a bad frame is counted and taken for nothing; silence until
the limit loses the link and makes the copy stale. Commands that complete: TANDEM_LOCK, TANDEM_READY, TANDEM_LINK_LOSS,
BEACON_SEND, BEACON, RECORD, TANDEM_FRAME_DISCARD, HRDY_WRITE. -/
def Obligations.TandemFramesArrive : Prop :=
  ∀ (s : State), s.clocked = true →
    let up : Prop := s.tan.role ≠ .solo
    let good (type : Nat) (p : List Word) : Word := crc32c (tanHdr type p.length :: p)
    (up → s.tan.link ≠ .ready →
      (∀ b : Bool, Completes (.tandemLock b) s (fun u =>
        u = { s with tan := { s.tan with link := .training, locked := true, peerTpl := b } } ∧
        u.tan.training = (if b then none else some 0x936C5AA5))) ∧
      (s.tan.locked = false → s.tan.training = some 0x6C93A55A ∧ exec .tandemReady s = .next s) ∧
      (s.tan.locked = true → Completes .tandemReady s (fun u =>
        u.tan = { s.tan with link := .ready, lostOnce := false, peerTpl := true, frames := none } ∧
        (s.tick + BitVec.ofNat 64 s.tanLoss, .tandemLinkLoss) ∈ u.due ∧ (laterTick s.tick s.tan.txBusy + 1024, .beaconSend) ∈ u.due ∧
        (s.tan.lostOnce = true → Raises s u 0x39 0x42 6) ∧ (s.tan.lostOnce = false → u.fault = s.fault)))) ∧
    (s.isDue .tandemLinkLoss = false → exec .tandemLinkLoss s = .next s) ∧ (s.isDue .beaconSend = false → exec .beaconSend s = .next s) ∧
    (up → s.tan.link = .ready →
      (s.isDue .tandemLinkLoss = true → Completes .tandemLinkLoss s (fun u =>
        u.tan.link = .lost ∧ u.tan.lostOnce = true ∧ u.tan.locked = false ∧
          u.tan.stale = (s.tan.stale || decide (s.tan.role = .standby)) ∧
        u.tan.role = s.tan.role ∧ Raises s u 0x38 0x42 0)) ∧
      (s.isDue .beaconSend = true → Completes .beaconSend s (fun u =>
        let w : List Word := [0xA5200001, s.beaconWord]
        u.tan.sent = s.tan.sent ++ [(laterTick s.tick s.tan.txBusy, w ++ [crc32c w])] ∧
        u.tan.txBusy = laterTick s.tick s.tan.txBusy + 24 ∧ (laterTick s.tick u.tan.txBusy + 1024, .beaconSend) ∈ u.due)) ∧
      (∀ p : List Word, p.length = 1 → Completes (.beacon p (good 2 p)) s (fun u =>
        u.tan.prole = roleOfCode (fld (p.getD 0 0) 30 2) ∧ (s.tick + BitVec.ofNat 64 s.tanLoss, .tandemLinkLoss) ∈ u.due ∧
        (s.tan.role ≠ .active ∨ u.tan.prole ≠ .active → u.fault = s.fault))) ∧
      (∀ p : List Word, p.length = 40 → s.tan.role = .standby → Completes (.record p (good 1 p)) s (fun u =>
        u.tan.copy = p ∧ u.tan.epochRx = p.getD 0 0 ∧ u.tan.nocopy = false ∧ u.tan.stale = false ∧
        u.tan.mismatch = decide (p.getD 3 0 ≠ s.slate.id) ∧ u.isl = s.isl)) ∧
      (∀ (p : List Word) (crc : Word), p.length = 40 → crc ≠ good 1 p → Completes (.record p crc) s (fun u =>
        u = { s with tan := { s.tan with perr := satAdd s.tan.perr 1, partials := satAdd s.tan.partials 1 } })) ∧
      (∀ b : Bool, Completes (.tandemFrameDiscard b) s (fun u =>
        u = { s with tan := { s.tan with perr := satAdd s.tan.perr 1,
                                         partials := if b then satAdd s.tan.partials 1 else s.tan.partials } }))) ∧
    (∀ (m : Master) (b : Bool), exec (.hrdyWrite m b) s = .next { s with tan := { s.tan with hrdy := b } })

/-- R335, R341, R342, R343, R344, R347, R348: A role changes hands. PROMOTE sends TAKE and waits for ACK, and FORCE_PROMOTE
waits for the gap alone; a TAKE, a HANDOVER and a DEMOTE make the active STANDBY with its shadow stages; the former active owes
an ACK with the EPOCH of its final record, all ones where it sent none, whatever it is told meanwhile, unless its link is lost;
an ACK or a RELEASE begins the gap, at whose end the device is ACTIVE with the copy's outputs, held values and counts; a command
that the state does not allow sets CRES, and another master's is ACC_MASTER. Commands that complete: PROMOTE, HANDOVER,
FORCE_PROMOTE, DEMOTE, TAKE, ACK, RELEASE, ACK_SEND, ACK_TIMEOUT, GAP_END. -/
def Obligations.RolesChangeHands : Prop :=
  ∀ (s : State), s.clocked = true →
    let takes : Prop := s.tan.link = .ready
    let free : Prop := s.fault.lockout = false ∧ s.tan.pbusy = false
    let refused (u : State) (k : BitVec 4) : Prop := u = { s with tan := { s.tan with cres := k } }
    let sends (u : State) (k : Nat) (w : List Word) : Prop :=
      u.tan.sent = s.tan.sent ++ [(laterTick (s.tick + BitVec.ofNat 64 k) s.tan.txBusy, w ++ [crc32c w])]
    let gap (u : State) : Prop := u.tan.hand = .gap ∧ u.tan.pbusy = true ∧ u.tan.role = .standby ∧
      (s.tick + BitVec.ofNat 64 s.tanGap, .gapEnd) ∈ u.due
    let gone (u : State) : Prop := u.tan.role = .standby ∧ u.tan.nocopy = true ∧
      (∀ n : IslandNo, s.running n = true → shadows (s.pers n) = true → Queues u n .tandem (.cmd .shadow)) ∧
      ∃ r ∈ u.fault.react ++ u.fault.dq, r.src = 0x39 ∧ r.kind = 4
    let gives (u : State) : Prop := gone u ∧ u.tan.hand = .none ∧ u.tan.ackDue = true ∧ u.tan.pbusy = false ∧
      (s.tanHac = false ∨ s.tan.hrdy = true → u.tan.final = s.tan.epochTx + 1) ∧
      (s.tanHac = true → s.tan.hrdy = false → u.tan.final = 0xFFFFFFFF ∧ u.tan.sent = s.tan.sent) ∧
      (s.tanHac = false → sends u 4 (0xA5100028 :: s.recordWords (s.tan.epochTx + 1)))
    (free → s.tan.role = .standby → s.tan.link = .ready → Completes (.promote .link) s (fun u =>
      u.tan.pbusy = true ∧ u.tan.hand = .awaitAck ∧ u.tan.cres = 0 ∧ sends u 0 [0xA5300000] ∧
      (laterTick s.tick s.tan.txBusy + 8192, .ackTimeout) ∈ u.due)) ∧
    (free → s.tan.role = .standby → s.tan.link ≠ .ready → Completes (.promote .link) s (fun u => refused u 1)) ∧
    (free → s.tan.role = .active → s.tan.link ≠ .ready → Completes (.handover .link) s (fun u => refused u 1)) ∧
    (free → s.tan.role = .standby → Completes (.forcePromote .link) s gap) ∧
    (free → s.tan.role = .active → s.tan.link = .ready → Completes (.handover .link) s gives) ∧
    (free → s.tan.role = .active → Completes (.demote .link) s gone) ∧
    (∀ c ∈ [(Instr.promote .link, Role.standby), (.forcePromote .link, .standby), (.handover .link, .active), (.demote .link, .active)],
      (s.fault.lockout = true → Completes c.1 s (fun u => refused u 5)) ∧
      (s.fault.lockout = false → s.tan.role ≠ c.2 → Completes c.1 s (fun u => refused u 3)) ∧
      (s.fault.lockout = false → s.tan.role = c.2 → s.tan.pbusy = true → Completes c.1 s (fun u => refused u 4))) ∧
    (∀ m : Master, m ≠ .link → ∀ c ∈ [Instr.promote m, .forcePromote m, .handover m, .demote m],
      Completes c s (fun u => u.tan = s.tan ∧ Raises s u 0x09 (mid m) 0)) ∧
    (takes →
      (s.tan.role = .active → Completes (.take [] (crc32c [0xA5300000])) s gives) ∧
      (s.tan.role = .standby → Completes (.take [] (crc32c [0xA5300000])) s (fun u =>
        u.tan.role = .standby ∧ sends u 0 [0xA5400001, 0xFFFFFFFF])) ∧
      (∀ w : Word, s.tan.role = .standby →
        (s.tan.hand = .awaitAck ∨ (s.tan.hand = .none ∧ s.tan.ackDue = false) → Completes (.ack [w] (crc32c [0xA5400001, w])) s gap) ∧
        (s.tan.hand ≠ .gap → Completes (.release [w] (crc32c [0xA5500001, w])) s gap))) ∧
    (∀ c ∈ [Instr.ackSend, .ackTimeout, .gapEnd], s.isDue c = false → exec c s = .next s) ∧
    (s.tan.ackDue = true → s.isDue .ackSend = true →
      (s.tan.role ≠ .solo → takes → Completes .ackSend s (fun u =>
        u.tan.ackDue = false ∧ u.tan.hand = s.tan.hand ∧ sends u 0 [0xA5400001, s.tan.final])) ∧
      (s.tan.role = .solo ∨ ¬ takes → Completes .ackSend s (fun u =>
        u = { s with due := u.due, tan := { s.tan with ackDue := false } }))) ∧
    (s.tan.hand = .awaitAck → s.tan.commitWait = false → s.isDue .ackTimeout = true → Completes .ackTimeout s (fun u =>
      u.tan.cres = 2 ∧ u.tan.pbusy = false ∧ u.tan.hand = .none ∧ u.tan.role = s.tan.role ∧ Raises s u 0x39 0x42 5)) ∧
    (s.tan.hand = .gap → s.tan.role = .standby → s.tan.commitWait = false → s.isDue .gapEnd = true → Completes .gapEnd s (fun u =>
      u.tan.role = .active ∧ u.tan.pbusy = false ∧ u.tan.hand = .none ∧ u.tan.cres = 0 ∧
      (∃ r ∈ u.fault.react ++ u.fault.dq, r.src = 0x39 ∧ r.kind = 3) ∧
      (s.tan.nocopy = false → u.tan.epochTx = s.tan.epochRx ∧
        ∀ n : IslandNo, s.running n = true →
          (s.isl[n].pers.output = true → (s.tan.copy.getD 5 0).getLsbD n.val = true →
            u.isl[n].lastOut = s.tan.copy.getD (8 + n.val) 0 ∧ u.isl[n].cmd.en = (s.tan.copy.getD (8 + n.val) 0).getLsbD 31) ∧
          (s.isl[n].pers.output = true → (s.tan.copy.getD (24 + n.val) 0).getLsbD 31 = true →
            u.isl[n].safe.held = (s.tan.copy.getD (24 + n.val) 0).extractLsb' 0 16) ∧
          (s.isl[n].pers = .diCnt → u.isl[n].din.count = s.tan.copy.getD (24 + n.val) 0)) ∧
      (s.tan.nocopy = true → ∀ n : IslandNo, s.isl[n].pers.output = true → u.isl[n].cmd = OutCmd.reset) ∧
      ∀ n : IslandNo, s.running n = true → shadows (s.pers n) = true → Queues u n .tandem (.cmd .unshadow)))
end

