-- ==== Sys2Proof/Laws/Exec.lean ====
section
/-! SUPPORT. What exec answers for each command, by rfl, so that no proof unfolds the dispatch. -/

namespace Sys2Proof.Machine

@[simp] theorem exec_hckStop (s : State) : exec (.hckStop) s = execHckStop s := rfl
@[simp] theorem exec_hckResume (s : State) : exec (.hckResume) s = execHckResume s := rfl
@[simp] theorem exec_tickLoRead (m : Master) (s : State) : exec (.tickLoRead m) s = execTickLoRead m s := rfl
@[simp] theorem exec_registerWrite (m : Master) (addr val : Word) (s : State) : exec (.registerWrite m addr val) s = execRegisterWrite m addr val s := rfl
@[simp] theorem exec_outword (n : IslandNo) (w : Word) (s : State) : exec (.outword n w) s = execOutword n w s := rfl
@[simp] theorem exec_raddr (n : IslandNo) (a : Word) (s : State) : exec (.raddr n a) s = execRaddr n a s := rfl
@[simp] theorem exec_waddr (n : IslandNo) (a : Word) (s : State) : exec (.waddr n a) s = execWaddr n a s := rfl
@[simp] theorem exec_wdata (n : IslandNo) (w : Word) (s : State) : exec (.wdata n w) s = execWdata n w s := rfl
@[simp] theorem exec_rung (n : IslandNo) (r : Rungs) (s : State) : exec (.rung n r) s = execRung n r s := rfl
@[simp] theorem exec_rungSwitchDone (n : IslandNo) (s : State) : exec (.rungSwitchDone n) s = execRungSwitchDone n s := rfl
@[simp] theorem exec_rungAct (n : IslandNo) (s : State) : exec (.rungAct n) s = execRungAct n s := rfl
@[simp] theorem exec_cmdPrep (n : IslandNo) (s : State) : exec (.cmdPrep n) s = execCmdPrep n s := rfl
@[simp] theorem exec_cmdApply (n : IslandNo) (s : State) : exec (.cmdApply n) s = execCmdApply n s := rfl
@[simp] theorem exec_cmdShadow (n : IslandNo) (s : State) : exec (.cmdShadow n) s = execCmdShadow n s := rfl
@[simp] theorem exec_cmdUnshadow (n : IslandNo) (s : State) : exec (.cmdUnshadow n) s = execCmdUnshadow n s := rfl
@[simp] theorem exec_cmdEcho (n : IslandNo) (w : Word) (s : State) : exec (.cmdEcho n w) s = execCmdEcho n w s := rfl
@[simp] theorem exec_channelFaultCell (n : IslandNo) (s : State) : exec (.channelFaultCell n) s = execChannelFaultCell n s := rfl
@[simp] theorem exec_clearCell (n : IslandNo) (s : State) : exec (.clearCell n) s = execClearCell n s := rfl
@[simp] theorem exec_outputCommand (n : IslandNo) (m : Master) (w : Word) (s : State) : exec (.outputCommand n m w) s = execOutputCommand n m w s := rfl
@[simp] theorem exec_hartDown (n : IslandNo) (b : Byte) (last : Bool) (s : State) : exec (.hartDown n b last) s = execHartDown n b last s := rfl
@[simp] theorem exec_sync (n : IslandNo) (d : Dir) (seq : BitVec 2) (s : State) : exec (.sync n d seq) s = execSync n d seq s := rfl
@[simp] theorem exec_rdata (n : IslandNo) (w : Word) (s : State) : exec (.rdata n w) s = execRdata n w s := rfl
@[simp] theorem exec_resultCell (n : IslandNo) (w : Word) (s : State) : exec (.resultCell n w) s = execResultCell n w s := rfl
@[simp] theorem exec_statusCell (n : IslandNo) (msg : StatusMsg) (s : State) : exec (.statusCell n msg) s = execStatusCell n msg s := rfl
@[simp] theorem exec_hartUp (n : IslandNo) (b : Byte) (start perr : Bool) (s : State) : exec (.hartUp n b start perr) s = execHartUp n b start perr s := rfl
@[simp] theorem exec_fatal (n : IslandNo) (s : State) : exec (.fatal n) s = execFatal n s := rfl
@[simp] theorem exec_cellRetransmit (n : IslandNo) (d : Dir) (s : State) : exec (.cellRetransmit n d) s = execCellRetransmit n d s := rfl
@[simp] theorem exec_symbolTimeout (n : IslandNo) (s : State) : exec (.symbolTimeout n) s = execSymbolTimeout n s := rfl
@[simp] theorem exec_couplerFault (n : IslandNo) (s : State) : exec (.couplerFault n) s = execCouplerFault n s := rfl
@[simp] theorem exec_firstSymbolTimeout (n : IslandNo) (s : State) : exec (.firstSymbolTimeout n) s = execFirstSymbolTimeout n s := rfl
@[simp] theorem exec_grainRelease (n : IslandNo) (s : State) : exec (.grainRelease n) s = execGrainRelease n s := rfl
@[simp] theorem exec_killMarkDetect (n : IslandNo) (s : State) : exec (.killMarkDetect n) s = execKillMarkDetect n s := rfl
@[simp] theorem exec_safeMarkDetect (n : IslandNo) (s : State) : exec (.safeMarkDetect n) s = execSafeMarkDetect n s := rfl
@[simp] theorem exec_carrierLoss (n : IslandNo) (s : State) : exec (.carrierLoss n) s = execCarrierLoss n s := rfl
@[simp] theorem exec_cvBelow6v (n : IslandNo) (s : State) : exec (.cvBelow6v n) s = execCvBelow6v n s := rfl
@[simp] theorem exec_reservoirOk (n : IslandNo) (s : State) : exec (.reservoirOk n) s = execReservoirOk n s := rfl
@[simp] theorem exec_chargeComplete (n : IslandNo) (s : State) : exec (.chargeComplete n) s = execChargeComplete n s := rfl
@[simp] theorem exec_firstSymbol (n : IslandNo) (lvl : TermLevel) (s : State) : exec (.firstSymbol n lvl) s = execFirstSymbol n lvl s := rfl
@[simp] theorem exec_ledgerWrite (m : Master) (n : IslandNo) (w : Word) (s : State) : exec (.ledgerWrite m n w) s = execLedgerWrite m n w s := rfl
@[simp] theorem exec_readmit (m : Master) (s : State) : exec (.readmit m) s = execReadmit m s := rfl
@[simp] theorem exec_admissionComplete (s : State) : exec (.admissionComplete) s = execAdmissionComplete s := rfl
@[simp] theorem exec_powerWindowEnd (n : IslandNo) (gr100 : Nat) (s : State) : exec (.powerWindowEnd n gr100) s = execPowerWindowEnd n gr100 s := rfl
@[simp] theorem exec_islandPowerWrite (m : Master) (w : Word) (s : State) : exec (.islandPowerWrite m w) s = execIslandPowerWrite m w s := rfl
@[simp] theorem exec_tpLock (s : State) : exec (.tpLock) s = execTpLock s := rfl
@[simp] theorem exec_eyeFound (tap0 tap1 : BitVec 4) (s : State) : exec (.eyeFound tap0 tap1) s = execEyeFound tap0 tap1 s := rfl
@[simp] theorem exec_trainingLost (s : State) : exec (.trainingLost) s = execTrainingLost s := rfl
@[simp] theorem exec_echoIdle (s : State) : exec (.echoIdle) s = execEchoIdle s := rfl
@[simp] theorem exec_frameHeader (hdr : Word) (idle : Nat) (s : State) : exec (.frameHeader hdr idle) s = execFrameHeader hdr idle s := rfl
@[simp] theorem exec_cycle (payload : List Word) (crc : Word) (s : State) : exec (.cycle payload crc) s = execCycle payload crc s := rfl
@[simp] theorem exec_regw (payload : List Word) (crc : Word) (s : State) : exec (.regw payload crc) s = execRegw payload crc s := rfl
@[simp] theorem exec_regr (payload : List Word) (crc : Word) (s : State) : exec (.regr payload crc) s = execRegr payload crc s := rfl
@[simp] theorem exec_bulk (payload : List Word) (crc : Word) (s : State) : exec (.bulk payload crc) s = execBulk payload crc s := rfl
@[simp] theorem exec_commandExecute (s : State) : exec (.commandExecute) s = execCommandExecute s := rfl
@[simp] theorem exec_ctrlNop (payload : List Word) (crc : Word) (s : State) : exec (.ctrlNop payload crc) s = execCtrlNop payload crc s := rfl
@[simp] theorem exec_linkReset (payload : List Word) (crc : Word) (s : State) : exec (.linkReset payload crc) s = execLinkReset payload crc s := rfl
@[simp] theorem exec_ctrlRetrain (payload : List Word) (crc : Word) (s : State) : exec (.ctrlRetrain payload crc) s = execCtrlRetrain payload crc s := rfl
@[simp] theorem exec_resendReads (payload : List Word) (crc : Word) (s : State) : exec (.resendReads payload crc) s = execResendReads payload crc s := rfl
@[simp] theorem exec_flushReads (payload : List Word) (crc : Word) (s : State) : exec (.flushReads payload crc) s = execFlushReads payload crc s := rfl
@[simp] theorem exec_ctrlLoop (payload : List Word) (crc : Word) (s : State) : exec (.ctrlLoop payload crc) s = execCtrlLoop payload crc s := rfl
@[simp] theorem exec_idleFrame (payload : List Word) (crc : Word) (s : State) : exec (.idleFrame payload crc) s = execIdleFrame payload crc s := rfl
@[simp] theorem exec_linkCtrlRetrain (m : Master) (s : State) : exec (.linkCtrlRetrain m) s = execLinkCtrlRetrain m s := rfl
@[simp] theorem exec_retrainApply (s : State) : exec (.retrainApply) s = execRetrainApply s := rfl
@[simp] theorem exec_loopApply (s : State) : exec (.loopApply) s = execLoopApply s := rfl
@[simp] theorem exec_csEarlyRise (afterCrc : Bool) (s : State) : exec (.csEarlyRise afterCrc) s = execCsEarlyRise afterCrc s := rfl
@[simp] theorem exec_slateOpen (m : Master) (s : State) : exec (.slateOpen m) s = execSlateOpen m s := rfl
@[simp] theorem exec_slateLoadNvm (m : Master) (s : State) : exec (.slateLoadNvm m) s = execSlateLoadNvm m s := rfl
@[simp] theorem exec_nvmLoadComplete (readOk : Bool) (s : State) : exec (.nvmLoadComplete readOk) s = execNvmLoadComplete readOk s := rfl
@[simp] theorem exec_slateLoad (m : Master) (w : Word) (s : State) : exec (.slateLoad m w) s = execSlateLoad m w s := rfl
@[simp] theorem exec_slateVerify (m : Master) (s : State) : exec (.slateVerify m) s = execSlateVerify m s := rfl
@[simp] theorem exec_verifyComplete (s : State) : exec (.verifyComplete) s = execVerifyComplete s := rfl
@[simp] theorem exec_slateCommit (m : Master) (s : State) : exec (.slateCommit m) s = execSlateCommit m s := rfl
@[simp] theorem exec_commitSwitch (s : State) : exec (.commitSwitch) s = execCommitSwitch s := rfl
@[simp] theorem exec_fullPass (s : State) : exec (.fullPass) s = execFullPass s := rfl
@[simp] theorem exec_commitComplete (s : State) : exec (.commitComplete) s = execCommitComplete s := rfl
@[simp] theorem exec_slateAbort (m : Master) (s : State) : exec (.slateAbort m) s = execSlateAbort m s := rfl
@[simp] theorem exec_holdclr (m : Master) (w : Word) (s : State) : exec (.holdclr m w) s = execHoldclr m w s := rfl
@[simp] theorem exec_keyProgram (m : Master) (k : Fin 8) (s : State) : exec (.keyProgram m k) s = execKeyProgram m k s := rfl
@[simp] theorem exec_keyRevoke (m : Master) (k : Fin 8) (s : State) : exec (.keyRevoke m k) s = execKeyRevoke m k s := rfl
@[simp] theorem exec_setAuthReq (m : Master) (s : State) : exec (.setAuthReq m) s = execSetAuthReq m s := rfl
@[simp] theorem exec_keyEraseAll (m : Master) (s : State) : exec (.keyEraseAll m) s = execKeyEraseAll m s := rfl
@[simp] theorem exec_inputTransition (n : IslandNo) (raw : TermLevel) (s : State) : exec (.inputTransition n raw) s = execInputTransition n raw s := rfl
@[simp] theorem exec_qualifiedEdge (n : IslandNo) (s : State) : exec (.qualifiedEdge n) s = execQualifiedEdge n s := rfl
@[simp] theorem exec_longHold (n : IslandNo) (s : State) : exec (.longHold n) s = execLongHold n s := rfl
@[simp] theorem exec_wireBreak (n : IslandNo) (s : State) : exec (.wireBreak n) s = execWireBreak n s := rfl
@[simp] theorem exec_breakClear (n : IslandNo) (s : State) : exec (.breakClear n) s = execBreakClear n s := rfl
@[simp] theorem exec_currUpdate (n : IslandNo) (tenMicroamps : Nat) (s : State) : exec (.currUpdate n tenMicroamps) s = execCurrUpdate n tenMicroamps s := rfl
@[simp] theorem exec_cntWrite (n : IslandNo) (w : Word) (s : State) : exec (.cntWrite n w) s = execCntWrite n w s := rfl
@[simp] theorem exec_gateEnd (n : IslandNo) (s : State) : exec (.gateEnd n) s = execGateEnd n s := rfl
@[simp] theorem exec_sensOvl (n : IslandNo) (s : State) : exec (.sensOvl n) s = execSensOvl n s := rfl
@[simp] theorem exec_vfLow (n : IslandNo) (s : State) : exec (.vfLow n) s = execVfLow n s := rfl
@[simp] theorem exec_vfLowClear (n : IslandNo) (s : State) : exec (.vfLowClear n) s = execVfLowClear n s := rfl
@[simp] theorem exec_pwmPeriodStart (n : IslandNo) (s : State) : exec (.pwmPeriodStart n) s = execPwmPeriodStart n s := rfl
@[simp] theorem exec_pwmPhaseEnd (n : IslandNo) (s : State) : exec (.pwmPhaseEnd n) s = execPwmPhaseEnd n s := rfl
@[simp] theorem exec_inrushEnd (n : IslandNo) (s : State) : exec (.inrushEnd n) s = execInrushEnd n s := rfl
@[simp] theorem exec_shortLatch (n : IslandNo) (s : State) : exec (.shortLatch n) s = execShortLatch n s := rfl
@[simp] theorem exec_overloadLatch (n : IslandNo) (s : State) : exec (.overloadLatch n) s = execOverloadLatch n s := rfl
@[simp] theorem exec_switchOvertemp (n : IslandNo) (s : State) : exec (.switchOvertemp n) s = execSwitchOvertemp n s := rfl
@[simp] theorem exec_switchCooled (n : IslandNo) (s : State) : exec (.switchCooled n) s = execSwitchCooled n s := rfl
@[simp] theorem exec_outputCheck (n : IslandNo) (c : LoadCheck) (s : State) : exec (.outputCheck n c) s = execOutputCheck n c s := rfl
@[simp] theorem exec_diagClear (n : IslandNo) (w : Word) (s : State) : exec (.diagClear n w) s = execDiagClear n w s := rfl
@[simp] theorem exec_loopOvl (c : Supervision) (s : State) : exec (.loopOvl c) s = execLoopOvl c s := rfl
@[simp] theorem exec_aoOpen (c : Supervision) (s : State) : exec (.aoOpen c) s = execAoOpen c s := rfl
@[simp] theorem exec_aoOvertemp (n : IslandNo) (s : State) : exec (.aoOvertemp n) s = execAoOvertemp n s := rfl
@[simp] theorem exec_aoCooled (n : IslandNo) (s : State) : exec (.aoCooled n) s = execAoCooled n s := rfl
@[simp] theorem exec_hcmdSend (n : IslandNo) (len : BitVec 9) (s : State) : exec (.hcmdSend n len) s = execHcmdSend n len s := rfl
@[simp] theorem exec_hcmdAbort (n : IslandNo) (s : State) : exec (.hcmdAbort n) s = execHcmdAbort n s := rfl
@[simp] theorem exec_hcmdListen (n : IslandNo) (s : State) : exec (.hcmdListen n) s = execHcmdListen n s := rfl
@[simp] theorem exec_hrawWrite (m : Master) (n : IslandNo) (b : Byte) (last : Bool) (s : State) : exec (.hrawWrite m n b last) s = execHrawWrite m n b last s := rfl
@[simp] theorem exec_hrawrRead (m : Master) (n : IslandNo) (s : State) : exec (.hrawrRead m n) s = execHrawrRead m n s := rfl
@[simp] theorem exec_hartCharEnd (n : IslandNo) (s : State) : exec (.hartCharEnd n) s = execHartCharEnd n s := rfl
@[simp] theorem exec_hartCharRx (n : IslandNo) (b : Byte) (parityOk : Bool) (s : State) : exec (.hartCharRx n b parityOk) s = execHartCharRx n b parityOk s := rfl
@[simp] theorem exec_hartRxEnd (n : IslandNo) (s : State) : exec (.hartRxEnd n) s = execHartRxEnd n s := rfl
@[simp] theorem exec_hartTimeout (n : IslandNo) (s : State) : exec (.hartTimeout n) s = execHartTimeout n s := rfl
@[simp] theorem exec_carrierDetect (n : IslandNo) (s : State) : exec (.carrierDetect n) s = execCarrierDetect n s := rfl
@[simp] theorem exec_conversionStart (n : IslandNo) (s : State) : exec (.conversionStart n) s = execConversionStart n s := rfl
@[simp] theorem exec_conversionEnd (n : IslandNo) (code : BitVec 18) (ovr : OverRange) (tbOpen : Bool) (s : State) :
    exec (.conversionEnd n code ovr tbOpen) s = execConversionEnd n code ovr tbOpen s := rfl
@[simp] theorem exec_resultWrite (n : IslandNo) (s : State) : exec (.resultWrite n) s = execResultWrite n s := rfl
@[simp] theorem exec_roundStart (n : IslandNo) (s : State) : exec (.roundStart n) s = execRoundStart n s := rfl
@[simp] theorem exec_calibrationStart (n : IslandNo) (s : State) : exec (.calibrationStart n) s = execCalibrationStart n s := rfl
@[simp] theorem exec_adcConvert (n : IslandNo) (entry : BitVec 4) (s : State) : exec (.adcConvert n entry) s = execAdcConvert n entry s := rfl
@[simp] theorem exec_adcRtrig (n : IslandNo) (s : State) : exec (.adcRtrig n) s = execAdcRtrig n s := rfl
@[simp] theorem exec_adcInject (n : IslandNo) (s : State) : exec (.adcInject n) s = execAdcInject n s := rfl
@[simp] theorem exec_adcCal (n : IslandNo) (s : State) : exec (.adcCal n) s = execAdcCal n s := rfl
@[simp] theorem exec_resultSlotRead (m : Master) (n : IslandNo) (slot : Fin 20) (s : State) : exec (.resultSlotRead m n slot) s = execResultSlotRead m n slot s := rfl
@[simp] theorem exec_add (t : CtxNo) (rd ra rb : RegNo) (s : State) : exec (.add t rd ra rb) s = execAdd t rd ra rb s := rfl
@[simp] theorem exec_sub (t : CtxNo) (rd ra rb : RegNo) (s : State) : exec (.sub t rd ra rb) s = execSub t rd ra rb s := rfl
@[simp] theorem exec_and (t : CtxNo) (rd ra rb : RegNo) (s : State) : exec (.and t rd ra rb) s = execAnd t rd ra rb s := rfl
@[simp] theorem exec_or (t : CtxNo) (rd ra rb : RegNo) (s : State) : exec (.or t rd ra rb) s = execOr t rd ra rb s := rfl
@[simp] theorem exec_xor (t : CtxNo) (rd ra rb : RegNo) (s : State) : exec (.xor t rd ra rb) s = execXor t rd ra rb s := rfl
@[simp] theorem exec_sll (t : CtxNo) (rd ra rb : RegNo) (s : State) : exec (.sll t rd ra rb) s = execSll t rd ra rb s := rfl
@[simp] theorem exec_srl (t : CtxNo) (rd ra rb : RegNo) (s : State) : exec (.srl t rd ra rb) s = execSrl t rd ra rb s := rfl
@[simp] theorem exec_sra (t : CtxNo) (rd ra rb : RegNo) (s : State) : exec (.sra t rd ra rb) s = execSra t rd ra rb s := rfl
@[simp] theorem exec_slt (t : CtxNo) (rd ra rb : RegNo) (s : State) : exec (.slt t rd ra rb) s = execSlt t rd ra rb s := rfl
@[simp] theorem exec_sltu (t : CtxNo) (rd ra rb : RegNo) (s : State) : exec (.sltu t rd ra rb) s = execSltu t rd ra rb s := rfl
@[simp] theorem exec_mul (t : CtxNo) (rd ra rb : RegNo) (s : State) : exec (.mul t rd ra rb) s = execMul t rd ra rb s := rfl
@[simp] theorem exec_mulh (t : CtxNo) (rd ra rb : RegNo) (s : State) : exec (.mulh t rd ra rb) s = execMulh t rd ra rb s := rfl
@[simp] theorem exec_div (t : CtxNo) (rd ra rb : RegNo) (s : State) : exec (.div t rd ra rb) s = execDiv t rd ra rb s := rfl
@[simp] theorem exec_rem (t : CtxNo) (rd ra rb : RegNo) (s : State) : exec (.rem t rd ra rb) s = execRem t rd ra rb s := rfl
@[simp] theorem exec_min (t : CtxNo) (rd ra rb : RegNo) (s : State) : exec (.min t rd ra rb) s = execMin t rd ra rb s := rfl
@[simp] theorem exec_max (t : CtxNo) (rd ra rb : RegNo) (s : State) : exec (.max t rd ra rb) s = execMax t rd ra rb s := rfl
@[simp] theorem exec_addi (t : CtxNo) (rd ra : RegNo) (imm : BitVec 18) (s : State) : exec (.addi t rd ra imm) s = execAddi t rd ra imm s := rfl
@[simp] theorem exec_andi (t : CtxNo) (rd ra : RegNo) (imm : BitVec 18) (s : State) : exec (.andi t rd ra imm) s = execAndi t rd ra imm s := rfl
@[simp] theorem exec_ori (t : CtxNo) (rd ra : RegNo) (imm : BitVec 18) (s : State) : exec (.ori t rd ra imm) s = execOri t rd ra imm s := rfl
@[simp] theorem exec_xori (t : CtxNo) (rd ra : RegNo) (imm : BitVec 18) (s : State) : exec (.xori t rd ra imm) s = execXori t rd ra imm s := rfl
@[simp] theorem exec_slli (t : CtxNo) (rd ra : RegNo) (imm : BitVec 18) (s : State) : exec (.slli t rd ra imm) s = execSlli t rd ra imm s := rfl
@[simp] theorem exec_srli (t : CtxNo) (rd ra : RegNo) (imm : BitVec 18) (s : State) : exec (.srli t rd ra imm) s = execSrli t rd ra imm s := rfl
@[simp] theorem exec_srai (t : CtxNo) (rd ra : RegNo) (imm : BitVec 18) (s : State) : exec (.srai t rd ra imm) s = execSrai t rd ra imm s := rfl
@[simp] theorem exec_slti (t : CtxNo) (rd ra : RegNo) (imm : BitVec 18) (s : State) : exec (.slti t rd ra imm) s = execSlti t rd ra imm s := rfl
@[simp] theorem exec_sltiu (t : CtxNo) (rd ra : RegNo) (imm : BitVec 18) (s : State) : exec (.sltiu t rd ra imm) s = execSltiu t rd ra imm s := rfl
@[simp] theorem exec_ldw (t : CtxNo) (rd ra : RegNo) (imm : BitVec 18) (s : State) : exec (.ldw t rd ra imm) s = execLdw t rd ra imm s := rfl
@[simp] theorem exec_ldh (t : CtxNo) (rd ra : RegNo) (imm : BitVec 18) (s : State) : exec (.ldh t rd ra imm) s = execLdh t rd ra imm s := rfl
@[simp] theorem exec_ldhu (t : CtxNo) (rd ra : RegNo) (imm : BitVec 18) (s : State) : exec (.ldhu t rd ra imm) s = execLdhu t rd ra imm s := rfl
@[simp] theorem exec_ldb (t : CtxNo) (rd ra : RegNo) (imm : BitVec 18) (s : State) : exec (.ldb t rd ra imm) s = execLdb t rd ra imm s := rfl
@[simp] theorem exec_ldbu (t : CtxNo) (rd ra : RegNo) (imm : BitVec 18) (s : State) : exec (.ldbu t rd ra imm) s = execLdbu t rd ra imm s := rfl
@[simp] theorem exec_stw (t : CtxNo) (ra rb : RegNo) (off : BitVec 18) (s : State) : exec (.stw t ra rb off) s = execStw t ra rb off s := rfl
@[simp] theorem exec_sth (t : CtxNo) (ra rb : RegNo) (off : BitVec 18) (s : State) : exec (.sth t ra rb off) s = execSth t ra rb off s := rfl
@[simp] theorem exec_stb (t : CtxNo) (ra rb : RegNo) (off : BitVec 18) (s : State) : exec (.stb t ra rb off) s = execStb t ra rb off s := rfl
@[simp] theorem exec_beq (t : CtxNo) (ra rb : RegNo) (off : BitVec 18) (s : State) : exec (.beq t ra rb off) s = execBeq t ra rb off s := rfl
@[simp] theorem exec_bne (t : CtxNo) (ra rb : RegNo) (off : BitVec 18) (s : State) : exec (.bne t ra rb off) s = execBne t ra rb off s := rfl
@[simp] theorem exec_blt (t : CtxNo) (ra rb : RegNo) (off : BitVec 18) (s : State) : exec (.blt t ra rb off) s = execBlt t ra rb off s := rfl
@[simp] theorem exec_bge (t : CtxNo) (ra rb : RegNo) (off : BitVec 18) (s : State) : exec (.bge t ra rb off) s = execBge t ra rb off s := rfl
@[simp] theorem exec_bltu (t : CtxNo) (ra rb : RegNo) (off : BitVec 18) (s : State) : exec (.bltu t ra rb off) s = execBltu t ra rb off s := rfl
@[simp] theorem exec_bgeu (t : CtxNo) (ra rb : RegNo) (off : BitVec 18) (s : State) : exec (.bgeu t ra rb off) s = execBgeu t ra rb off s := rfl
@[simp] theorem exec_jalr (t : CtxNo) (rd ra : RegNo) (imm : BitVec 18) (s : State) : exec (.jalr t rd ra imm) s = execJalr t rd ra imm s := rfl
@[simp] theorem exec_jal (t : CtxNo) (rd : RegNo) (imm : BitVec 22) (s : State) : exec (.jal t rd imm) s = execJal t rd imm s := rfl
@[simp] theorem exec_lui (t : CtxNo) (rd : RegNo) (imm : BitVec 22) (s : State) : exec (.lui t rd imm) s = execLui t rd imm s := rfl
@[simp] theorem exec_fork (t : CtxNo) (rd ra rb : RegNo) (fn : BitVec 14) (s : State) : exec (.fork t rd ra rb fn) s = execFork t rd ra rb fn s := rfl
@[simp] theorem exec_childStart (t : CtxNo) (s : State) : exec (.childStart t) s = execChildStart t s := rfl
@[simp] theorem exec_join (t : CtxNo) (ra : RegNo) (s : State) : exec (.join t ra) s = execJoin t ra s := rfl
@[simp] theorem exec_wfe (t : CtxNo) (rd ra : RegNo) (s : State) : exec (.wfe t rd ra) s = execWfe t rd ra s := rfl
@[simp] theorem exec_wfeTimeout (t : CtxNo) (s : State) : exec (.wfeTimeout t) s = execWfeTimeout t s := rfl
@[simp] theorem exec_watch (t : CtxNo) (imm : BitVec 18) (s : State) : exec (.watch t imm) s = execWatch t imm s := rfl
@[simp] theorem exec_lock (t : CtxNo) (rd : RegNo) (imm : BitVec 18) (s : State) : exec (.lock t rd imm) s = execLock t rd imm s := rfl
@[simp] theorem exec_unlk (t : CtxNo) (rd : RegNo) (imm : BitVec 18) (s : State) : exec (.unlk t rd imm) s = execUnlk t rd imm s := rfl
@[simp] theorem exec_clrp (t : CtxNo) (rd : RegNo) (imm : BitVec 18) (s : State) : exec (.clrp t rd imm) s = execClrp t rd imm s := rfl
@[simp] theorem exec_rdtk (t : CtxNo) (rd : RegNo) (imm : BitVec 18) (s : State) : exec (.rdtk t rd imm) s = execRdtk t rd imm s := rfl
@[simp] theorem exec_outc (t : CtxNo) (rd ra : RegNo) (imm : BitVec 18) (s : State) : exec (.outc t rd ra imm) s = execOutc t rd ra imm s := rfl
@[simp] theorem exec_imgr (t : CtxNo) (rd : RegNo) (imm : BitVec 18) (s : State) : exec (.imgr t rd imm) s = execImgr t rd imm s := rfl
@[simp] theorem exec_fence (t : CtxNo) (rd : RegNo) (s : State) : exec (.fence t rd) s = execFence t rd s := rfl
@[simp] theorem exec_fenceComplete (t : CtxNo) (s : State) : exec (.fenceComplete t) s = execFenceComplete t s := rfl
@[simp] theorem exec_islandLoadReturn (t : CtxNo) (s : State) : exec (.islandLoadReturn t) s = execIslandLoadReturn t s := rfl
@[simp] theorem exec_multiSlotDone (t : CtxNo) (s : State) : exec (.multiSlotDone t) s = execMultiSlotDone t s := rfl
@[simp] theorem exec_islandQueueFree (n : IslandNo) (s : State) : exec (.islandQueueFree n) s = execIslandQueueFree n s := rfl
@[simp] theorem exec_launch (m : Master) (ctx : BitVec 4) (s : State) : exec (.launch m ctx) s = execLaunch m ctx s := rfl
@[simp] theorem exec_kill (m : Master) (mask : BitVec 8) (s : State) : exec (.kill m mask) s = execKill m mask s := rfl
@[simp] theorem exec_lockForceRelease (m : Master) (k : Fin 64) (s : State) : exec (.lockForceRelease m k) s = execLockForceRelease m k s := rfl
@[simp] theorem exec_lockClearPoison (m : Master) (k : Fin 64) (s : State) : exec (.lockClearPoison m k) s = execLockClearPoison m k s := rfl
@[simp] theorem exec_harvestSlot (s : State) : exec (.harvestSlot) s = execHarvestSlot s := rfl
@[simp] theorem exec_eventPulse (line : BitVec 8) (s : State) : exec (.eventPulse line) s = execEventPulse line s := rfl
@[simp] theorem exec_swWrite (m : Master) (w : Word) (s : State) : exec (.swWrite m w) s = execSwWrite m w s := rfl
@[simp] theorem exec_timerPulse (k : Fin 16) (s : State) : exec (.timerPulse k) s = execTimerPulse k s := rfl
@[simp] theorem exec_reflexFire (k : Fin 64) (s : State) : exec (.reflexFire k) s = execReflexFire k s := rfl
@[simp] theorem exec_reflexRelease (k : Fin 64) (s : State) : exec (.reflexRelease k) s = execReflexRelease k s := rfl
@[simp] theorem exec_rfxclr (m : Master) (hi : Bool) (w : Word) (s : State) : exec (.rfxclr m hi w) s = execRfxclr m hi w s := rfl
@[simp] theorem exec_dmaStart (m : Master) (c : ChNo) (s : State) : exec (.dmaStart m c) s = execDmaStart m c s := rfl
@[simp] theorem exec_dmaStartTpl (m : Master) (c : ChNo) (s : State) : exec (.dmaStartTpl m c) s = execDmaStartTpl m c s := rfl
@[simp] theorem exec_dmaDisable (m : Master) (c : ChNo) (s : State) : exec (.dmaDisable m c) s = execDmaDisable m c s := rfl
@[simp] theorem exec_append (m : Master) (c : ChNo) (addr : Word) (s : State) : exec (.append m c addr) s = execAppend m c addr s := rfl
@[simp] theorem exec_tlinkWrite (m : Master) (c : ChNo) (w : Word) (s : State) : exec (.tlinkWrite m c w) s = execTlinkWrite m c w s := rfl
@[simp] theorem exec_ocmdWrite (m : Master) (n : IslandNo) (w : Word) (s : State) : exec (.ocmdWrite m n w) s = execOcmdWrite m n w s := rfl
@[simp] theorem exec_rstreamRead (m : Master) (n : IslandNo) (s : State) : exec (.rstreamRead m n) s = execRstreamRead m n s := rfl
@[simp] theorem exec_descriptorFetched (c : ChNo) (s : State) : exec (.descriptorFetched c) s = execDescriptorFetched c s := rfl
@[simp] theorem exec_wordMove (c : ChNo) (s : State) : exec (.wordMove c) s = execWordMove c s := rfl
@[simp] theorem exec_autoStart (c : ChNo) (s : State) : exec (.autoStart c) s = execAutoStart c s := rfl
@[simp] theorem exec_safeNAssert (s : State) : exec (.safeNAssert) s = execSafeNAssert s := rfl
@[simp] theorem exec_stillnessTrip (s : State) : exec (.stillnessTrip) s = execStillnessTrip s := rfl
@[simp] theorem exec_clrStill (m : Master) (s : State) : exec (.clrStill m) s = execClrStill m s := rfl
@[simp] theorem exec_clrSafen (m : Master) (s : State) : exec (.clrSafen m) s = execClrSafen m s := rfl
@[simp] theorem exec_clrFreset (m : Master) (s : State) : exec (.clrFreset m) s = execClrFreset m s := rfl
@[simp] theorem exec_safeCmdWrite (m : Master) (w : Word) (s : State) : exec (.safeCmdWrite m w) s = execSafeCmdWrite m w s := rfl
@[simp] theorem exec_kick (m : Master) (ch : FlintChan) (key : BitVec 16) (s : State) : exec (.kick m ch key) s = execKick m ch key s := rfl
@[simp] theorem exec_qwWrite (m : Master) (ch : FlintChan) (q : BitVec 16) (s : State) : exec (.qwWrite m ch q) s = execQwWrite m ch q s := rfl
@[simp] theorem exec_windowClose (ch : FlintChan) (s : State) : exec (.windowClose ch) s = execWindowClose ch s := rfl
@[simp] theorem exec_flintReset (s : State) : exec (.flintReset) s = execFlintReset s := rfl
@[simp] theorem exec_bootBudget (m : Master) (budget : BitVec 16) (confirm : Bool) (s : State) : exec (.bootBudget m budget confirm) s = execBootBudget m budget confirm s := rfl
@[simp] theorem exec_bootConfirm (m : Master) (s : State) : exec (.bootConfirm m) s = execBootConfirm m s := rfl
@[simp] theorem exec_budgetExpiry (s : State) : exec (.budgetExpiry) s = execBudgetExpiry s := rfl
@[simp] theorem exec_faultReaction (s : State) : exec (.faultReaction) s = execFaultReaction s := rfl
@[simp] theorem exec_decide (m : Master) (dtag : Byte) (cls : BitVec 2) (s : State) : exec (.decide m dtag cls) s = execDecide m dtag cls s := rfl
@[simp] theorem exec_graceExpiry (dtag : Byte) (s : State) : exec (.graceExpiry dtag) s = execGraceExpiry dtag s := rfl
@[simp] theorem exec_haltRecovery (s : State) : exec (.haltRecovery) s = execHaltRecovery s := rfl
@[simp] theorem exec_escalationLockout (s : State) : exec (.escalationLockout) s = execEscalationLockout s := rfl
@[simp] theorem exec_chclr (m : Master) (mask : BitVec 16) (s : State) : exec (.chclr m mask) s = execChclr m mask s := rfl
@[simp] theorem exec_faultInject (m : Master) (src mid : Byte) (s : State) : exec (.faultInject m src mid) s = execFaultInject m src mid s := rfl
@[simp] theorem exec_hostHot (s : State) : exec (.hostHot) s = execHostHot s := rfl
@[simp] theorem exec_islTherm (n : IslandNo) (s : State) : exec (.islTherm n) s = execIslTherm n s := rfl
@[simp] theorem exec_nvmErase (m : Master) (s : State) : exec (.nvmErase m) s = execNvmErase m s := rfl
@[simp] theorem exec_nvmProgram (m : Master) (units : BitVec 4) (s : State) : exec (.nvmProgram m units) s = execNvmProgram m units s := rfl
@[simp] theorem exec_nvmAppend (m : Master) (s : State) : exec (.nvmAppend m) s = execNvmAppend m s := rfl
@[simp] theorem exec_markWritten (m : Master) (b : Bank) (s : State) : exec (.markWritten m b) s = execMarkWritten m b s := rfl
@[simp] theorem exec_markTrial (m : Master) (b : Bank) (s : State) : exec (.markTrial m b) s = execMarkTrial m b s := rfl
@[simp] theorem exec_markConfirmed (m : Master) (b : Bank) (s : State) : exec (.markConfirmed m b) s = execMarkConfirmed m b s := rfl
@[simp] theorem exec_markRejected (m : Master) (b : Bank) (s : State) : exec (.markRejected m b) s = execMarkRejected m b s := rfl
@[simp] theorem exec_nvmCompact (m : Master) (s : State) : exec (.nvmCompact m) s = execNvmCompact m s := rfl
@[simp] theorem exec_nvmAbortCmd (m : Master) (s : State) : exec (.nvmAbortCmd m) s = execNvmAbortCmd m s := rfl
@[simp] theorem exec_nvmStep (m : Master) (ticks : Word) (s : State) : exec (.nvmStep m ticks) s = execNvmStep m ticks s := rfl
@[simp] theorem exec_sliceEnd (verified : Bool) (s : State) : exec (.sliceEnd verified) s = execSliceEnd verified s := rfl
@[simp] theorem exec_scanDone (s : State) : exec (.scanDone) s = execScanDone s := rfl
@[simp] theorem exec_intentRecovery (s : State) : exec (.intentRecovery) s = execIntentRecovery s := rfl
@[simp] theorem exec_counterIncrement (s : State) : exec (.counterIncrement) s = execCounterIncrement s := rfl
@[simp] theorem exec_bootStart (s : State) : exec (.bootStart) s = execBootStart s := rfl
@[simp] theorem exec_tandemLock (tpl : Bool) (s : State) : exec (.tandemLock tpl) s = execTandemLock tpl s := rfl
@[simp] theorem exec_tandemReady (s : State) : exec (.tandemReady) s = execTandemReady s := rfl
@[simp] theorem exec_beaconSend (s : State) : exec (.beaconSend) s = execBeaconSend s := rfl
@[simp] theorem exec_tandemLinkLoss (s : State) : exec (.tandemLinkLoss) s = execTandemLinkLoss s := rfl
@[simp] theorem exec_record (payload : List Word) (crc : Word) (s : State) : exec (.record payload crc) s = execRecord payload crc s := rfl
@[simp] theorem exec_beacon (payload : List Word) (crc : Word) (s : State) : exec (.beacon payload crc) s = execBeacon payload crc s := rfl
@[simp] theorem exec_take (payload : List Word) (crc : Word) (s : State) : exec (.take payload crc) s = execTake payload crc s := rfl
@[simp] theorem exec_ackSend (s : State) : exec (.ackSend) s = execAckSend s := rfl
@[simp] theorem exec_ack (payload : List Word) (crc : Word) (s : State) : exec (.ack payload crc) s = execAck payload crc s := rfl
@[simp] theorem exec_release (payload : List Word) (crc : Word) (s : State) : exec (.release payload crc) s = execRelease payload crc s := rfl
@[simp] theorem exec_ackTimeout (s : State) : exec (.ackTimeout) s = execAckTimeout s := rfl
@[simp] theorem exec_gapEnd (s : State) : exec (.gapEnd) s = execGapEnd s := rfl
@[simp] theorem exec_promote (m : Master) (s : State) : exec (.promote m) s = execPromote m s := rfl
@[simp] theorem exec_forcePromote (m : Master) (s : State) : exec (.forcePromote m) s = execForcePromote m s := rfl
@[simp] theorem exec_handover (m : Master) (s : State) : exec (.handover m) s = execHandover m s := rfl
@[simp] theorem exec_demote (m : Master) (s : State) : exec (.demote m) s = execDemote m s := rfl
@[simp] theorem exec_hrdyWrite (m : Master) (rdy : Bool) (s : State) : exec (.hrdyWrite m rdy) s = execHrdyWrite m rdy s := rfl
@[simp] theorem exec_brownOut (s : State) : exec (.brownOut) s = execBrownOut s := rfl
@[simp] theorem exec_rstNAssert (s : State) : exec (.rstNAssert) s = execRstNAssert s := rfl
@[simp] theorem exec_prsntNRemoval (s : State) : exec (.prsntNRemoval) s = execPrsntNRemoval s := rfl
@[simp] theorem exec_thermalShutdown (s : State) : exec (.thermalShutdown) s = execThermalShutdown s := rfl
@[simp] theorem exec_deferralEnd (s : State) : exec (.deferralEnd) s = execDeferralEnd s := rfl
@[simp] theorem exec_k4Release (c : ReleaseLands) (s : State) : exec (.k4Release c) s = execK4Release c s := rfl
@[simp] theorem exec_vmicaUndervoltage (s : State) : exec (.vmicaUndervoltage) s = execVmicaUndervoltage s := rfl
@[simp] theorem exec_vmicaReturn (s : State) : exec (.vmicaReturn) s = execVmicaReturn s := rfl
@[simp] theorem exec_vmicaHoldEnd (n : IslandNo) (s : State) : exec (.vmicaHoldEnd n) s = execVmicaHoldEnd n s := rfl
@[simp] theorem exec_reset (m : Master) (w : Word) (s : State) : exec (.reset m w) s = execReset m w s := rfl
@[simp] theorem exec_softReset (s : State) : exec (.softReset) s = execSoftReset s := rfl
@[simp] theorem exec_reqRun (m : Master) (s : State) : exec (.reqRun m) s = execReqRun m s := rfl
@[simp] theorem exec_reqPark (m : Master) (s : State) : exec (.reqPark m) s = execReqPark m s := rfl
@[simp] theorem exec_reqDormant (m : Master) (s : State) : exec (.reqDormant m) s = execReqDormant m s := rfl
@[simp] theorem exec_iloopOff (m : Master) (n : IslandNo) (s : State) : exec (.iloopOff m n) s = execIloopOff m n s := rfl
@[simp] theorem exec_iloopEcho (m : Master) (n : IslandNo) (pattern : BitVec 16) (s : State) : exec (.iloopEcho m n pattern) s = execIloopEcho m n pattern s := rfl
@[simp] theorem exec_iloopDacAdc (m : Master) (n : IslandNo) (pattern : BitVec 16) (s : State) : exec (.iloopDacAdc m n pattern) s = execIloopDacAdc m n pattern s := rfl
@[simp] theorem exec_iloopTerminal (m : Master) (n : IslandNo) (pattern : BitVec 16) (term : BitVec 2) (s : State) : exec (.iloopTerminal m n pattern term) s = execIloopTerminal m n pattern term s := rfl
@[simp] theorem exec_iloopCross (m : Master) (n : IslandNo) (pattern : BitVec 16) (s : State) : exec (.iloopCross m n pattern) s = execIloopCross m n pattern s := rfl
@[simp] theorem exec_measurementDone (n : IslandNo) (code : BitVec 18) (s : State) : exec (.measurementDone n code) s = execMeasurementDone n code s := rfl
@[simp] theorem exec_unlock (m : Master) (w : Word) (s : State) : exec (.unlock m w) s = execUnlock m w s := rfl
@[simp] theorem exec_testNHigh (s : State) : exec (.testNHigh) s = execTestNHigh s := rfl
@[simp] theorem exec_extest (s : State) : exec (.extest) s = execExtest s := rfl
@[simp] theorem exec_idcode (s : State) : exec (.idcode) s = execIdcode s := rfl
@[simp] theorem exec_samplePreload (s : State) : exec (.samplePreload) s = execSamplePreload s := rfl
@[simp] theorem exec_highz (s : State) : exec (.highz) s = execHighz s := rfl
@[simp] theorem exec_clamp (s : State) : exec (.clamp) s = execClamp s := rfl
@[simp] theorem exec_bypass (s : State) : exec (.bypass) s = execBypass s := rfl
@[simp] theorem exec_tapReset (s : State) : exec (.tapReset) s = execTapReset s := rfl
@[simp] theorem exec_safeNHigh (held : Bool) (s : State) : exec (.safeNHigh held) s = execSafeNHigh held s := rfl
@[simp] theorem exec_testNLow (s : State) : exec (.testNLow) s = execTestNLow s := rfl
@[simp] theorem exec_islThermRelease (n : IslandNo) (s : State) : exec (.islThermRelease n) s = execIslThermRelease n s := rfl
@[simp] theorem exec_hostHotEnd (above115 : Bool) (s : State) : exec (.hostHotEnd above115) s = execHostHotEnd above115 s := rfl
@[simp] theorem exec_integratorDischarged (s : State) : exec (.integratorDischarged) s = execIntegratorDischarged s := rfl
@[simp] theorem exec_tandemFrameDiscard (isRecord : Bool) (s : State) : exec (.tandemFrameDiscard isRecord) s = execTandemFrameDiscard isRecord s := rfl

end Sys2Proof.Machine
end

