-- ==== Sys2Proof/Laws/Ops.lean ====
section
/-! SUPPORT. Once for each shared operation, everything it can do: the calendar, event sources, raising a fault, cells and lanes. -/

namespace Sys2Proof.Machine

/-! ## The calendar -/

/-- Owing a command changes the calendar alone. -/
theorem State.oweAt_eq (s : State) (t : Tick) (c : Instr) : s.oweAt t c = { s with due := (s.oweAt t c).due } := by
  unfold State.oweAt; split <;> rfl

/-- What is owed after a command is owed: what was owed before, and it. -/
theorem State.mem_oweAt {s : State} {t : Tick} {c : Instr} {e : Tick × Instr} : e ∈ (s.oweAt t c).due ↔ e ∈ s.due ∨ e = (t, c) := by
  unfold State.oweAt
  split
  · rename_i h
    have hm : (t, c) ∈ s.due := by simpa using h
    constructor
    · exact Or.inl
    · rintro (h | rfl)
      · exact h
      · exact hm
  · simp

/-- Owing a command k ticks from now changes the calendar alone. -/
theorem State.owe_eq (s : State) (k : Nat) (c : Instr) : s.owe k c = { s with due := (s.owe k c).due } := State.oweAt_eq s _ c

/-- What is owed after a command is owed k ticks from now. -/
theorem State.mem_owe {s : State} {k : Nat} {c : Instr} {e : Tick × Instr} :
    e ∈ (s.owe k c).due ↔ e ∈ s.due ∨ e = (s.tick + BitVec.ofNat 64 k, c) := State.mem_oweAt

/-- A fold of steps that each change the calendar alone changes the calendar alone. -/
theorem foldl_due {β : Type} (l : List β) (f : State → β → State) (hf : ∀ s b, ∃ d, f s b = { s with due := d }) (s : State) :
    ∃ d, l.foldl f s = { s with due := d } := by
  induction l generalizing s with
  | nil => exact ⟨s.due, rfl⟩
  | cons b l ih =>
    obtain ⟨d, hd⟩ := hf s b
    obtain ⟨d', hd'⟩ := ih (f s b)
    exact ⟨d', by rw [List.foldl_cons, hd', hd]⟩

/-- A pulse of a source changes the calendar alone. -/
theorem State.pulseIn_due (s : State) (k src : Nat) : ∃ d, s.pulseIn k src = { s with due := d } :=
  foldl_due _ _ (fun s l => ⟨_, State.owe_eq s k (.eventPulse l)⟩) s

/-- A pulse of a source changes the calendar alone. -/
theorem State.pulse_due (s : State) (src : Nat) : ∃ d, s.pulse src = { s with due := d } := State.pulseIn_due s 0 src

/-! ## Raising a fault -/

/-- A fault changes the collector and the calendar alone. -/
theorem State.raiseAt_eq (s : State) (stamp : Tick) (src m : Byte) (typ : BitVec 4) (kind : Byte) (a dt : Word) (inj : Bool) :
    ∃ d f, s.raiseAt stamp src m typ kind a dt inj = { s with due := d, fault := f } := by
  unfold State.raiseAt
  split
  rename_i f q _
  extract_lets mw ha queued grace r0 r first
  split
  rename_i s1 _ f' r' _
  have hp : ∃ d, s1 = { s with due := d } := by
    show ∃ d, (if first = true then s.pulse 0x123 else s) = { s with due := d }
    split
    · exact State.pulse_due s _
    · exact ⟨s.due, rfl⟩
  clear_value s1
  obtain ⟨d, rfl⟩ := hp
  split
  · exact ⟨_, _, State.owe_eq _ grace _⟩
  · exact ⟨_, _, State.owe_eq _ 4 _⟩

/-- A fault stamped with this tick changes the collector and the calendar alone. -/
theorem State.raise_eq (s : State) (src m : Byte) (typ : BitVec 4) (kind : Byte) (a dt : Word) (inj : Bool) :
    ∃ d f, s.raise src m typ kind a dt inj = { s with due := d, fault := f } := State.raiseAt_eq ..

/-- A fault of a block of the host die changes the collector and the calendar alone. -/
theorem State.raiseBy_eq (s : State) (src : Byte) (m : Master) (typ : BitVec 4) (kind : Byte) (a : Word) :
    ∃ d f, s.raiseBy src m typ kind a = { s with due := d, fault := f } := State.raiseAt_eq ..

/-- An access error changes the collector and the calendar alone. -/
theorem State.accFault_eq (s : State) (e : AccErr) (m : Master) (typ : BitVec 4) (a : Nat) :
    ∃ d f, s.accFault e m typ a = { s with due := d, fault := f } := State.raiseAt_eq ..

/-- A fault takes one number (R295). -/
theorem Collector.number_seq (f : Collector) (t : Tick) (src : Byte) : (f.number t src).1.seq = f.seq + 1 := rfl

/-- A capture takes no number, and leaves the record's (R293, R295). -/
theorem Collector.capture_seq (f : Collector) (r : FaultRec) : (f.capture r).1.seq = f.seq ∧ (f.capture r).2.seq = r.seq := by
  unfold Collector.capture
  split
  · exact ⟨rfl, rfl⟩
  · split <;> exact ⟨rfl, rfl⟩

/-- A capture never takes FE_VALID away (R293). -/
theorem Collector.capture_valid (f : Collector) (r : FaultRec) : (f.capture r).1.feValid = true := by
  unfold Collector.capture
  split
  · rfl
  · rename_i h
    split <;> simpa using h

/-- A record that is logged touches the log queue and LOST alone. -/
theorem Collector.log_eq (f : Collector) (r : FaultRec) : f.log r = { f with logq := (f.log r).logq, lost := (f.log r).lost } := by
  rfl

/-! ## Cells -/

/-- A cell that is put into the queue is in it, with all that were. -/
theorem mem_insertDown {c x : DownCell} {l : List DownCell} : x ∈ insertDown c l ↔ x = c ∨ x ∈ l := by
  induction l with
  | nil => simp [insertDown]
  | cons y l ih =>
    unfold insertDown
    split
    · simp
    · simp only [List.mem_cons, ih]; tauto

/-- The queue grows by one cell. -/
theorem length_insertDown {c : DownCell} {l : List DownCell} : (insertDown c l).length = l.length + 1 := by
  induction l with
  | nil => rfl
  | cons y l ih =>
    unfold insertDown
    split
    · simp
    · simp [ih]

/-- An upstream cell that is queued is in the queue, with all that were. -/
theorem mem_insertUp {c x : UpCell} {l : List UpCell} : x ∈ insertUp c l ↔ x = c ∨ x ∈ l := by
  induction l with
  | nil => simp [insertUp]
  | cons y l ih =>
    unfold insertUp
    split
    · simp
    · simp only [List.mem_cons, ih]; tauto

/-- A cell that is sent stands in its island's queue, ready from the next tick on. -/
theorem State.send_down (s : State) (n : IslandNo) (r : Master) (d : DownData) (a : Word) (x : BitVec 19) :
    newCell d r a x (s.tick + 1) ∈ (s.send n r d a x).isl[n].down := by
  simp [State.send, State.sendFrom, State.modIsl, mem_insertDown]

/-- A cell that an island queues stands in its upstream queue. -/
theorem State.sendUp_up (s : State) (n : IslandNo) (d : UpData) :
    newCell d (.island n) 0 0 s.tick ∈ (s.sendUp n d).isl[n].up := by
  simp [State.sendUp, State.sendUpAs, State.modIsl, mem_insertUp]

/-! ## Clocked rows -/

/-- A clocked row acts where HCK runs and no K4 reset is asserted (R13, R16). -/
theorem State.act_on {s : State} (f : State → State) (h : s.clocked = true) : s.act f = .next (f s) := by
  unfold State.act; rw [if_pos h]

/-- Where HCK stands a clocked row leaves everything as it is (R16). -/
theorem State.act_off {s : State} (f : State → State) (h : s.clocked = false) : s.act f = .next s := by
  unfold State.act; rw [if_neg (by simp [h])]

/-- An event that clocked logic takes acts at once where HCK runs, and is no longer owed (R414). -/
theorem State.taken_on {s : State} (c : Instr) (f : State → State) (h : s.clocked = true) :
    s.taken c f = .next (f (s.settle c)) := by
  unfold State.taken; rw [if_pos h]

/-! ## State lanes -/

/-- The downstream lane of an island takes the bits that stand now, and nothing but the island and what is on its way changes. -/
theorem State.laneUpdate_eq (s : State) (n : IslandNo) :
    s.laneUpdate n = { s with isl := (s.laneUpdate n).isl, transit := (s.laneUpdate n).transit } := by
  unfold State.laneUpdate
  extract_lets i d
  split
  · rfl
  · split <;> rfl

/-! ## Islands -/

/-- The island list names every island. -/
theorem mem_islands (n : IslandNo) : n ∈ islands := by revert n; decide

/-- The context list names every context. -/
theorem mem_contexts (t : CtxNo) : t ∈ contexts := by revert t; decide

/-- The channel list names every channel. -/
theorem mem_channels (c : ChNo) : c ∈ channels := by revert c; decide

end Sys2Proof.Machine
end

