-- ==== Sys2Proof/Laws/State.lean ====
section
/-! SUPPORT. What each named update leaves of the state, one lemma per field, and what it makes of the field it writes; so that no
proof unfolds a record update. -/

namespace Sys2Proof.Machine

variable (s : State)

/-! ## Islands -/

@[simp] theorem State.modIsl_pending (n : IslandNo) (f : Island → Island) : (s.modIsl n f).pending = s.pending := rfl
@[simp] theorem State.modIsl_due (n : IslandNo) (f : Island → Island) : (s.modIsl n f).due = s.due := rfl
@[simp] theorem State.modIsl_transit (n : IslandNo) (f : Island → Island) : (s.modIsl n f).transit = s.transit := rfl
@[simp] theorem State.modIsl_member (n : IslandNo) (f : Island → Island) : (s.modIsl n f).member = s.member := rfl
@[simp] theorem State.modIsl_tick (n : IslandNo) (f : Island → Island) : (s.modIsl n f).tick = s.tick := rfl
@[simp] theorem State.modIsl_part (n : IslandNo) (f : Island → Island) : (s.modIsl n f).part = s.part := rfl
@[simp] theorem State.modIsl_snapHi (n : IslandNo) (f : Island → Island) : (s.modIsl n f).snapHi = s.snapHi := rfl
@[simp] theorem State.modIsl_rate (n : IslandNo) (f : Island → Island) : (s.modIsl n f).rate = s.rate := rfl
@[simp] theorem State.modIsl_cfg (n : IslandNo) (f : Island → Island) : (s.modIsl n f).cfg = s.cfg := rfl
@[simp] theorem State.modIsl_busy (n : IslandNo) (f : Island → Island) : (s.modIsl n f).busy = s.busy := rfl
@[simp] theorem State.modIsl_busyOut (n : IslandNo) (f : Island → Island) : (s.modIsl n f).busyOut = s.busyOut := rfl
@[simp] theorem State.modIsl_busySeen (n : IslandNo) (f : Island → Island) : (s.modIsl n f).busySeen = s.busySeen := rfl
@[simp] theorem State.modIsl_rsvOut (n : IslandNo) (f : Island → Island) : (s.modIsl n f).rsvOut = s.rsvOut := rfl
@[simp] theorem State.modIsl_rsvSeen (n : IslandNo) (f : Island → Island) : (s.modIsl n f).rsvSeen = s.rsvSeen := rfl
@[simp] theorem State.modIsl_ledq (n : IslandNo) (f : Island → Island) : (s.modIsl n f).ledq = s.ledq := rfl
@[simp] theorem State.modIsl_clampLink (n : IslandNo) (f : Island → Island) : (s.modIsl n f).clampLink = s.clampLink := rfl
@[simp] theorem State.modIsl_clampT (n : IslandNo) (f : Island → Island) : (s.modIsl n f).clampT = s.clampT := rfl
@[simp] theorem State.modIsl_clampSlate (n : IslandNo) (f : Island → Island) : (s.modIsl n f).clampSlate = s.clampSlate := rfl
@[simp] theorem State.modIsl_clampDma (n : IslandNo) (f : Island → Island) : (s.modIsl n f).clampDma = s.clampDma := rfl
@[simp] theorem State.modIsl_link (n : IslandNo) (f : Island → Island) : (s.modIsl n f).link = s.link := rfl
@[simp] theorem State.modIsl_slate (n : IslandNo) (f : Island → Island) : (s.modIsl n f).slate = s.slate := rfl
@[simp] theorem State.modIsl_evt (n : IslandNo) (f : Island → Island) : (s.modIsl n f).evt = s.evt := rfl
@[simp] theorem State.modIsl_dma (n : IslandNo) (f : Island → Island) : (s.modIsl n f).dma = s.dma := rfl
@[simp] theorem State.modIsl_moved (n : IslandNo) (f : Island → Island) : (s.modIsl n f).moved = s.moved := rfl
@[simp] theorem State.modIsl_appendAt (n : IslandNo) (f : Island → Island) : (s.modIsl n f).appendAt = s.appendAt := rfl
@[simp] theorem State.modIsl_nvmRd (n : IslandNo) (f : Island → Island) : (s.modIsl n f).nvmRd = s.nvmRd := rfl
@[simp] theorem State.modIsl_facet (n : IslandNo) (f : Island → Island) : (s.modIsl n f).facet = s.facet := rfl
@[simp] theorem State.modIsl_flint (n : IslandNo) (f : Island → Island) : (s.modIsl n f).flint = s.flint := rfl
@[simp] theorem State.modIsl_safe (n : IslandNo) (f : Island → Island) : (s.modIsl n f).safe = s.safe := rfl
@[simp] theorem State.modIsl_fault (n : IslandNo) (f : Island → Island) : (s.modIsl n f).fault = s.fault := rfl
@[simp] theorem State.modIsl_nvm (n : IslandNo) (f : Island → Island) : (s.modIsl n f).nvm = s.nvm := rfl
@[simp] theorem State.modIsl_tan (n : IslandNo) (f : Island → Island) : (s.modIsl n f).tan = s.tan := rfl
@[simp] theorem State.modIsl_pow (n : IslandNo) (f : Island → Island) : (s.modIsl n f).pow = s.pow := rfl
@[simp] theorem State.modIsl_mem (n : IslandNo) (f : Island → Island) : (s.modIsl n f).mem = s.mem := rfl
@[simp] theorem State.modIsl_free (n : IslandNo) (f : Island → Island) : (s.modIsl n f).free = s.free := rfl

/-! ## Contexts -/

@[simp] theorem State.modCtx_pending (t : CtxNo) (f : Ctx → Ctx) : (s.modCtx t f).pending = s.pending := rfl
@[simp] theorem State.modCtx_due (t : CtxNo) (f : Ctx → Ctx) : (s.modCtx t f).due = s.due := rfl
@[simp] theorem State.modCtx_transit (t : CtxNo) (f : Ctx → Ctx) : (s.modCtx t f).transit = s.transit := rfl
@[simp] theorem State.modCtx_member (t : CtxNo) (f : Ctx → Ctx) : (s.modCtx t f).member = s.member := rfl
@[simp] theorem State.modCtx_tick (t : CtxNo) (f : Ctx → Ctx) : (s.modCtx t f).tick = s.tick := rfl
@[simp] theorem State.modCtx_part (t : CtxNo) (f : Ctx → Ctx) : (s.modCtx t f).part = s.part := rfl
@[simp] theorem State.modCtx_snapHi (t : CtxNo) (f : Ctx → Ctx) : (s.modCtx t f).snapHi = s.snapHi := rfl
@[simp] theorem State.modCtx_rate (t : CtxNo) (f : Ctx → Ctx) : (s.modCtx t f).rate = s.rate := rfl
@[simp] theorem State.modCtx_cfg (t : CtxNo) (f : Ctx → Ctx) : (s.modCtx t f).cfg = s.cfg := rfl
@[simp] theorem State.modCtx_isl (t : CtxNo) (f : Ctx → Ctx) : (s.modCtx t f).isl = s.isl := rfl
@[simp] theorem State.modCtx_busy (t : CtxNo) (f : Ctx → Ctx) : (s.modCtx t f).busy = s.busy := rfl
@[simp] theorem State.modCtx_busyOut (t : CtxNo) (f : Ctx → Ctx) : (s.modCtx t f).busyOut = s.busyOut := rfl
@[simp] theorem State.modCtx_busySeen (t : CtxNo) (f : Ctx → Ctx) : (s.modCtx t f).busySeen = s.busySeen := rfl
@[simp] theorem State.modCtx_rsvOut (t : CtxNo) (f : Ctx → Ctx) : (s.modCtx t f).rsvOut = s.rsvOut := rfl
@[simp] theorem State.modCtx_rsvSeen (t : CtxNo) (f : Ctx → Ctx) : (s.modCtx t f).rsvSeen = s.rsvSeen := rfl
@[simp] theorem State.modCtx_ledq (t : CtxNo) (f : Ctx → Ctx) : (s.modCtx t f).ledq = s.ledq := rfl
@[simp] theorem State.modCtx_clampLink (t : CtxNo) (f : Ctx → Ctx) : (s.modCtx t f).clampLink = s.clampLink := rfl
@[simp] theorem State.modCtx_clampT (t : CtxNo) (f : Ctx → Ctx) : (s.modCtx t f).clampT = s.clampT := rfl
@[simp] theorem State.modCtx_clampSlate (t : CtxNo) (f : Ctx → Ctx) : (s.modCtx t f).clampSlate = s.clampSlate := rfl
@[simp] theorem State.modCtx_clampDma (t : CtxNo) (f : Ctx → Ctx) : (s.modCtx t f).clampDma = s.clampDma := rfl
@[simp] theorem State.modCtx_link (t : CtxNo) (f : Ctx → Ctx) : (s.modCtx t f).link = s.link := rfl
@[simp] theorem State.modCtx_slate (t : CtxNo) (f : Ctx → Ctx) : (s.modCtx t f).slate = s.slate := rfl
@[simp] theorem State.modCtx_evt (t : CtxNo) (f : Ctx → Ctx) : (s.modCtx t f).evt = s.evt := rfl
@[simp] theorem State.modCtx_dma (t : CtxNo) (f : Ctx → Ctx) : (s.modCtx t f).dma = s.dma := rfl
@[simp] theorem State.modCtx_moved (t : CtxNo) (f : Ctx → Ctx) : (s.modCtx t f).moved = s.moved := rfl
@[simp] theorem State.modCtx_appendAt (t : CtxNo) (f : Ctx → Ctx) : (s.modCtx t f).appendAt = s.appendAt := rfl
@[simp] theorem State.modCtx_nvmRd (t : CtxNo) (f : Ctx → Ctx) : (s.modCtx t f).nvmRd = s.nvmRd := rfl
@[simp] theorem State.modCtx_flint (t : CtxNo) (f : Ctx → Ctx) : (s.modCtx t f).flint = s.flint := rfl
@[simp] theorem State.modCtx_safe (t : CtxNo) (f : Ctx → Ctx) : (s.modCtx t f).safe = s.safe := rfl
@[simp] theorem State.modCtx_fault (t : CtxNo) (f : Ctx → Ctx) : (s.modCtx t f).fault = s.fault := rfl
@[simp] theorem State.modCtx_nvm (t : CtxNo) (f : Ctx → Ctx) : (s.modCtx t f).nvm = s.nvm := rfl
@[simp] theorem State.modCtx_tan (t : CtxNo) (f : Ctx → Ctx) : (s.modCtx t f).tan = s.tan := rfl
@[simp] theorem State.modCtx_pow (t : CtxNo) (f : Ctx → Ctx) : (s.modCtx t f).pow = s.pow := rfl
@[simp] theorem State.modCtx_mem (t : CtxNo) (f : Ctx → Ctx) : (s.modCtx t f).mem = s.mem := rfl
@[simp] theorem State.modCtx_free (t : CtxNo) (f : Ctx → Ctx) : (s.modCtx t f).free = s.free := rfl

/-! ## DMA channels -/

@[simp] theorem State.modCh_pending (c : ChNo) (f : Channel → Channel) : (s.modCh c f).pending = s.pending := rfl
@[simp] theorem State.modCh_due (c : ChNo) (f : Channel → Channel) : (s.modCh c f).due = s.due := rfl
@[simp] theorem State.modCh_transit (c : ChNo) (f : Channel → Channel) : (s.modCh c f).transit = s.transit := rfl
@[simp] theorem State.modCh_member (c : ChNo) (f : Channel → Channel) : (s.modCh c f).member = s.member := rfl
@[simp] theorem State.modCh_tick (c : ChNo) (f : Channel → Channel) : (s.modCh c f).tick = s.tick := rfl
@[simp] theorem State.modCh_part (c : ChNo) (f : Channel → Channel) : (s.modCh c f).part = s.part := rfl
@[simp] theorem State.modCh_snapHi (c : ChNo) (f : Channel → Channel) : (s.modCh c f).snapHi = s.snapHi := rfl
@[simp] theorem State.modCh_rate (c : ChNo) (f : Channel → Channel) : (s.modCh c f).rate = s.rate := rfl
@[simp] theorem State.modCh_cfg (c : ChNo) (f : Channel → Channel) : (s.modCh c f).cfg = s.cfg := rfl
@[simp] theorem State.modCh_isl (c : ChNo) (f : Channel → Channel) : (s.modCh c f).isl = s.isl := rfl
@[simp] theorem State.modCh_busy (c : ChNo) (f : Channel → Channel) : (s.modCh c f).busy = s.busy := rfl
@[simp] theorem State.modCh_busyOut (c : ChNo) (f : Channel → Channel) : (s.modCh c f).busyOut = s.busyOut := rfl
@[simp] theorem State.modCh_busySeen (c : ChNo) (f : Channel → Channel) : (s.modCh c f).busySeen = s.busySeen := rfl
@[simp] theorem State.modCh_rsvOut (c : ChNo) (f : Channel → Channel) : (s.modCh c f).rsvOut = s.rsvOut := rfl
@[simp] theorem State.modCh_rsvSeen (c : ChNo) (f : Channel → Channel) : (s.modCh c f).rsvSeen = s.rsvSeen := rfl
@[simp] theorem State.modCh_ledq (c : ChNo) (f : Channel → Channel) : (s.modCh c f).ledq = s.ledq := rfl
@[simp] theorem State.modCh_clampLink (c : ChNo) (f : Channel → Channel) : (s.modCh c f).clampLink = s.clampLink := rfl
@[simp] theorem State.modCh_clampT (c : ChNo) (f : Channel → Channel) : (s.modCh c f).clampT = s.clampT := rfl
@[simp] theorem State.modCh_clampSlate (c : ChNo) (f : Channel → Channel) : (s.modCh c f).clampSlate = s.clampSlate := rfl
@[simp] theorem State.modCh_clampDma (c : ChNo) (f : Channel → Channel) : (s.modCh c f).clampDma = s.clampDma := rfl
@[simp] theorem State.modCh_link (c : ChNo) (f : Channel → Channel) : (s.modCh c f).link = s.link := rfl
@[simp] theorem State.modCh_slate (c : ChNo) (f : Channel → Channel) : (s.modCh c f).slate = s.slate := rfl
@[simp] theorem State.modCh_evt (c : ChNo) (f : Channel → Channel) : (s.modCh c f).evt = s.evt := rfl
@[simp] theorem State.modCh_moved (c : ChNo) (f : Channel → Channel) : (s.modCh c f).moved = s.moved := rfl
@[simp] theorem State.modCh_appendAt (c : ChNo) (f : Channel → Channel) : (s.modCh c f).appendAt = s.appendAt := rfl
@[simp] theorem State.modCh_nvmRd (c : ChNo) (f : Channel → Channel) : (s.modCh c f).nvmRd = s.nvmRd := rfl
@[simp] theorem State.modCh_facet (c : ChNo) (f : Channel → Channel) : (s.modCh c f).facet = s.facet := rfl
@[simp] theorem State.modCh_flint (c : ChNo) (f : Channel → Channel) : (s.modCh c f).flint = s.flint := rfl
@[simp] theorem State.modCh_safe (c : ChNo) (f : Channel → Channel) : (s.modCh c f).safe = s.safe := rfl
@[simp] theorem State.modCh_fault (c : ChNo) (f : Channel → Channel) : (s.modCh c f).fault = s.fault := rfl
@[simp] theorem State.modCh_nvm (c : ChNo) (f : Channel → Channel) : (s.modCh c f).nvm = s.nvm := rfl
@[simp] theorem State.modCh_tan (c : ChNo) (f : Channel → Channel) : (s.modCh c f).tan = s.tan := rfl
@[simp] theorem State.modCh_pow (c : ChNo) (f : Channel → Channel) : (s.modCh c f).pow = s.pow := rfl
@[simp] theorem State.modCh_mem (c : ChNo) (f : Channel → Channel) : (s.modCh c f).mem = s.mem := rfl
@[simp] theorem State.modCh_free (c : ChNo) (f : Channel → Channel) : (s.modCh c f).free = s.free := rfl

/-! ## Locks -/

@[simp] theorem State.modLock_pending (k : Fin 64) (f : Lock → Lock) : (s.modLock k f).pending = s.pending := rfl
@[simp] theorem State.modLock_due (k : Fin 64) (f : Lock → Lock) : (s.modLock k f).due = s.due := rfl
@[simp] theorem State.modLock_transit (k : Fin 64) (f : Lock → Lock) : (s.modLock k f).transit = s.transit := rfl
@[simp] theorem State.modLock_member (k : Fin 64) (f : Lock → Lock) : (s.modLock k f).member = s.member := rfl
@[simp] theorem State.modLock_tick (k : Fin 64) (f : Lock → Lock) : (s.modLock k f).tick = s.tick := rfl
@[simp] theorem State.modLock_part (k : Fin 64) (f : Lock → Lock) : (s.modLock k f).part = s.part := rfl
@[simp] theorem State.modLock_snapHi (k : Fin 64) (f : Lock → Lock) : (s.modLock k f).snapHi = s.snapHi := rfl
@[simp] theorem State.modLock_rate (k : Fin 64) (f : Lock → Lock) : (s.modLock k f).rate = s.rate := rfl
@[simp] theorem State.modLock_cfg (k : Fin 64) (f : Lock → Lock) : (s.modLock k f).cfg = s.cfg := rfl
@[simp] theorem State.modLock_isl (k : Fin 64) (f : Lock → Lock) : (s.modLock k f).isl = s.isl := rfl
@[simp] theorem State.modLock_busy (k : Fin 64) (f : Lock → Lock) : (s.modLock k f).busy = s.busy := rfl
@[simp] theorem State.modLock_busyOut (k : Fin 64) (f : Lock → Lock) : (s.modLock k f).busyOut = s.busyOut := rfl
@[simp] theorem State.modLock_busySeen (k : Fin 64) (f : Lock → Lock) : (s.modLock k f).busySeen = s.busySeen := rfl
@[simp] theorem State.modLock_rsvOut (k : Fin 64) (f : Lock → Lock) : (s.modLock k f).rsvOut = s.rsvOut := rfl
@[simp] theorem State.modLock_rsvSeen (k : Fin 64) (f : Lock → Lock) : (s.modLock k f).rsvSeen = s.rsvSeen := rfl
@[simp] theorem State.modLock_ledq (k : Fin 64) (f : Lock → Lock) : (s.modLock k f).ledq = s.ledq := rfl
@[simp] theorem State.modLock_clampLink (k : Fin 64) (f : Lock → Lock) : (s.modLock k f).clampLink = s.clampLink := rfl
@[simp] theorem State.modLock_clampT (k : Fin 64) (f : Lock → Lock) : (s.modLock k f).clampT = s.clampT := rfl
@[simp] theorem State.modLock_clampSlate (k : Fin 64) (f : Lock → Lock) : (s.modLock k f).clampSlate = s.clampSlate := rfl
@[simp] theorem State.modLock_clampDma (k : Fin 64) (f : Lock → Lock) : (s.modLock k f).clampDma = s.clampDma := rfl
@[simp] theorem State.modLock_link (k : Fin 64) (f : Lock → Lock) : (s.modLock k f).link = s.link := rfl
@[simp] theorem State.modLock_slate (k : Fin 64) (f : Lock → Lock) : (s.modLock k f).slate = s.slate := rfl
@[simp] theorem State.modLock_evt (k : Fin 64) (f : Lock → Lock) : (s.modLock k f).evt = s.evt := rfl
@[simp] theorem State.modLock_dma (k : Fin 64) (f : Lock → Lock) : (s.modLock k f).dma = s.dma := rfl
@[simp] theorem State.modLock_moved (k : Fin 64) (f : Lock → Lock) : (s.modLock k f).moved = s.moved := rfl
@[simp] theorem State.modLock_appendAt (k : Fin 64) (f : Lock → Lock) : (s.modLock k f).appendAt = s.appendAt := rfl
@[simp] theorem State.modLock_nvmRd (k : Fin 64) (f : Lock → Lock) : (s.modLock k f).nvmRd = s.nvmRd := rfl
@[simp] theorem State.modLock_flint (k : Fin 64) (f : Lock → Lock) : (s.modLock k f).flint = s.flint := rfl
@[simp] theorem State.modLock_safe (k : Fin 64) (f : Lock → Lock) : (s.modLock k f).safe = s.safe := rfl
@[simp] theorem State.modLock_fault (k : Fin 64) (f : Lock → Lock) : (s.modLock k f).fault = s.fault := rfl
@[simp] theorem State.modLock_nvm (k : Fin 64) (f : Lock → Lock) : (s.modLock k f).nvm = s.nvm := rfl
@[simp] theorem State.modLock_tan (k : Fin 64) (f : Lock → Lock) : (s.modLock k f).tan = s.tan := rfl
@[simp] theorem State.modLock_pow (k : Fin 64) (f : Lock → Lock) : (s.modLock k f).pow = s.pow := rfl
@[simp] theorem State.modLock_mem (k : Fin 64) (f : Lock → Lock) : (s.modLock k f).mem = s.mem := rfl
@[simp] theorem State.modLock_free (k : Fin 64) (f : Lock → Lock) : (s.modLock k f).free = s.free := rfl

/-! ## Registers of a context -/

@[simp] theorem State.setReg_pending (t : CtxNo) (r : RegNo) (v : Word) : (s.setReg t r v).pending = s.pending := rfl
@[simp] theorem State.setReg_due (t : CtxNo) (r : RegNo) (v : Word) : (s.setReg t r v).due = s.due := rfl
@[simp] theorem State.setReg_transit (t : CtxNo) (r : RegNo) (v : Word) : (s.setReg t r v).transit = s.transit := rfl
@[simp] theorem State.setReg_member (t : CtxNo) (r : RegNo) (v : Word) : (s.setReg t r v).member = s.member := rfl
@[simp] theorem State.setReg_tick (t : CtxNo) (r : RegNo) (v : Word) : (s.setReg t r v).tick = s.tick := rfl
@[simp] theorem State.setReg_part (t : CtxNo) (r : RegNo) (v : Word) : (s.setReg t r v).part = s.part := rfl
@[simp] theorem State.setReg_snapHi (t : CtxNo) (r : RegNo) (v : Word) : (s.setReg t r v).snapHi = s.snapHi := rfl
@[simp] theorem State.setReg_rate (t : CtxNo) (r : RegNo) (v : Word) : (s.setReg t r v).rate = s.rate := rfl
@[simp] theorem State.setReg_cfg (t : CtxNo) (r : RegNo) (v : Word) : (s.setReg t r v).cfg = s.cfg := rfl
@[simp] theorem State.setReg_isl (t : CtxNo) (r : RegNo) (v : Word) : (s.setReg t r v).isl = s.isl := rfl
@[simp] theorem State.setReg_busy (t : CtxNo) (r : RegNo) (v : Word) : (s.setReg t r v).busy = s.busy := rfl
@[simp] theorem State.setReg_busyOut (t : CtxNo) (r : RegNo) (v : Word) : (s.setReg t r v).busyOut = s.busyOut := rfl
@[simp] theorem State.setReg_busySeen (t : CtxNo) (r : RegNo) (v : Word) : (s.setReg t r v).busySeen = s.busySeen := rfl
@[simp] theorem State.setReg_rsvOut (t : CtxNo) (r : RegNo) (v : Word) : (s.setReg t r v).rsvOut = s.rsvOut := rfl
@[simp] theorem State.setReg_rsvSeen (t : CtxNo) (r : RegNo) (v : Word) : (s.setReg t r v).rsvSeen = s.rsvSeen := rfl
@[simp] theorem State.setReg_ledq (t : CtxNo) (r : RegNo) (v : Word) : (s.setReg t r v).ledq = s.ledq := rfl
@[simp] theorem State.setReg_clampLink (t : CtxNo) (r : RegNo) (v : Word) : (s.setReg t r v).clampLink = s.clampLink := rfl
@[simp] theorem State.setReg_clampT (t : CtxNo) (r : RegNo) (v : Word) : (s.setReg t r v).clampT = s.clampT := rfl
@[simp] theorem State.setReg_clampSlate (t : CtxNo) (r : RegNo) (v : Word) : (s.setReg t r v).clampSlate = s.clampSlate := rfl
@[simp] theorem State.setReg_clampDma (t : CtxNo) (r : RegNo) (v : Word) : (s.setReg t r v).clampDma = s.clampDma := rfl
@[simp] theorem State.setReg_link (t : CtxNo) (r : RegNo) (v : Word) : (s.setReg t r v).link = s.link := rfl
@[simp] theorem State.setReg_slate (t : CtxNo) (r : RegNo) (v : Word) : (s.setReg t r v).slate = s.slate := rfl
@[simp] theorem State.setReg_evt (t : CtxNo) (r : RegNo) (v : Word) : (s.setReg t r v).evt = s.evt := rfl
@[simp] theorem State.setReg_dma (t : CtxNo) (r : RegNo) (v : Word) : (s.setReg t r v).dma = s.dma := rfl
@[simp] theorem State.setReg_moved (t : CtxNo) (r : RegNo) (v : Word) : (s.setReg t r v).moved = s.moved := rfl
@[simp] theorem State.setReg_appendAt (t : CtxNo) (r : RegNo) (v : Word) : (s.setReg t r v).appendAt = s.appendAt := rfl
@[simp] theorem State.setReg_nvmRd (t : CtxNo) (r : RegNo) (v : Word) : (s.setReg t r v).nvmRd = s.nvmRd := rfl
@[simp] theorem State.setReg_flint (t : CtxNo) (r : RegNo) (v : Word) : (s.setReg t r v).flint = s.flint := rfl
@[simp] theorem State.setReg_safe (t : CtxNo) (r : RegNo) (v : Word) : (s.setReg t r v).safe = s.safe := rfl
@[simp] theorem State.setReg_fault (t : CtxNo) (r : RegNo) (v : Word) : (s.setReg t r v).fault = s.fault := rfl
@[simp] theorem State.setReg_nvm (t : CtxNo) (r : RegNo) (v : Word) : (s.setReg t r v).nvm = s.nvm := rfl
@[simp] theorem State.setReg_tan (t : CtxNo) (r : RegNo) (v : Word) : (s.setReg t r v).tan = s.tan := rfl
@[simp] theorem State.setReg_pow (t : CtxNo) (r : RegNo) (v : Word) : (s.setReg t r v).pow = s.pow := rfl
@[simp] theorem State.setReg_mem (t : CtxNo) (r : RegNo) (v : Word) : (s.setReg t r v).mem = s.mem := rfl
@[simp] theorem State.setReg_free (t : CtxNo) (r : RegNo) (v : Word) : (s.setReg t r v).free = s.free := rfl

/-! ## Entries of the calendar that are taken out -/

@[simp] theorem State.cancel_pending (c : Instr) : (s.cancel c).pending = s.pending := rfl
@[simp] theorem State.cancel_transit (c : Instr) : (s.cancel c).transit = s.transit := rfl
@[simp] theorem State.cancel_member (c : Instr) : (s.cancel c).member = s.member := rfl
@[simp] theorem State.cancel_tick (c : Instr) : (s.cancel c).tick = s.tick := rfl
@[simp] theorem State.cancel_part (c : Instr) : (s.cancel c).part = s.part := rfl
@[simp] theorem State.cancel_snapHi (c : Instr) : (s.cancel c).snapHi = s.snapHi := rfl
@[simp] theorem State.cancel_rate (c : Instr) : (s.cancel c).rate = s.rate := rfl
@[simp] theorem State.cancel_cfg (c : Instr) : (s.cancel c).cfg = s.cfg := rfl
@[simp] theorem State.cancel_isl (c : Instr) : (s.cancel c).isl = s.isl := rfl
@[simp] theorem State.cancel_busy (c : Instr) : (s.cancel c).busy = s.busy := rfl
@[simp] theorem State.cancel_busyOut (c : Instr) : (s.cancel c).busyOut = s.busyOut := rfl
@[simp] theorem State.cancel_busySeen (c : Instr) : (s.cancel c).busySeen = s.busySeen := rfl
@[simp] theorem State.cancel_rsvOut (c : Instr) : (s.cancel c).rsvOut = s.rsvOut := rfl
@[simp] theorem State.cancel_rsvSeen (c : Instr) : (s.cancel c).rsvSeen = s.rsvSeen := rfl
@[simp] theorem State.cancel_ledq (c : Instr) : (s.cancel c).ledq = s.ledq := rfl
@[simp] theorem State.cancel_clampLink (c : Instr) : (s.cancel c).clampLink = s.clampLink := rfl
@[simp] theorem State.cancel_clampT (c : Instr) : (s.cancel c).clampT = s.clampT := rfl
@[simp] theorem State.cancel_clampSlate (c : Instr) : (s.cancel c).clampSlate = s.clampSlate := rfl
@[simp] theorem State.cancel_clampDma (c : Instr) : (s.cancel c).clampDma = s.clampDma := rfl
@[simp] theorem State.cancel_link (c : Instr) : (s.cancel c).link = s.link := rfl
@[simp] theorem State.cancel_slate (c : Instr) : (s.cancel c).slate = s.slate := rfl
@[simp] theorem State.cancel_evt (c : Instr) : (s.cancel c).evt = s.evt := rfl
@[simp] theorem State.cancel_dma (c : Instr) : (s.cancel c).dma = s.dma := rfl
@[simp] theorem State.cancel_moved (c : Instr) : (s.cancel c).moved = s.moved := rfl
@[simp] theorem State.cancel_appendAt (c : Instr) : (s.cancel c).appendAt = s.appendAt := rfl
@[simp] theorem State.cancel_nvmRd (c : Instr) : (s.cancel c).nvmRd = s.nvmRd := rfl
@[simp] theorem State.cancel_facet (c : Instr) : (s.cancel c).facet = s.facet := rfl
@[simp] theorem State.cancel_flint (c : Instr) : (s.cancel c).flint = s.flint := rfl
@[simp] theorem State.cancel_safe (c : Instr) : (s.cancel c).safe = s.safe := rfl
@[simp] theorem State.cancel_fault (c : Instr) : (s.cancel c).fault = s.fault := rfl
@[simp] theorem State.cancel_nvm (c : Instr) : (s.cancel c).nvm = s.nvm := rfl
@[simp] theorem State.cancel_tan (c : Instr) : (s.cancel c).tan = s.tan := rfl
@[simp] theorem State.cancel_pow (c : Instr) : (s.cancel c).pow = s.pow := rfl
@[simp] theorem State.cancel_mem (c : Instr) : (s.cancel c).mem = s.mem := rfl
@[simp] theorem State.cancel_free (c : Instr) : (s.cancel c).free = s.free := rfl

/-! ## Entries of the calendar that are settled -/

@[simp] theorem State.settle_pending (c : Instr) : (s.settle c).pending = s.pending := rfl
@[simp] theorem State.settle_transit (c : Instr) : (s.settle c).transit = s.transit := rfl
@[simp] theorem State.settle_member (c : Instr) : (s.settle c).member = s.member := rfl
@[simp] theorem State.settle_tick (c : Instr) : (s.settle c).tick = s.tick := rfl
@[simp] theorem State.settle_part (c : Instr) : (s.settle c).part = s.part := rfl
@[simp] theorem State.settle_snapHi (c : Instr) : (s.settle c).snapHi = s.snapHi := rfl
@[simp] theorem State.settle_rate (c : Instr) : (s.settle c).rate = s.rate := rfl
@[simp] theorem State.settle_cfg (c : Instr) : (s.settle c).cfg = s.cfg := rfl
@[simp] theorem State.settle_isl (c : Instr) : (s.settle c).isl = s.isl := rfl
@[simp] theorem State.settle_busy (c : Instr) : (s.settle c).busy = s.busy := rfl
@[simp] theorem State.settle_busyOut (c : Instr) : (s.settle c).busyOut = s.busyOut := rfl
@[simp] theorem State.settle_busySeen (c : Instr) : (s.settle c).busySeen = s.busySeen := rfl
@[simp] theorem State.settle_rsvOut (c : Instr) : (s.settle c).rsvOut = s.rsvOut := rfl
@[simp] theorem State.settle_rsvSeen (c : Instr) : (s.settle c).rsvSeen = s.rsvSeen := rfl
@[simp] theorem State.settle_ledq (c : Instr) : (s.settle c).ledq = s.ledq := rfl
@[simp] theorem State.settle_clampLink (c : Instr) : (s.settle c).clampLink = s.clampLink := rfl
@[simp] theorem State.settle_clampT (c : Instr) : (s.settle c).clampT = s.clampT := rfl
@[simp] theorem State.settle_clampSlate (c : Instr) : (s.settle c).clampSlate = s.clampSlate := rfl
@[simp] theorem State.settle_clampDma (c : Instr) : (s.settle c).clampDma = s.clampDma := rfl
@[simp] theorem State.settle_link (c : Instr) : (s.settle c).link = s.link := rfl
@[simp] theorem State.settle_slate (c : Instr) : (s.settle c).slate = s.slate := rfl
@[simp] theorem State.settle_evt (c : Instr) : (s.settle c).evt = s.evt := rfl
@[simp] theorem State.settle_dma (c : Instr) : (s.settle c).dma = s.dma := rfl
@[simp] theorem State.settle_moved (c : Instr) : (s.settle c).moved = s.moved := rfl
@[simp] theorem State.settle_appendAt (c : Instr) : (s.settle c).appendAt = s.appendAt := rfl
@[simp] theorem State.settle_nvmRd (c : Instr) : (s.settle c).nvmRd = s.nvmRd := rfl
@[simp] theorem State.settle_facet (c : Instr) : (s.settle c).facet = s.facet := rfl
@[simp] theorem State.settle_flint (c : Instr) : (s.settle c).flint = s.flint := rfl
@[simp] theorem State.settle_safe (c : Instr) : (s.settle c).safe = s.safe := rfl
@[simp] theorem State.settle_fault (c : Instr) : (s.settle c).fault = s.fault := rfl
@[simp] theorem State.settle_nvm (c : Instr) : (s.settle c).nvm = s.nvm := rfl
@[simp] theorem State.settle_tan (c : Instr) : (s.settle c).tan = s.tan := rfl
@[simp] theorem State.settle_pow (c : Instr) : (s.settle c).pow = s.pow := rfl
@[simp] theorem State.settle_mem (c : Instr) : (s.settle c).mem = s.mem := rfl
@[simp] theorem State.settle_free (c : Instr) : (s.settle c).free = s.free := rfl

/-! ## Free values -/

@[simp] theorem State.freed_pending : (s.freed).pending = s.pending := rfl
@[simp] theorem State.freed_due : (s.freed).due = s.due := rfl
@[simp] theorem State.freed_transit : (s.freed).transit = s.transit := rfl
@[simp] theorem State.freed_member : (s.freed).member = s.member := rfl
@[simp] theorem State.freed_tick : (s.freed).tick = s.tick := rfl
@[simp] theorem State.freed_part : (s.freed).part = s.part := rfl
@[simp] theorem State.freed_snapHi : (s.freed).snapHi = s.snapHi := rfl
@[simp] theorem State.freed_rate : (s.freed).rate = s.rate := rfl
@[simp] theorem State.freed_cfg : (s.freed).cfg = s.cfg := rfl
@[simp] theorem State.freed_isl : (s.freed).isl = s.isl := rfl
@[simp] theorem State.freed_busy : (s.freed).busy = s.busy := rfl
@[simp] theorem State.freed_busyOut : (s.freed).busyOut = s.busyOut := rfl
@[simp] theorem State.freed_busySeen : (s.freed).busySeen = s.busySeen := rfl
@[simp] theorem State.freed_rsvOut : (s.freed).rsvOut = s.rsvOut := rfl
@[simp] theorem State.freed_rsvSeen : (s.freed).rsvSeen = s.rsvSeen := rfl
@[simp] theorem State.freed_ledq : (s.freed).ledq = s.ledq := rfl
@[simp] theorem State.freed_clampLink : (s.freed).clampLink = s.clampLink := rfl
@[simp] theorem State.freed_clampT : (s.freed).clampT = s.clampT := rfl
@[simp] theorem State.freed_clampSlate : (s.freed).clampSlate = s.clampSlate := rfl
@[simp] theorem State.freed_clampDma : (s.freed).clampDma = s.clampDma := rfl
@[simp] theorem State.freed_link : (s.freed).link = s.link := rfl
@[simp] theorem State.freed_slate : (s.freed).slate = s.slate := rfl
@[simp] theorem State.freed_evt : (s.freed).evt = s.evt := rfl
@[simp] theorem State.freed_dma : (s.freed).dma = s.dma := rfl
@[simp] theorem State.freed_moved : (s.freed).moved = s.moved := rfl
@[simp] theorem State.freed_appendAt : (s.freed).appendAt = s.appendAt := rfl
@[simp] theorem State.freed_nvmRd : (s.freed).nvmRd = s.nvmRd := rfl
@[simp] theorem State.freed_facet : (s.freed).facet = s.facet := rfl
@[simp] theorem State.freed_flint : (s.freed).flint = s.flint := rfl
@[simp] theorem State.freed_safe : (s.freed).safe = s.safe := rfl
@[simp] theorem State.freed_fault : (s.freed).fault = s.fault := rfl
@[simp] theorem State.freed_nvm : (s.freed).nvm = s.nvm := rfl
@[simp] theorem State.freed_tan : (s.freed).tan = s.tan := rfl
@[simp] theorem State.freed_pow : (s.freed).pow = s.pow := rfl
@[simp] theorem State.freed_mem : (s.freed).mem = s.mem := rfl

/-! ## State-lane changes -/

@[simp] theorem State.sendLane_pending (k : Nat) (x : Transit) : (s.sendLane k x).pending = s.pending := rfl
@[simp] theorem State.sendLane_due (k : Nat) (x : Transit) : (s.sendLane k x).due = s.due := rfl
@[simp] theorem State.sendLane_member (k : Nat) (x : Transit) : (s.sendLane k x).member = s.member := rfl
@[simp] theorem State.sendLane_tick (k : Nat) (x : Transit) : (s.sendLane k x).tick = s.tick := rfl
@[simp] theorem State.sendLane_part (k : Nat) (x : Transit) : (s.sendLane k x).part = s.part := rfl
@[simp] theorem State.sendLane_snapHi (k : Nat) (x : Transit) : (s.sendLane k x).snapHi = s.snapHi := rfl
@[simp] theorem State.sendLane_rate (k : Nat) (x : Transit) : (s.sendLane k x).rate = s.rate := rfl
@[simp] theorem State.sendLane_cfg (k : Nat) (x : Transit) : (s.sendLane k x).cfg = s.cfg := rfl
@[simp] theorem State.sendLane_isl (k : Nat) (x : Transit) : (s.sendLane k x).isl = s.isl := rfl
@[simp] theorem State.sendLane_busy (k : Nat) (x : Transit) : (s.sendLane k x).busy = s.busy := rfl
@[simp] theorem State.sendLane_busyOut (k : Nat) (x : Transit) : (s.sendLane k x).busyOut = s.busyOut := rfl
@[simp] theorem State.sendLane_busySeen (k : Nat) (x : Transit) : (s.sendLane k x).busySeen = s.busySeen := rfl
@[simp] theorem State.sendLane_rsvOut (k : Nat) (x : Transit) : (s.sendLane k x).rsvOut = s.rsvOut := rfl
@[simp] theorem State.sendLane_rsvSeen (k : Nat) (x : Transit) : (s.sendLane k x).rsvSeen = s.rsvSeen := rfl
@[simp] theorem State.sendLane_ledq (k : Nat) (x : Transit) : (s.sendLane k x).ledq = s.ledq := rfl
@[simp] theorem State.sendLane_clampLink (k : Nat) (x : Transit) : (s.sendLane k x).clampLink = s.clampLink := rfl
@[simp] theorem State.sendLane_clampT (k : Nat) (x : Transit) : (s.sendLane k x).clampT = s.clampT := rfl
@[simp] theorem State.sendLane_clampSlate (k : Nat) (x : Transit) : (s.sendLane k x).clampSlate = s.clampSlate := rfl
@[simp] theorem State.sendLane_clampDma (k : Nat) (x : Transit) : (s.sendLane k x).clampDma = s.clampDma := rfl
@[simp] theorem State.sendLane_link (k : Nat) (x : Transit) : (s.sendLane k x).link = s.link := rfl
@[simp] theorem State.sendLane_slate (k : Nat) (x : Transit) : (s.sendLane k x).slate = s.slate := rfl
@[simp] theorem State.sendLane_evt (k : Nat) (x : Transit) : (s.sendLane k x).evt = s.evt := rfl
@[simp] theorem State.sendLane_dma (k : Nat) (x : Transit) : (s.sendLane k x).dma = s.dma := rfl
@[simp] theorem State.sendLane_moved (k : Nat) (x : Transit) : (s.sendLane k x).moved = s.moved := rfl
@[simp] theorem State.sendLane_appendAt (k : Nat) (x : Transit) : (s.sendLane k x).appendAt = s.appendAt := rfl
@[simp] theorem State.sendLane_nvmRd (k : Nat) (x : Transit) : (s.sendLane k x).nvmRd = s.nvmRd := rfl
@[simp] theorem State.sendLane_facet (k : Nat) (x : Transit) : (s.sendLane k x).facet = s.facet := rfl
@[simp] theorem State.sendLane_flint (k : Nat) (x : Transit) : (s.sendLane k x).flint = s.flint := rfl
@[simp] theorem State.sendLane_safe (k : Nat) (x : Transit) : (s.sendLane k x).safe = s.safe := rfl
@[simp] theorem State.sendLane_fault (k : Nat) (x : Transit) : (s.sendLane k x).fault = s.fault := rfl
@[simp] theorem State.sendLane_nvm (k : Nat) (x : Transit) : (s.sendLane k x).nvm = s.nvm := rfl
@[simp] theorem State.sendLane_tan (k : Nat) (x : Transit) : (s.sendLane k x).tan = s.tan := rfl
@[simp] theorem State.sendLane_pow (k : Nat) (x : Transit) : (s.sendLane k x).pow = s.pow := rfl
@[simp] theorem State.sendLane_mem (k : Nat) (x : Transit) : (s.sendLane k x).mem = s.mem := rfl
@[simp] theorem State.sendLane_free (k : Nat) (x : Transit) : (s.sendLane k x).free = s.free := rfl

/-! ## Bytes of SRAM -/

@[simp] theorem State.putByte_pending (a : Nat) (b : Byte) : (s.putByte a b).pending = s.pending := rfl
@[simp] theorem State.putByte_due (a : Nat) (b : Byte) : (s.putByte a b).due = s.due := rfl
@[simp] theorem State.putByte_transit (a : Nat) (b : Byte) : (s.putByte a b).transit = s.transit := rfl
@[simp] theorem State.putByte_member (a : Nat) (b : Byte) : (s.putByte a b).member = s.member := rfl
@[simp] theorem State.putByte_tick (a : Nat) (b : Byte) : (s.putByte a b).tick = s.tick := rfl
@[simp] theorem State.putByte_part (a : Nat) (b : Byte) : (s.putByte a b).part = s.part := rfl
@[simp] theorem State.putByte_snapHi (a : Nat) (b : Byte) : (s.putByte a b).snapHi = s.snapHi := rfl
@[simp] theorem State.putByte_rate (a : Nat) (b : Byte) : (s.putByte a b).rate = s.rate := rfl
@[simp] theorem State.putByte_cfg (a : Nat) (b : Byte) : (s.putByte a b).cfg = s.cfg := rfl
@[simp] theorem State.putByte_isl (a : Nat) (b : Byte) : (s.putByte a b).isl = s.isl := rfl
@[simp] theorem State.putByte_busy (a : Nat) (b : Byte) : (s.putByte a b).busy = s.busy := rfl
@[simp] theorem State.putByte_busyOut (a : Nat) (b : Byte) : (s.putByte a b).busyOut = s.busyOut := rfl
@[simp] theorem State.putByte_busySeen (a : Nat) (b : Byte) : (s.putByte a b).busySeen = s.busySeen := rfl
@[simp] theorem State.putByte_rsvOut (a : Nat) (b : Byte) : (s.putByte a b).rsvOut = s.rsvOut := rfl
@[simp] theorem State.putByte_rsvSeen (a : Nat) (b : Byte) : (s.putByte a b).rsvSeen = s.rsvSeen := rfl
@[simp] theorem State.putByte_ledq (a : Nat) (b : Byte) : (s.putByte a b).ledq = s.ledq := rfl
@[simp] theorem State.putByte_clampLink (a : Nat) (b : Byte) : (s.putByte a b).clampLink = s.clampLink := rfl
@[simp] theorem State.putByte_clampT (a : Nat) (b : Byte) : (s.putByte a b).clampT = s.clampT := rfl
@[simp] theorem State.putByte_clampSlate (a : Nat) (b : Byte) : (s.putByte a b).clampSlate = s.clampSlate := rfl
@[simp] theorem State.putByte_clampDma (a : Nat) (b : Byte) : (s.putByte a b).clampDma = s.clampDma := rfl
@[simp] theorem State.putByte_link (a : Nat) (b : Byte) : (s.putByte a b).link = s.link := rfl
@[simp] theorem State.putByte_slate (a : Nat) (b : Byte) : (s.putByte a b).slate = s.slate := rfl
@[simp] theorem State.putByte_evt (a : Nat) (b : Byte) : (s.putByte a b).evt = s.evt := rfl
@[simp] theorem State.putByte_dma (a : Nat) (b : Byte) : (s.putByte a b).dma = s.dma := rfl
@[simp] theorem State.putByte_moved (a : Nat) (b : Byte) : (s.putByte a b).moved = s.moved := rfl
@[simp] theorem State.putByte_appendAt (a : Nat) (b : Byte) : (s.putByte a b).appendAt = s.appendAt := rfl
@[simp] theorem State.putByte_nvmRd (a : Nat) (b : Byte) : (s.putByte a b).nvmRd = s.nvmRd := rfl
@[simp] theorem State.putByte_facet (a : Nat) (b : Byte) : (s.putByte a b).facet = s.facet := rfl
@[simp] theorem State.putByte_flint (a : Nat) (b : Byte) : (s.putByte a b).flint = s.flint := rfl
@[simp] theorem State.putByte_safe (a : Nat) (b : Byte) : (s.putByte a b).safe = s.safe := rfl
@[simp] theorem State.putByte_fault (a : Nat) (b : Byte) : (s.putByte a b).fault = s.fault := rfl
@[simp] theorem State.putByte_nvm (a : Nat) (b : Byte) : (s.putByte a b).nvm = s.nvm := rfl
@[simp] theorem State.putByte_tan (a : Nat) (b : Byte) : (s.putByte a b).tan = s.tan := rfl
@[simp] theorem State.putByte_pow (a : Nat) (b : Byte) : (s.putByte a b).pow = s.pow := rfl
@[simp] theorem State.putByte_free (a : Nat) (b : Byte) : (s.putByte a b).free = s.free := rfl

/-! ## Downstream cells -/

@[simp] theorem State.send_pending (n : IslandNo) (r : Master) (d : DownData) (a : Word) (x : BitVec 19) : (s.send n r d a x).pending = s.pending := rfl
@[simp] theorem State.send_due (n : IslandNo) (r : Master) (d : DownData) (a : Word) (x : BitVec 19) : (s.send n r d a x).due = s.due := rfl
@[simp] theorem State.send_transit (n : IslandNo) (r : Master) (d : DownData) (a : Word) (x : BitVec 19) : (s.send n r d a x).transit = s.transit := rfl
@[simp] theorem State.send_member (n : IslandNo) (r : Master) (d : DownData) (a : Word) (x : BitVec 19) : (s.send n r d a x).member = s.member := rfl
@[simp] theorem State.send_tick (n : IslandNo) (r : Master) (d : DownData) (a : Word) (x : BitVec 19) : (s.send n r d a x).tick = s.tick := rfl
@[simp] theorem State.send_part (n : IslandNo) (r : Master) (d : DownData) (a : Word) (x : BitVec 19) : (s.send n r d a x).part = s.part := rfl
@[simp] theorem State.send_snapHi (n : IslandNo) (r : Master) (d : DownData) (a : Word) (x : BitVec 19) : (s.send n r d a x).snapHi = s.snapHi := rfl
@[simp] theorem State.send_rate (n : IslandNo) (r : Master) (d : DownData) (a : Word) (x : BitVec 19) : (s.send n r d a x).rate = s.rate := rfl
@[simp] theorem State.send_cfg (n : IslandNo) (r : Master) (d : DownData) (a : Word) (x : BitVec 19) : (s.send n r d a x).cfg = s.cfg := rfl
@[simp] theorem State.send_busy (n : IslandNo) (r : Master) (d : DownData) (a : Word) (x : BitVec 19) : (s.send n r d a x).busy = s.busy := rfl
@[simp] theorem State.send_busyOut (n : IslandNo) (r : Master) (d : DownData) (a : Word) (x : BitVec 19) : (s.send n r d a x).busyOut = s.busyOut := rfl
@[simp] theorem State.send_busySeen (n : IslandNo) (r : Master) (d : DownData) (a : Word) (x : BitVec 19) : (s.send n r d a x).busySeen = s.busySeen := rfl
@[simp] theorem State.send_rsvOut (n : IslandNo) (r : Master) (d : DownData) (a : Word) (x : BitVec 19) : (s.send n r d a x).rsvOut = s.rsvOut := rfl
@[simp] theorem State.send_rsvSeen (n : IslandNo) (r : Master) (d : DownData) (a : Word) (x : BitVec 19) : (s.send n r d a x).rsvSeen = s.rsvSeen := rfl
@[simp] theorem State.send_ledq (n : IslandNo) (r : Master) (d : DownData) (a : Word) (x : BitVec 19) : (s.send n r d a x).ledq = s.ledq := rfl
@[simp] theorem State.send_clampLink (n : IslandNo) (r : Master) (d : DownData) (a : Word) (x : BitVec 19) : (s.send n r d a x).clampLink = s.clampLink := rfl
@[simp] theorem State.send_clampT (n : IslandNo) (r : Master) (d : DownData) (a : Word) (x : BitVec 19) : (s.send n r d a x).clampT = s.clampT := rfl
@[simp] theorem State.send_clampSlate (n : IslandNo) (r : Master) (d : DownData) (a : Word) (x : BitVec 19) : (s.send n r d a x).clampSlate = s.clampSlate := rfl
@[simp] theorem State.send_clampDma (n : IslandNo) (r : Master) (d : DownData) (a : Word) (x : BitVec 19) : (s.send n r d a x).clampDma = s.clampDma := rfl
@[simp] theorem State.send_link (n : IslandNo) (r : Master) (d : DownData) (a : Word) (x : BitVec 19) : (s.send n r d a x).link = s.link := rfl
@[simp] theorem State.send_slate (n : IslandNo) (r : Master) (d : DownData) (a : Word) (x : BitVec 19) : (s.send n r d a x).slate = s.slate := rfl
@[simp] theorem State.send_evt (n : IslandNo) (r : Master) (d : DownData) (a : Word) (x : BitVec 19) : (s.send n r d a x).evt = s.evt := rfl
@[simp] theorem State.send_dma (n : IslandNo) (r : Master) (d : DownData) (a : Word) (x : BitVec 19) : (s.send n r d a x).dma = s.dma := rfl
@[simp] theorem State.send_moved (n : IslandNo) (r : Master) (d : DownData) (a : Word) (x : BitVec 19) : (s.send n r d a x).moved = s.moved := rfl
@[simp] theorem State.send_appendAt (n : IslandNo) (r : Master) (d : DownData) (a : Word) (x : BitVec 19) : (s.send n r d a x).appendAt = s.appendAt := rfl
@[simp] theorem State.send_nvmRd (n : IslandNo) (r : Master) (d : DownData) (a : Word) (x : BitVec 19) : (s.send n r d a x).nvmRd = s.nvmRd := rfl
@[simp] theorem State.send_facet (n : IslandNo) (r : Master) (d : DownData) (a : Word) (x : BitVec 19) : (s.send n r d a x).facet = s.facet := rfl
@[simp] theorem State.send_flint (n : IslandNo) (r : Master) (d : DownData) (a : Word) (x : BitVec 19) : (s.send n r d a x).flint = s.flint := rfl
@[simp] theorem State.send_safe (n : IslandNo) (r : Master) (d : DownData) (a : Word) (x : BitVec 19) : (s.send n r d a x).safe = s.safe := rfl
@[simp] theorem State.send_fault (n : IslandNo) (r : Master) (d : DownData) (a : Word) (x : BitVec 19) : (s.send n r d a x).fault = s.fault := rfl
@[simp] theorem State.send_nvm (n : IslandNo) (r : Master) (d : DownData) (a : Word) (x : BitVec 19) : (s.send n r d a x).nvm = s.nvm := rfl
@[simp] theorem State.send_tan (n : IslandNo) (r : Master) (d : DownData) (a : Word) (x : BitVec 19) : (s.send n r d a x).tan = s.tan := rfl
@[simp] theorem State.send_pow (n : IslandNo) (r : Master) (d : DownData) (a : Word) (x : BitVec 19) : (s.send n r d a x).pow = s.pow := rfl
@[simp] theorem State.send_mem (n : IslandNo) (r : Master) (d : DownData) (a : Word) (x : BitVec 19) : (s.send n r d a x).mem = s.mem := rfl
@[simp] theorem State.send_free (n : IslandNo) (r : Master) (d : DownData) (a : Word) (x : BitVec 19) : (s.send n r d a x).free = s.free := rfl

/-! ## Upstream cells -/

@[simp] theorem State.sendUp_pending (n : IslandNo) (d : UpData) : (s.sendUp n d).pending = s.pending := rfl
@[simp] theorem State.sendUp_due (n : IslandNo) (d : UpData) : (s.sendUp n d).due = s.due := rfl
@[simp] theorem State.sendUp_transit (n : IslandNo) (d : UpData) : (s.sendUp n d).transit = s.transit := rfl
@[simp] theorem State.sendUp_member (n : IslandNo) (d : UpData) : (s.sendUp n d).member = s.member := rfl
@[simp] theorem State.sendUp_tick (n : IslandNo) (d : UpData) : (s.sendUp n d).tick = s.tick := rfl
@[simp] theorem State.sendUp_part (n : IslandNo) (d : UpData) : (s.sendUp n d).part = s.part := rfl
@[simp] theorem State.sendUp_snapHi (n : IslandNo) (d : UpData) : (s.sendUp n d).snapHi = s.snapHi := rfl
@[simp] theorem State.sendUp_rate (n : IslandNo) (d : UpData) : (s.sendUp n d).rate = s.rate := rfl
@[simp] theorem State.sendUp_cfg (n : IslandNo) (d : UpData) : (s.sendUp n d).cfg = s.cfg := rfl
@[simp] theorem State.sendUp_busy (n : IslandNo) (d : UpData) : (s.sendUp n d).busy = s.busy := rfl
@[simp] theorem State.sendUp_busyOut (n : IslandNo) (d : UpData) : (s.sendUp n d).busyOut = s.busyOut := rfl
@[simp] theorem State.sendUp_busySeen (n : IslandNo) (d : UpData) : (s.sendUp n d).busySeen = s.busySeen := rfl
@[simp] theorem State.sendUp_rsvOut (n : IslandNo) (d : UpData) : (s.sendUp n d).rsvOut = s.rsvOut := rfl
@[simp] theorem State.sendUp_rsvSeen (n : IslandNo) (d : UpData) : (s.sendUp n d).rsvSeen = s.rsvSeen := rfl
@[simp] theorem State.sendUp_ledq (n : IslandNo) (d : UpData) : (s.sendUp n d).ledq = s.ledq := rfl
@[simp] theorem State.sendUp_clampLink (n : IslandNo) (d : UpData) : (s.sendUp n d).clampLink = s.clampLink := rfl
@[simp] theorem State.sendUp_clampT (n : IslandNo) (d : UpData) : (s.sendUp n d).clampT = s.clampT := rfl
@[simp] theorem State.sendUp_clampSlate (n : IslandNo) (d : UpData) : (s.sendUp n d).clampSlate = s.clampSlate := rfl
@[simp] theorem State.sendUp_clampDma (n : IslandNo) (d : UpData) : (s.sendUp n d).clampDma = s.clampDma := rfl
@[simp] theorem State.sendUp_link (n : IslandNo) (d : UpData) : (s.sendUp n d).link = s.link := rfl
@[simp] theorem State.sendUp_slate (n : IslandNo) (d : UpData) : (s.sendUp n d).slate = s.slate := rfl
@[simp] theorem State.sendUp_evt (n : IslandNo) (d : UpData) : (s.sendUp n d).evt = s.evt := rfl
@[simp] theorem State.sendUp_dma (n : IslandNo) (d : UpData) : (s.sendUp n d).dma = s.dma := rfl
@[simp] theorem State.sendUp_moved (n : IslandNo) (d : UpData) : (s.sendUp n d).moved = s.moved := rfl
@[simp] theorem State.sendUp_appendAt (n : IslandNo) (d : UpData) : (s.sendUp n d).appendAt = s.appendAt := rfl
@[simp] theorem State.sendUp_nvmRd (n : IslandNo) (d : UpData) : (s.sendUp n d).nvmRd = s.nvmRd := rfl
@[simp] theorem State.sendUp_facet (n : IslandNo) (d : UpData) : (s.sendUp n d).facet = s.facet := rfl
@[simp] theorem State.sendUp_flint (n : IslandNo) (d : UpData) : (s.sendUp n d).flint = s.flint := rfl
@[simp] theorem State.sendUp_safe (n : IslandNo) (d : UpData) : (s.sendUp n d).safe = s.safe := rfl
@[simp] theorem State.sendUp_fault (n : IslandNo) (d : UpData) : (s.sendUp n d).fault = s.fault := rfl
@[simp] theorem State.sendUp_nvm (n : IslandNo) (d : UpData) : (s.sendUp n d).nvm = s.nvm := rfl
@[simp] theorem State.sendUp_tan (n : IslandNo) (d : UpData) : (s.sendUp n d).tan = s.tan := rfl
@[simp] theorem State.sendUp_pow (n : IslandNo) (d : UpData) : (s.sendUp n d).pow = s.pow := rfl
@[simp] theorem State.sendUp_mem (n : IslandNo) (d : UpData) : (s.sendUp n d).mem = s.mem := rfl
@[simp] theorem State.sendUp_free (n : IslandNo) (d : UpData) : (s.sendUp n d).free = s.free := rfl

/-! ## Cells that arrive -/

@[simp] theorem State.arrived_pending (n : IslandNo) (d : UpData) : (s.arrived n d).pending = s.pending := by unfold State.arrived; split <;> rfl
@[simp] theorem State.arrived_due (n : IslandNo) (d : UpData) : (s.arrived n d).due = s.due := by unfold State.arrived; split <;> rfl
@[simp] theorem State.arrived_transit (n : IslandNo) (d : UpData) : (s.arrived n d).transit = s.transit := by unfold State.arrived; split <;> rfl
@[simp] theorem State.arrived_member (n : IslandNo) (d : UpData) : (s.arrived n d).member = s.member := by unfold State.arrived; split <;> rfl
@[simp] theorem State.arrived_tick (n : IslandNo) (d : UpData) : (s.arrived n d).tick = s.tick := by unfold State.arrived; split <;> rfl
@[simp] theorem State.arrived_part (n : IslandNo) (d : UpData) : (s.arrived n d).part = s.part := by unfold State.arrived; split <;> rfl
@[simp] theorem State.arrived_snapHi (n : IslandNo) (d : UpData) : (s.arrived n d).snapHi = s.snapHi := by unfold State.arrived; split <;> rfl
@[simp] theorem State.arrived_rate (n : IslandNo) (d : UpData) : (s.arrived n d).rate = s.rate := by unfold State.arrived; split <;> rfl
@[simp] theorem State.arrived_cfg (n : IslandNo) (d : UpData) : (s.arrived n d).cfg = s.cfg := by unfold State.arrived; split <;> rfl
@[simp] theorem State.arrived_busy (n : IslandNo) (d : UpData) : (s.arrived n d).busy = s.busy := by unfold State.arrived; split <;> rfl
@[simp] theorem State.arrived_busyOut (n : IslandNo) (d : UpData) : (s.arrived n d).busyOut = s.busyOut := by unfold State.arrived; split <;> rfl
@[simp] theorem State.arrived_busySeen (n : IslandNo) (d : UpData) : (s.arrived n d).busySeen = s.busySeen := by unfold State.arrived; split <;> rfl
@[simp] theorem State.arrived_rsvOut (n : IslandNo) (d : UpData) : (s.arrived n d).rsvOut = s.rsvOut := by unfold State.arrived; split <;> rfl
@[simp] theorem State.arrived_rsvSeen (n : IslandNo) (d : UpData) : (s.arrived n d).rsvSeen = s.rsvSeen := by unfold State.arrived; split <;> rfl
@[simp] theorem State.arrived_ledq (n : IslandNo) (d : UpData) : (s.arrived n d).ledq = s.ledq := by unfold State.arrived; split <;> rfl
@[simp] theorem State.arrived_clampLink (n : IslandNo) (d : UpData) : (s.arrived n d).clampLink = s.clampLink := by unfold State.arrived; split <;> rfl
@[simp] theorem State.arrived_clampT (n : IslandNo) (d : UpData) : (s.arrived n d).clampT = s.clampT := by unfold State.arrived; split <;> rfl
@[simp] theorem State.arrived_clampSlate (n : IslandNo) (d : UpData) : (s.arrived n d).clampSlate = s.clampSlate := by unfold State.arrived; split <;> rfl
@[simp] theorem State.arrived_clampDma (n : IslandNo) (d : UpData) : (s.arrived n d).clampDma = s.clampDma := by unfold State.arrived; split <;> rfl
@[simp] theorem State.arrived_link (n : IslandNo) (d : UpData) : (s.arrived n d).link = s.link := by unfold State.arrived; split <;> rfl
@[simp] theorem State.arrived_slate (n : IslandNo) (d : UpData) : (s.arrived n d).slate = s.slate := by unfold State.arrived; split <;> rfl
@[simp] theorem State.arrived_evt (n : IslandNo) (d : UpData) : (s.arrived n d).evt = s.evt := by unfold State.arrived; split <;> rfl
@[simp] theorem State.arrived_dma (n : IslandNo) (d : UpData) : (s.arrived n d).dma = s.dma := by unfold State.arrived; split <;> rfl
@[simp] theorem State.arrived_moved (n : IslandNo) (d : UpData) : (s.arrived n d).moved = s.moved := by unfold State.arrived; split <;> rfl
@[simp] theorem State.arrived_appendAt (n : IslandNo) (d : UpData) : (s.arrived n d).appendAt = s.appendAt := by unfold State.arrived; split <;> rfl
@[simp] theorem State.arrived_nvmRd (n : IslandNo) (d : UpData) : (s.arrived n d).nvmRd = s.nvmRd := by unfold State.arrived; split <;> rfl
@[simp] theorem State.arrived_facet (n : IslandNo) (d : UpData) : (s.arrived n d).facet = s.facet := by unfold State.arrived; split <;> rfl
@[simp] theorem State.arrived_flint (n : IslandNo) (d : UpData) : (s.arrived n d).flint = s.flint := by unfold State.arrived; split <;> rfl
@[simp] theorem State.arrived_safe (n : IslandNo) (d : UpData) : (s.arrived n d).safe = s.safe := by unfold State.arrived; split <;> rfl
@[simp] theorem State.arrived_fault (n : IslandNo) (d : UpData) : (s.arrived n d).fault = s.fault := by unfold State.arrived; split <;> rfl
@[simp] theorem State.arrived_nvm (n : IslandNo) (d : UpData) : (s.arrived n d).nvm = s.nvm := by unfold State.arrived; split <;> rfl
@[simp] theorem State.arrived_tan (n : IslandNo) (d : UpData) : (s.arrived n d).tan = s.tan := by unfold State.arrived; split <;> rfl
@[simp] theorem State.arrived_pow (n : IslandNo) (d : UpData) : (s.arrived n d).pow = s.pow := by unfold State.arrived; split <;> rfl
@[simp] theorem State.arrived_mem (n : IslandNo) (d : UpData) : (s.arrived n d).mem = s.mem := by unfold State.arrived; split <;> rfl
@[simp] theorem State.arrived_free (n : IslandNo) (d : UpData) : (s.arrived n d).free = s.free := by unfold State.arrived; split <;> rfl

/-! ## Cells that land -/

@[simp] theorem State.landed_pending (n : IslandNo) (d : DownData) : (s.landed n d).pending = s.pending := by unfold State.landed; split <;> rfl
@[simp] theorem State.landed_due (n : IslandNo) (d : DownData) : (s.landed n d).due = s.due := by unfold State.landed; split <;> rfl
@[simp] theorem State.landed_transit (n : IslandNo) (d : DownData) : (s.landed n d).transit = s.transit := by unfold State.landed; split <;> rfl
@[simp] theorem State.landed_member (n : IslandNo) (d : DownData) : (s.landed n d).member = s.member := by unfold State.landed; split <;> rfl
@[simp] theorem State.landed_tick (n : IslandNo) (d : DownData) : (s.landed n d).tick = s.tick := by unfold State.landed; split <;> rfl
@[simp] theorem State.landed_part (n : IslandNo) (d : DownData) : (s.landed n d).part = s.part := by unfold State.landed; split <;> rfl
@[simp] theorem State.landed_snapHi (n : IslandNo) (d : DownData) : (s.landed n d).snapHi = s.snapHi := by unfold State.landed; split <;> rfl
@[simp] theorem State.landed_rate (n : IslandNo) (d : DownData) : (s.landed n d).rate = s.rate := by unfold State.landed; split <;> rfl
@[simp] theorem State.landed_cfg (n : IslandNo) (d : DownData) : (s.landed n d).cfg = s.cfg := by unfold State.landed; split <;> rfl
@[simp] theorem State.landed_busy (n : IslandNo) (d : DownData) : (s.landed n d).busy = s.busy := by unfold State.landed; split <;> rfl
@[simp] theorem State.landed_busyOut (n : IslandNo) (d : DownData) : (s.landed n d).busyOut = s.busyOut := by unfold State.landed; split <;> rfl
@[simp] theorem State.landed_busySeen (n : IslandNo) (d : DownData) : (s.landed n d).busySeen = s.busySeen := by unfold State.landed; split <;> rfl
@[simp] theorem State.landed_rsvOut (n : IslandNo) (d : DownData) : (s.landed n d).rsvOut = s.rsvOut := by unfold State.landed; split <;> rfl
@[simp] theorem State.landed_rsvSeen (n : IslandNo) (d : DownData) : (s.landed n d).rsvSeen = s.rsvSeen := by unfold State.landed; split <;> rfl
@[simp] theorem State.landed_ledq (n : IslandNo) (d : DownData) : (s.landed n d).ledq = s.ledq := by unfold State.landed; split <;> rfl
@[simp] theorem State.landed_clampLink (n : IslandNo) (d : DownData) : (s.landed n d).clampLink = s.clampLink := by unfold State.landed; split <;> rfl
@[simp] theorem State.landed_clampT (n : IslandNo) (d : DownData) : (s.landed n d).clampT = s.clampT := by unfold State.landed; split <;> rfl
@[simp] theorem State.landed_clampSlate (n : IslandNo) (d : DownData) : (s.landed n d).clampSlate = s.clampSlate := by unfold State.landed; split <;> rfl
@[simp] theorem State.landed_clampDma (n : IslandNo) (d : DownData) : (s.landed n d).clampDma = s.clampDma := by unfold State.landed; split <;> rfl
@[simp] theorem State.landed_link (n : IslandNo) (d : DownData) : (s.landed n d).link = s.link := by unfold State.landed; split <;> rfl
@[simp] theorem State.landed_slate (n : IslandNo) (d : DownData) : (s.landed n d).slate = s.slate := by unfold State.landed; split <;> rfl
@[simp] theorem State.landed_evt (n : IslandNo) (d : DownData) : (s.landed n d).evt = s.evt := by unfold State.landed; split <;> rfl
@[simp] theorem State.landed_dma (n : IslandNo) (d : DownData) : (s.landed n d).dma = s.dma := by unfold State.landed; split <;> rfl
@[simp] theorem State.landed_moved (n : IslandNo) (d : DownData) : (s.landed n d).moved = s.moved := by unfold State.landed; split <;> rfl
@[simp] theorem State.landed_appendAt (n : IslandNo) (d : DownData) : (s.landed n d).appendAt = s.appendAt := by unfold State.landed; split <;> rfl
@[simp] theorem State.landed_nvmRd (n : IslandNo) (d : DownData) : (s.landed n d).nvmRd = s.nvmRd := by unfold State.landed; split <;> rfl
@[simp] theorem State.landed_facet (n : IslandNo) (d : DownData) : (s.landed n d).facet = s.facet := by unfold State.landed; split <;> rfl
@[simp] theorem State.landed_flint (n : IslandNo) (d : DownData) : (s.landed n d).flint = s.flint := by unfold State.landed; split <;> rfl
@[simp] theorem State.landed_safe (n : IslandNo) (d : DownData) : (s.landed n d).safe = s.safe := by unfold State.landed; split <;> rfl
@[simp] theorem State.landed_fault (n : IslandNo) (d : DownData) : (s.landed n d).fault = s.fault := by unfold State.landed; split <;> rfl
@[simp] theorem State.landed_nvm (n : IslandNo) (d : DownData) : (s.landed n d).nvm = s.nvm := by unfold State.landed; split <;> rfl
@[simp] theorem State.landed_tan (n : IslandNo) (d : DownData) : (s.landed n d).tan = s.tan := by unfold State.landed; split <;> rfl
@[simp] theorem State.landed_pow (n : IslandNo) (d : DownData) : (s.landed n d).pow = s.pow := by unfold State.landed; split <;> rfl
@[simp] theorem State.landed_mem (n : IslandNo) (d : DownData) : (s.landed n d).mem = s.mem := by unfold State.landed; split <;> rfl
@[simp] theorem State.landed_free (n : IslandNo) (d : DownData) : (s.landed n d).free = s.free := by unfold State.landed; split <;> rfl

/-! ## Input stages -/

@[simp] theorem State.modDin_pending (n : IslandNo) (f : DigIn → DigIn) : (s.modDin n f).pending = s.pending := rfl
@[simp] theorem State.modDin_due (n : IslandNo) (f : DigIn → DigIn) : (s.modDin n f).due = s.due := rfl
@[simp] theorem State.modDin_transit (n : IslandNo) (f : DigIn → DigIn) : (s.modDin n f).transit = s.transit := rfl
@[simp] theorem State.modDin_member (n : IslandNo) (f : DigIn → DigIn) : (s.modDin n f).member = s.member := rfl
@[simp] theorem State.modDin_tick (n : IslandNo) (f : DigIn → DigIn) : (s.modDin n f).tick = s.tick := rfl
@[simp] theorem State.modDin_part (n : IslandNo) (f : DigIn → DigIn) : (s.modDin n f).part = s.part := rfl
@[simp] theorem State.modDin_snapHi (n : IslandNo) (f : DigIn → DigIn) : (s.modDin n f).snapHi = s.snapHi := rfl
@[simp] theorem State.modDin_rate (n : IslandNo) (f : DigIn → DigIn) : (s.modDin n f).rate = s.rate := rfl
@[simp] theorem State.modDin_cfg (n : IslandNo) (f : DigIn → DigIn) : (s.modDin n f).cfg = s.cfg := rfl
@[simp] theorem State.modDin_busy (n : IslandNo) (f : DigIn → DigIn) : (s.modDin n f).busy = s.busy := rfl
@[simp] theorem State.modDin_busyOut (n : IslandNo) (f : DigIn → DigIn) : (s.modDin n f).busyOut = s.busyOut := rfl
@[simp] theorem State.modDin_busySeen (n : IslandNo) (f : DigIn → DigIn) : (s.modDin n f).busySeen = s.busySeen := rfl
@[simp] theorem State.modDin_rsvOut (n : IslandNo) (f : DigIn → DigIn) : (s.modDin n f).rsvOut = s.rsvOut := rfl
@[simp] theorem State.modDin_rsvSeen (n : IslandNo) (f : DigIn → DigIn) : (s.modDin n f).rsvSeen = s.rsvSeen := rfl
@[simp] theorem State.modDin_ledq (n : IslandNo) (f : DigIn → DigIn) : (s.modDin n f).ledq = s.ledq := rfl
@[simp] theorem State.modDin_clampLink (n : IslandNo) (f : DigIn → DigIn) : (s.modDin n f).clampLink = s.clampLink := rfl
@[simp] theorem State.modDin_clampT (n : IslandNo) (f : DigIn → DigIn) : (s.modDin n f).clampT = s.clampT := rfl
@[simp] theorem State.modDin_clampSlate (n : IslandNo) (f : DigIn → DigIn) : (s.modDin n f).clampSlate = s.clampSlate := rfl
@[simp] theorem State.modDin_clampDma (n : IslandNo) (f : DigIn → DigIn) : (s.modDin n f).clampDma = s.clampDma := rfl
@[simp] theorem State.modDin_link (n : IslandNo) (f : DigIn → DigIn) : (s.modDin n f).link = s.link := rfl
@[simp] theorem State.modDin_slate (n : IslandNo) (f : DigIn → DigIn) : (s.modDin n f).slate = s.slate := rfl
@[simp] theorem State.modDin_evt (n : IslandNo) (f : DigIn → DigIn) : (s.modDin n f).evt = s.evt := rfl
@[simp] theorem State.modDin_dma (n : IslandNo) (f : DigIn → DigIn) : (s.modDin n f).dma = s.dma := rfl
@[simp] theorem State.modDin_moved (n : IslandNo) (f : DigIn → DigIn) : (s.modDin n f).moved = s.moved := rfl
@[simp] theorem State.modDin_appendAt (n : IslandNo) (f : DigIn → DigIn) : (s.modDin n f).appendAt = s.appendAt := rfl
@[simp] theorem State.modDin_nvmRd (n : IslandNo) (f : DigIn → DigIn) : (s.modDin n f).nvmRd = s.nvmRd := rfl
@[simp] theorem State.modDin_facet (n : IslandNo) (f : DigIn → DigIn) : (s.modDin n f).facet = s.facet := rfl
@[simp] theorem State.modDin_flint (n : IslandNo) (f : DigIn → DigIn) : (s.modDin n f).flint = s.flint := rfl
@[simp] theorem State.modDin_safe (n : IslandNo) (f : DigIn → DigIn) : (s.modDin n f).safe = s.safe := rfl
@[simp] theorem State.modDin_fault (n : IslandNo) (f : DigIn → DigIn) : (s.modDin n f).fault = s.fault := rfl
@[simp] theorem State.modDin_nvm (n : IslandNo) (f : DigIn → DigIn) : (s.modDin n f).nvm = s.nvm := rfl
@[simp] theorem State.modDin_tan (n : IslandNo) (f : DigIn → DigIn) : (s.modDin n f).tan = s.tan := rfl
@[simp] theorem State.modDin_pow (n : IslandNo) (f : DigIn → DigIn) : (s.modDin n f).pow = s.pow := rfl
@[simp] theorem State.modDin_mem (n : IslandNo) (f : DigIn → DigIn) : (s.modDin n f).mem = s.mem := rfl
@[simp] theorem State.modDin_free (n : IslandNo) (f : DigIn → DigIn) : (s.modDin n f).free = s.free := rfl

/-! ## Converters -/

@[simp] theorem State.modAdc_pending (n : IslandNo) (f : Adc → Adc) : (s.modAdc n f).pending = s.pending := rfl
@[simp] theorem State.modAdc_due (n : IslandNo) (f : Adc → Adc) : (s.modAdc n f).due = s.due := rfl
@[simp] theorem State.modAdc_transit (n : IslandNo) (f : Adc → Adc) : (s.modAdc n f).transit = s.transit := rfl
@[simp] theorem State.modAdc_member (n : IslandNo) (f : Adc → Adc) : (s.modAdc n f).member = s.member := rfl
@[simp] theorem State.modAdc_tick (n : IslandNo) (f : Adc → Adc) : (s.modAdc n f).tick = s.tick := rfl
@[simp] theorem State.modAdc_part (n : IslandNo) (f : Adc → Adc) : (s.modAdc n f).part = s.part := rfl
@[simp] theorem State.modAdc_snapHi (n : IslandNo) (f : Adc → Adc) : (s.modAdc n f).snapHi = s.snapHi := rfl
@[simp] theorem State.modAdc_rate (n : IslandNo) (f : Adc → Adc) : (s.modAdc n f).rate = s.rate := rfl
@[simp] theorem State.modAdc_cfg (n : IslandNo) (f : Adc → Adc) : (s.modAdc n f).cfg = s.cfg := rfl
@[simp] theorem State.modAdc_busy (n : IslandNo) (f : Adc → Adc) : (s.modAdc n f).busy = s.busy := rfl
@[simp] theorem State.modAdc_busyOut (n : IslandNo) (f : Adc → Adc) : (s.modAdc n f).busyOut = s.busyOut := rfl
@[simp] theorem State.modAdc_busySeen (n : IslandNo) (f : Adc → Adc) : (s.modAdc n f).busySeen = s.busySeen := rfl
@[simp] theorem State.modAdc_rsvOut (n : IslandNo) (f : Adc → Adc) : (s.modAdc n f).rsvOut = s.rsvOut := rfl
@[simp] theorem State.modAdc_rsvSeen (n : IslandNo) (f : Adc → Adc) : (s.modAdc n f).rsvSeen = s.rsvSeen := rfl
@[simp] theorem State.modAdc_ledq (n : IslandNo) (f : Adc → Adc) : (s.modAdc n f).ledq = s.ledq := rfl
@[simp] theorem State.modAdc_clampLink (n : IslandNo) (f : Adc → Adc) : (s.modAdc n f).clampLink = s.clampLink := rfl
@[simp] theorem State.modAdc_clampT (n : IslandNo) (f : Adc → Adc) : (s.modAdc n f).clampT = s.clampT := rfl
@[simp] theorem State.modAdc_clampSlate (n : IslandNo) (f : Adc → Adc) : (s.modAdc n f).clampSlate = s.clampSlate := rfl
@[simp] theorem State.modAdc_clampDma (n : IslandNo) (f : Adc → Adc) : (s.modAdc n f).clampDma = s.clampDma := rfl
@[simp] theorem State.modAdc_link (n : IslandNo) (f : Adc → Adc) : (s.modAdc n f).link = s.link := rfl
@[simp] theorem State.modAdc_slate (n : IslandNo) (f : Adc → Adc) : (s.modAdc n f).slate = s.slate := rfl
@[simp] theorem State.modAdc_evt (n : IslandNo) (f : Adc → Adc) : (s.modAdc n f).evt = s.evt := rfl
@[simp] theorem State.modAdc_dma (n : IslandNo) (f : Adc → Adc) : (s.modAdc n f).dma = s.dma := rfl
@[simp] theorem State.modAdc_moved (n : IslandNo) (f : Adc → Adc) : (s.modAdc n f).moved = s.moved := rfl
@[simp] theorem State.modAdc_appendAt (n : IslandNo) (f : Adc → Adc) : (s.modAdc n f).appendAt = s.appendAt := rfl
@[simp] theorem State.modAdc_nvmRd (n : IslandNo) (f : Adc → Adc) : (s.modAdc n f).nvmRd = s.nvmRd := rfl
@[simp] theorem State.modAdc_facet (n : IslandNo) (f : Adc → Adc) : (s.modAdc n f).facet = s.facet := rfl
@[simp] theorem State.modAdc_flint (n : IslandNo) (f : Adc → Adc) : (s.modAdc n f).flint = s.flint := rfl
@[simp] theorem State.modAdc_safe (n : IslandNo) (f : Adc → Adc) : (s.modAdc n f).safe = s.safe := rfl
@[simp] theorem State.modAdc_fault (n : IslandNo) (f : Adc → Adc) : (s.modAdc n f).fault = s.fault := rfl
@[simp] theorem State.modAdc_nvm (n : IslandNo) (f : Adc → Adc) : (s.modAdc n f).nvm = s.nvm := rfl
@[simp] theorem State.modAdc_tan (n : IslandNo) (f : Adc → Adc) : (s.modAdc n f).tan = s.tan := rfl
@[simp] theorem State.modAdc_pow (n : IslandNo) (f : Adc → Adc) : (s.modAdc n f).pow = s.pow := rfl
@[simp] theorem State.modAdc_mem (n : IslandNo) (f : Adc → Adc) : (s.modAdc n f).mem = s.mem := rfl
@[simp] theorem State.modAdc_free (n : IslandNo) (f : Adc → Adc) : (s.modAdc n f).free = s.free := rfl

/-! ## Loopbacks -/

@[simp] theorem State.modLoop_pending (n : IslandNo) (f : Loopback → Loopback) : (s.modLoop n f).pending = s.pending := rfl
@[simp] theorem State.modLoop_due (n : IslandNo) (f : Loopback → Loopback) : (s.modLoop n f).due = s.due := rfl
@[simp] theorem State.modLoop_transit (n : IslandNo) (f : Loopback → Loopback) : (s.modLoop n f).transit = s.transit := rfl
@[simp] theorem State.modLoop_member (n : IslandNo) (f : Loopback → Loopback) : (s.modLoop n f).member = s.member := rfl
@[simp] theorem State.modLoop_tick (n : IslandNo) (f : Loopback → Loopback) : (s.modLoop n f).tick = s.tick := rfl
@[simp] theorem State.modLoop_part (n : IslandNo) (f : Loopback → Loopback) : (s.modLoop n f).part = s.part := rfl
@[simp] theorem State.modLoop_snapHi (n : IslandNo) (f : Loopback → Loopback) : (s.modLoop n f).snapHi = s.snapHi := rfl
@[simp] theorem State.modLoop_rate (n : IslandNo) (f : Loopback → Loopback) : (s.modLoop n f).rate = s.rate := rfl
@[simp] theorem State.modLoop_cfg (n : IslandNo) (f : Loopback → Loopback) : (s.modLoop n f).cfg = s.cfg := rfl
@[simp] theorem State.modLoop_busy (n : IslandNo) (f : Loopback → Loopback) : (s.modLoop n f).busy = s.busy := rfl
@[simp] theorem State.modLoop_busyOut (n : IslandNo) (f : Loopback → Loopback) : (s.modLoop n f).busyOut = s.busyOut := rfl
@[simp] theorem State.modLoop_busySeen (n : IslandNo) (f : Loopback → Loopback) : (s.modLoop n f).busySeen = s.busySeen := rfl
@[simp] theorem State.modLoop_rsvOut (n : IslandNo) (f : Loopback → Loopback) : (s.modLoop n f).rsvOut = s.rsvOut := rfl
@[simp] theorem State.modLoop_rsvSeen (n : IslandNo) (f : Loopback → Loopback) : (s.modLoop n f).rsvSeen = s.rsvSeen := rfl
@[simp] theorem State.modLoop_ledq (n : IslandNo) (f : Loopback → Loopback) : (s.modLoop n f).ledq = s.ledq := rfl
@[simp] theorem State.modLoop_clampLink (n : IslandNo) (f : Loopback → Loopback) : (s.modLoop n f).clampLink = s.clampLink := rfl
@[simp] theorem State.modLoop_clampT (n : IslandNo) (f : Loopback → Loopback) : (s.modLoop n f).clampT = s.clampT := rfl
@[simp] theorem State.modLoop_clampSlate (n : IslandNo) (f : Loopback → Loopback) : (s.modLoop n f).clampSlate = s.clampSlate := rfl
@[simp] theorem State.modLoop_clampDma (n : IslandNo) (f : Loopback → Loopback) : (s.modLoop n f).clampDma = s.clampDma := rfl
@[simp] theorem State.modLoop_link (n : IslandNo) (f : Loopback → Loopback) : (s.modLoop n f).link = s.link := rfl
@[simp] theorem State.modLoop_slate (n : IslandNo) (f : Loopback → Loopback) : (s.modLoop n f).slate = s.slate := rfl
@[simp] theorem State.modLoop_evt (n : IslandNo) (f : Loopback → Loopback) : (s.modLoop n f).evt = s.evt := rfl
@[simp] theorem State.modLoop_dma (n : IslandNo) (f : Loopback → Loopback) : (s.modLoop n f).dma = s.dma := rfl
@[simp] theorem State.modLoop_moved (n : IslandNo) (f : Loopback → Loopback) : (s.modLoop n f).moved = s.moved := rfl
@[simp] theorem State.modLoop_appendAt (n : IslandNo) (f : Loopback → Loopback) : (s.modLoop n f).appendAt = s.appendAt := rfl
@[simp] theorem State.modLoop_nvmRd (n : IslandNo) (f : Loopback → Loopback) : (s.modLoop n f).nvmRd = s.nvmRd := rfl
@[simp] theorem State.modLoop_facet (n : IslandNo) (f : Loopback → Loopback) : (s.modLoop n f).facet = s.facet := rfl
@[simp] theorem State.modLoop_flint (n : IslandNo) (f : Loopback → Loopback) : (s.modLoop n f).flint = s.flint := rfl
@[simp] theorem State.modLoop_safe (n : IslandNo) (f : Loopback → Loopback) : (s.modLoop n f).safe = s.safe := rfl
@[simp] theorem State.modLoop_fault (n : IslandNo) (f : Loopback → Loopback) : (s.modLoop n f).fault = s.fault := rfl
@[simp] theorem State.modLoop_nvm (n : IslandNo) (f : Loopback → Loopback) : (s.modLoop n f).nvm = s.nvm := rfl
@[simp] theorem State.modLoop_tan (n : IslandNo) (f : Loopback → Loopback) : (s.modLoop n f).tan = s.tan := rfl
@[simp] theorem State.modLoop_pow (n : IslandNo) (f : Loopback → Loopback) : (s.modLoop n f).pow = s.pow := rfl
@[simp] theorem State.modLoop_mem (n : IslandNo) (f : Loopback → Loopback) : (s.modLoop n f).mem = s.mem := rfl
@[simp] theorem State.modLoop_free (n : IslandNo) (f : Loopback → Loopback) : (s.modLoop n f).free = s.free := rfl

/-! ## The tandem interface -/

@[simp] theorem State.modTan_pending (f : Tandem → Tandem) : (s.modTan f).pending = s.pending := rfl
@[simp] theorem State.modTan_due (f : Tandem → Tandem) : (s.modTan f).due = s.due := rfl
@[simp] theorem State.modTan_transit (f : Tandem → Tandem) : (s.modTan f).transit = s.transit := rfl
@[simp] theorem State.modTan_member (f : Tandem → Tandem) : (s.modTan f).member = s.member := rfl
@[simp] theorem State.modTan_tick (f : Tandem → Tandem) : (s.modTan f).tick = s.tick := rfl
@[simp] theorem State.modTan_part (f : Tandem → Tandem) : (s.modTan f).part = s.part := rfl
@[simp] theorem State.modTan_snapHi (f : Tandem → Tandem) : (s.modTan f).snapHi = s.snapHi := rfl
@[simp] theorem State.modTan_rate (f : Tandem → Tandem) : (s.modTan f).rate = s.rate := rfl
@[simp] theorem State.modTan_cfg (f : Tandem → Tandem) : (s.modTan f).cfg = s.cfg := rfl
@[simp] theorem State.modTan_isl (f : Tandem → Tandem) : (s.modTan f).isl = s.isl := rfl
@[simp] theorem State.modTan_busy (f : Tandem → Tandem) : (s.modTan f).busy = s.busy := rfl
@[simp] theorem State.modTan_busyOut (f : Tandem → Tandem) : (s.modTan f).busyOut = s.busyOut := rfl
@[simp] theorem State.modTan_busySeen (f : Tandem → Tandem) : (s.modTan f).busySeen = s.busySeen := rfl
@[simp] theorem State.modTan_rsvOut (f : Tandem → Tandem) : (s.modTan f).rsvOut = s.rsvOut := rfl
@[simp] theorem State.modTan_rsvSeen (f : Tandem → Tandem) : (s.modTan f).rsvSeen = s.rsvSeen := rfl
@[simp] theorem State.modTan_ledq (f : Tandem → Tandem) : (s.modTan f).ledq = s.ledq := rfl
@[simp] theorem State.modTan_clampLink (f : Tandem → Tandem) : (s.modTan f).clampLink = s.clampLink := rfl
@[simp] theorem State.modTan_clampT (f : Tandem → Tandem) : (s.modTan f).clampT = s.clampT := rfl
@[simp] theorem State.modTan_clampSlate (f : Tandem → Tandem) : (s.modTan f).clampSlate = s.clampSlate := rfl
@[simp] theorem State.modTan_clampDma (f : Tandem → Tandem) : (s.modTan f).clampDma = s.clampDma := rfl
@[simp] theorem State.modTan_link (f : Tandem → Tandem) : (s.modTan f).link = s.link := rfl
@[simp] theorem State.modTan_slate (f : Tandem → Tandem) : (s.modTan f).slate = s.slate := rfl
@[simp] theorem State.modTan_evt (f : Tandem → Tandem) : (s.modTan f).evt = s.evt := rfl
@[simp] theorem State.modTan_dma (f : Tandem → Tandem) : (s.modTan f).dma = s.dma := rfl
@[simp] theorem State.modTan_moved (f : Tandem → Tandem) : (s.modTan f).moved = s.moved := rfl
@[simp] theorem State.modTan_appendAt (f : Tandem → Tandem) : (s.modTan f).appendAt = s.appendAt := rfl
@[simp] theorem State.modTan_nvmRd (f : Tandem → Tandem) : (s.modTan f).nvmRd = s.nvmRd := rfl
@[simp] theorem State.modTan_facet (f : Tandem → Tandem) : (s.modTan f).facet = s.facet := rfl
@[simp] theorem State.modTan_flint (f : Tandem → Tandem) : (s.modTan f).flint = s.flint := rfl
@[simp] theorem State.modTan_safe (f : Tandem → Tandem) : (s.modTan f).safe = s.safe := rfl
@[simp] theorem State.modTan_fault (f : Tandem → Tandem) : (s.modTan f).fault = s.fault := rfl
@[simp] theorem State.modTan_nvm (f : Tandem → Tandem) : (s.modTan f).nvm = s.nvm := rfl
@[simp] theorem State.modTan_pow (f : Tandem → Tandem) : (s.modTan f).pow = s.pow := rfl
@[simp] theorem State.modTan_mem (f : Tandem → Tandem) : (s.modTan f).mem = s.mem := rfl
@[simp] theorem State.modTan_free (f : Tandem → Tandem) : (s.modTan f).free = s.free := rfl

/-! ## The field that is written -/

@[simp] theorem State.modIsl_at (n : IslandNo) (f : Island → Island) : (s.modIsl n f).isl[n.val] = f s.isl[n.val] := by
  simp [State.modIsl]

theorem State.modIsl_same (n : IslandNo) (f : Island → Island) : (s.modIsl n f).isl[n] = f s.isl[n] := by simp [State.modIsl]

theorem State.modIsl_other (n m : IslandNo) (f : Island → Island) (h : m ≠ n) : (s.modIsl n f).isl[m] = s.isl[m] := by
  have : n.val ≠ m.val := fun e => h (Fin.ext e.symm)
  simp [State.modIsl, this]

@[simp] theorem State.modCtx_at (t : CtxNo) (f : Ctx → Ctx) : (s.modCtx t f).facet.ctx[t.val] = f s.facet.ctx[t.val] := by
  simp [State.modCtx]

theorem State.modCtx_same (t : CtxNo) (f : Ctx → Ctx) : (s.modCtx t f).facet.ctx[t] = f s.facet.ctx[t] := by simp [State.modCtx]

theorem State.modCtx_other (t u : CtxNo) (f : Ctx → Ctx) (h : u ≠ t) : (s.modCtx t f).facet.ctx[u] = s.facet.ctx[u] := by
  have : t.val ≠ u.val := fun e => h (Fin.ext e.symm)
  simp [State.modCtx, this]

@[simp] theorem State.modCtx_locks (t : CtxNo) (f : Ctx → Ctx) : (s.modCtx t f).facet.locks = s.facet.locks := rfl

@[simp] theorem State.modCh_at (c : ChNo) (f : Channel → Channel) : (s.modCh c f).dma[c.val] = f s.dma[c.val] := by
  simp [State.modCh]

theorem State.modCh_same (c : ChNo) (f : Channel → Channel) : (s.modCh c f).dma[c] = f s.dma[c] := by simp [State.modCh]

theorem State.modCh_other (c d : ChNo) (f : Channel → Channel) (h : d ≠ c) : (s.modCh c f).dma[d] = s.dma[d] := by
  have : c.val ≠ d.val := fun e => h (Fin.ext e.symm)
  simp [State.modCh, this]

@[simp] theorem State.modLock_at (k : Fin 64) (f : Lock → Lock) : (s.modLock k f).facet.locks[k.val] = f s.facet.locks[k.val] := by
  simp [State.modLock]

theorem State.modLock_same (k : Fin 64) (f : Lock → Lock) : (s.modLock k f).facet.locks[k] = f s.facet.locks[k] := by
  simp [State.modLock]

theorem State.modLock_other (k j : Fin 64) (f : Lock → Lock) (h : j ≠ k) : (s.modLock k f).facet.locks[j] = s.facet.locks[j] := by
  have : k.val ≠ j.val := fun e => h (Fin.ext e.symm)
  simp [State.modLock, this]

@[simp] theorem State.modLock_ctx (k : Fin 64) (f : Lock → Lock) : (s.modLock k f).facet.ctx = s.facet.ctx := rfl

@[simp] theorem State.freed_free : s.freed.free = s.free + 1 := rfl

/-- Two updates of one island are one. -/
theorem State.modIsl_modIsl (n : IslandNo) (f g : Island → Island) : (s.modIsl n f).modIsl n g = s.modIsl n (fun i => g (f i)) := by
  simp [State.modIsl]

/-- Two updates of one context are one. -/
theorem State.modCtx_modCtx (t : CtxNo) (f g : Ctx → Ctx) : (s.modCtx t f).modCtx t g = s.modCtx t (fun c => g (f c)) := by
  simp [State.modCtx]

/-- What is sent is in flight. -/
theorem State.sendLane_transit (k : Nat) (x : Transit) :
    (s.sendLane k x).transit = s.transit ++ [(s.tick + BitVec.ofNat 64 k, x)] := rfl

/-- A cancelled command is owed no longer. -/
theorem State.cancel_due (c : Instr) (e : Tick × Instr) : e ∈ (s.cancel c).due ↔ e ∈ s.due ∧ e.2 ≠ c := by
  simp [State.cancel]

end Sys2Proof.Machine
end

