-- ==== Sys2Proof/Laws/Facet.lean ====
section
/-! SUPPORT. The shared operations of Facet instructions: issue, results, branches, exceptions, register fields. -/

namespace Sys2Proof.Machine

/-- A context that can issue does: its PC and its count go on, then the instruction acts. -/
theorem State.issue_of_canIssue {s : State} {t : CtxNo} {f : State → State} (h : s.canIssue t = true) :
    s.issue t f = f (s.modCtx t (fun c => { c with pc := c.pc + 4, cnt := c.cnt + 1 })) := by
  simp [State.issue, h, State.stepPc]

/-- A context that cannot issue executes nothing. -/
theorem State.issue_of_not {s : State} {t : CtxNo} {f : State → State} (h : s.canIssue t = false) : s.issue t f = s := by
  simp [State.issue, h]

/-- An instruction that computes a register value does that and no more. -/
theorem State.alu_of_canIssue {s : State} {t : CtxNo} {rd : RegNo} {v : Word} (h : s.canIssue t = true) :
    s.alu t rd v = s.computes t rd v := by
  simp [State.alu, State.issue_of_canIssue h, State.setReg, State.computes, State.modCtx]

/-- The step to the next word is the branch to it. -/
theorem State.goesTo_next (s : State) (t : CtxNo) :
    s.goesTo t (s.pcOf t + 4) = s.modCtx t (fun c => { c with pc := c.pc + 4, cnt := c.cnt + 1 }) := rfl

/-- g0 reads 0 (R233). -/
@[simp] theorem Ctx.get_zero (c : Ctx) : c.get 0 = 0 := rfl

/-- Writes to g0 are discarded (R233). -/
@[simp] theorem Ctx.put_zero (c : Ctx) (v : Word) : c.put 0 v = c := rfl

/-- A register written reads back, and every other one as before. -/
theorem Ctx.get_put (c : Ctx) (r q : RegNo) (v : Word) (h : r ≠ 0) : (c.put r v).get q = if q = r then v else c.get q := by
  unfold Ctx.put Ctx.get
  simp only [h, if_false]
  by_cases hq : q = r
  · subst hq; simp [h]
  · have : r.val ≠ q.val := fun e => hq (Fin.ext e.symm)
    simp [hq, this]

/-- A register write changes the registers alone. -/
theorem Ctx.put_eq (c : Ctx) (r : RegNo) (v : Word) : c.put r v = { c with regs := (c.put r v).regs } := by
  unfold Ctx.put; split <;> rfl

/-- A register write keeps the cell behind g0. -/
theorem Ctx.put_g0 (c : Ctx) (r : RegNo) (v : Word) : (c.put r v).regs[(0 : RegNo)] = c.regs[(0 : RegNo)] := by
  unfold Ctx.put
  split
  · rfl
  · rename_i h
    have : r.val ≠ 0 := fun e => h (Fin.ext e)
    simp [this]

/-- The step to the next word leaves every register. -/
theorem State.greg_step (s : State) (t u : CtxNo) (r : RegNo) :
    (s.modCtx t (fun c => { c with pc := c.pc + 4, cnt := c.cnt + 1 })).greg u r = s.greg u r := by
  by_cases h : u = t
  · subst h; simp [State.greg, Ctx.get]
  · simp only [State.greg]
    rw [State.modCtx_other s t u _ h]

/-- An exception changes the context, the collector and the calendar alone (R219). -/
theorem State.exception_eq (s : State) (t : CtxNo) (e : Exc) (typ : BitVec 4) (a : Word) :
    ∃ d f, s.exception t e typ a =
      { s.modCtx t (fun c => { c with st := .faulted, cause := e.code, pc := c.pc - 4 }) with due := d, fault := f } := by
  unfold State.exception
  cases e.acc with
  | none => exact State.raiseBy_eq ..
  | some x =>
    simp only
    obtain ⟨d, f, h⟩ := State.accFault_eq (s.modCtx t (fun c => { c with st := .faulted, cause := e.code, pc := c.pc - 4 })) x (.thread t) typ a.toNat
    rw [h]
    obtain ⟨d', f', h'⟩ := State.raiseBy_eq
      { (s.modCtx t (fun c => { c with st := .faulted, cause := e.code, pc := c.pc - 4 })) with due := d, fault := f } 0x18 (.thread t) typ 0 a
    exact ⟨d', f', h'⟩

/-- The boot ROM lies at 0x3F00_0000 (R218). -/
theorem regionOf_rom {m : Member} {a : Nat} (h : regionOf m a = .rom) : 0x3F000000 ≤ a ∧ a < 0x3F008000 := by
  unfold regionOf at h
  repeat' split at h
  all_goals first | assumption | cases h

end Sys2Proof.Machine
end

