-- ==== Sys2Proof/WellFormed.lean ====
section
/-! DEFINITION. Well-formed commands: a frame row carries a payload of a length its type allows (R70, R332), a header row is a
word, and every other row's operands are bounded by their types. -/

namespace Sys2Proof

/-- The payload a frame row carries; none for the other rows. -/
def Instr.payload : Instr → List Word
  | .cycle p _ => p
  | .regw p _ => p
  | .regr p _ => p
  | .bulk p _ => p
  | .ctrlNop p _ => p
  | .linkReset p _ => p
  | .ctrlRetrain p _ => p
  | .resendReads p _ => p
  | .flushReads p _ => p
  | .ctrlLoop p _ => p
  | .idleFrame p _ => p
  | .record p _ => p
  | .beacon p _ => p
  | .take p _ => p
  | .ack p _ => p
  | .release p _ => p
  | _ => []

/-- A number lies in a range, both ends counted. -/
def within (lo hi n : Nat) : Bool := decide (lo ≤ n) && decide (n ≤ hi)

/-- The command is well formed. Frame lengths are those of R70 and R332. -/
def Instr.wellFormed : Instr → Bool
  | .cycle p _ => within 24 24 p.length
  | .regw p _ => within 2 257 p.length
  | .regr p _ => within 1 64 p.length
  | .bulk p _ => within 2 1025 p.length
  | .ctrlNop p _ => within 1 2 p.length
  | .linkReset p _ => within 1 2 p.length
  | .ctrlRetrain p _ => within 1 2 p.length
  | .resendReads p _ => within 1 2 p.length
  | .flushReads p _ => within 1 2 p.length
  | .ctrlLoop p _ => within 1 2 p.length
  | .idleFrame p _ => within 0 1024 p.length
  | .record p _ => within 40 40 p.length
  | .beacon p _ => within 1 1 p.length
  | .take p _ => within 0 0 p.length
  | .ack p _ => within 1 1 p.length
  | .release p _ => within 1 1 p.length
  | _ => true

end Sys2Proof
end

