-- ==== Sys2Proof/Laws/PerInstr.lean ====
section
/-! SUPPORT. Statements about commands as data, one lemma per constructor: a well-formed command carries at most as many payload words
as the longest frame of R70 has.
-/

namespace Sys2Proof.Laws.Payload

/-- The payload of a well-formed command fits the longest frame, a BULK of 1025 words (R70, R332). -/
def Statement (i : Instr) : Prop := i.wellFormed = true → i.payload.length ≤ 1025

/-- A payload within a frame type's range is within the longest frame. -/
theorem within_le {lo hi n : Nat} (h : within lo hi n = true) (hh : hi ≤ 1025) : n ≤ 1025 := by
  simp only [within, Bool.and_eq_true, decide_eq_true_eq] at h; omega

/-- A command without a payload. -/
theorem of_none {i : Instr} (h : i.payload = []) : Statement i := fun _ => by rw [h]; exact Nat.zero_le _

theorem hckStop : Statement (.hckStop) := of_none rfl
theorem hckResume : Statement (.hckResume) := of_none rfl
theorem tickLoRead (m : Master) : Statement (.tickLoRead m) := of_none rfl
theorem registerWrite (m : Master) (addr val : Word) : Statement (.registerWrite m addr val) := of_none rfl
theorem outword (n : IslandNo) (w : Word) : Statement (.outword n w) := of_none rfl
theorem raddr (n : IslandNo) (a : Word) : Statement (.raddr n a) := of_none rfl
theorem waddr (n : IslandNo) (a : Word) : Statement (.waddr n a) := of_none rfl
theorem wdata (n : IslandNo) (w : Word) : Statement (.wdata n w) := of_none rfl
theorem rung (n : IslandNo) (r : Rungs) : Statement (.rung n r) := of_none rfl
theorem rungSwitchDone (n : IslandNo) : Statement (.rungSwitchDone n) := of_none rfl
theorem rungAct (n : IslandNo) : Statement (.rungAct n) := of_none rfl
theorem cmdPrep (n : IslandNo) : Statement (.cmdPrep n) := of_none rfl
theorem cmdApply (n : IslandNo) : Statement (.cmdApply n) := of_none rfl
theorem cmdShadow (n : IslandNo) : Statement (.cmdShadow n) := of_none rfl
theorem cmdUnshadow (n : IslandNo) : Statement (.cmdUnshadow n) := of_none rfl
theorem cmdEcho (n : IslandNo) (w : Word) : Statement (.cmdEcho n w) := of_none rfl
theorem channelFaultCell (n : IslandNo) : Statement (.channelFaultCell n) := of_none rfl
theorem clearCell (n : IslandNo) : Statement (.clearCell n) := of_none rfl
theorem outputCommand (n : IslandNo) (m : Master) (w : Word) : Statement (.outputCommand n m w) := of_none rfl
theorem hartDown (n : IslandNo) (b : Byte) (last : Bool) : Statement (.hartDown n b last) := of_none rfl
theorem sync (n : IslandNo) (d : Dir) (seq : BitVec 2) : Statement (.sync n d seq) := of_none rfl
theorem rdata (n : IslandNo) (w : Word) : Statement (.rdata n w) := of_none rfl
theorem resultCell (n : IslandNo) (w : Word) : Statement (.resultCell n w) := of_none rfl
theorem statusCell (n : IslandNo) (msg : StatusMsg) : Statement (.statusCell n msg) := of_none rfl
theorem hartUp (n : IslandNo) (b : Byte) (start perr : Bool) : Statement (.hartUp n b start perr) := of_none rfl
theorem fatal (n : IslandNo) : Statement (.fatal n) := of_none rfl
theorem cellRetransmit (n : IslandNo) (d : Dir) : Statement (.cellRetransmit n d) := of_none rfl
theorem symbolTimeout (n : IslandNo) : Statement (.symbolTimeout n) := of_none rfl
theorem couplerFault (n : IslandNo) : Statement (.couplerFault n) := of_none rfl
theorem firstSymbolTimeout (n : IslandNo) : Statement (.firstSymbolTimeout n) := of_none rfl
theorem grainRelease (n : IslandNo) : Statement (.grainRelease n) := of_none rfl
theorem killMarkDetect (n : IslandNo) : Statement (.killMarkDetect n) := of_none rfl
theorem safeMarkDetect (n : IslandNo) : Statement (.safeMarkDetect n) := of_none rfl
theorem carrierLoss (n : IslandNo) : Statement (.carrierLoss n) := of_none rfl
theorem cvBelow6v (n : IslandNo) : Statement (.cvBelow6v n) := of_none rfl
theorem reservoirOk (n : IslandNo) : Statement (.reservoirOk n) := of_none rfl
theorem chargeComplete (n : IslandNo) : Statement (.chargeComplete n) := of_none rfl
theorem firstSymbol (n : IslandNo) (lvl : TermLevel) : Statement (.firstSymbol n lvl) := of_none rfl
theorem ledgerWrite (m : Master) (n : IslandNo) (w : Word) : Statement (.ledgerWrite m n w) := of_none rfl
theorem readmit (m : Master) : Statement (.readmit m) := of_none rfl
theorem admissionComplete : Statement (.admissionComplete) := of_none rfl
theorem powerWindowEnd (n : IslandNo) (gr100 : Nat) : Statement (.powerWindowEnd n gr100) := of_none rfl
theorem islandPowerWrite (m : Master) (w : Word) : Statement (.islandPowerWrite m w) := of_none rfl
theorem tpLock : Statement (.tpLock) := of_none rfl
theorem eyeFound (tap0 tap1 : BitVec 4) : Statement (.eyeFound tap0 tap1) := of_none rfl
theorem trainingLost : Statement (.trainingLost) := of_none rfl
theorem echoIdle : Statement (.echoIdle) := of_none rfl
theorem frameHeader (hdr : Word) (idle : Nat) : Statement (.frameHeader hdr idle) := of_none rfl
theorem cycle (payload : List Word) (crc : Word) : Statement (.cycle payload crc) := fun h => within_le h (by decide)
theorem regw (payload : List Word) (crc : Word) : Statement (.regw payload crc) := fun h => within_le h (by decide)
theorem regr (payload : List Word) (crc : Word) : Statement (.regr payload crc) := fun h => within_le h (by decide)
theorem bulk (payload : List Word) (crc : Word) : Statement (.bulk payload crc) := fun h => within_le h (by decide)
theorem commandExecute : Statement (.commandExecute) := of_none rfl
theorem ctrlNop (payload : List Word) (crc : Word) : Statement (.ctrlNop payload crc) := fun h => within_le h (by decide)
theorem linkReset (payload : List Word) (crc : Word) : Statement (.linkReset payload crc) := fun h => within_le h (by decide)
theorem ctrlRetrain (payload : List Word) (crc : Word) : Statement (.ctrlRetrain payload crc) := fun h => within_le h (by decide)
theorem resendReads (payload : List Word) (crc : Word) : Statement (.resendReads payload crc) := fun h => within_le h (by decide)
theorem flushReads (payload : List Word) (crc : Word) : Statement (.flushReads payload crc) := fun h => within_le h (by decide)
theorem ctrlLoop (payload : List Word) (crc : Word) : Statement (.ctrlLoop payload crc) := fun h => within_le h (by decide)
theorem idleFrame (payload : List Word) (crc : Word) : Statement (.idleFrame payload crc) := fun h => within_le h (by decide)
theorem linkCtrlRetrain (m : Master) : Statement (.linkCtrlRetrain m) := of_none rfl
theorem retrainApply : Statement (.retrainApply) := of_none rfl
theorem loopApply : Statement (.loopApply) := of_none rfl
theorem csEarlyRise (afterCrc : Bool) : Statement (.csEarlyRise afterCrc) := of_none rfl
theorem slateOpen (m : Master) : Statement (.slateOpen m) := of_none rfl
theorem slateLoadNvm (m : Master) : Statement (.slateLoadNvm m) := of_none rfl
theorem nvmLoadComplete (readOk : Bool) : Statement (.nvmLoadComplete readOk) := of_none rfl
theorem slateLoad (m : Master) (w : Word) : Statement (.slateLoad m w) := of_none rfl
theorem slateVerify (m : Master) : Statement (.slateVerify m) := of_none rfl
theorem verifyComplete : Statement (.verifyComplete) := of_none rfl
theorem slateCommit (m : Master) : Statement (.slateCommit m) := of_none rfl
theorem commitSwitch : Statement (.commitSwitch) := of_none rfl
theorem fullPass : Statement (.fullPass) := of_none rfl
theorem commitComplete : Statement (.commitComplete) := of_none rfl
theorem slateAbort (m : Master) : Statement (.slateAbort m) := of_none rfl
theorem holdclr (m : Master) (w : Word) : Statement (.holdclr m w) := of_none rfl
theorem keyProgram (m : Master) (k : Fin 8) : Statement (.keyProgram m k) := of_none rfl
theorem keyRevoke (m : Master) (k : Fin 8) : Statement (.keyRevoke m k) := of_none rfl
theorem setAuthReq (m : Master) : Statement (.setAuthReq m) := of_none rfl
theorem keyEraseAll (m : Master) : Statement (.keyEraseAll m) := of_none rfl
theorem inputTransition (n : IslandNo) (raw : TermLevel) : Statement (.inputTransition n raw) := of_none rfl
theorem qualifiedEdge (n : IslandNo) : Statement (.qualifiedEdge n) := of_none rfl
theorem longHold (n : IslandNo) : Statement (.longHold n) := of_none rfl
theorem wireBreak (n : IslandNo) : Statement (.wireBreak n) := of_none rfl
theorem breakClear (n : IslandNo) : Statement (.breakClear n) := of_none rfl
theorem currUpdate (n : IslandNo) (tenMicroamps : Nat) : Statement (.currUpdate n tenMicroamps) := of_none rfl
theorem cntWrite (n : IslandNo) (w : Word) : Statement (.cntWrite n w) := of_none rfl
theorem gateEnd (n : IslandNo) : Statement (.gateEnd n) := of_none rfl
theorem sensOvl (n : IslandNo) : Statement (.sensOvl n) := of_none rfl
theorem vfLow (n : IslandNo) : Statement (.vfLow n) := of_none rfl
theorem vfLowClear (n : IslandNo) : Statement (.vfLowClear n) := of_none rfl
theorem pwmPeriodStart (n : IslandNo) : Statement (.pwmPeriodStart n) := of_none rfl
theorem pwmPhaseEnd (n : IslandNo) : Statement (.pwmPhaseEnd n) := of_none rfl
theorem inrushEnd (n : IslandNo) : Statement (.inrushEnd n) := of_none rfl
theorem shortLatch (n : IslandNo) : Statement (.shortLatch n) := of_none rfl
theorem overloadLatch (n : IslandNo) : Statement (.overloadLatch n) := of_none rfl
theorem switchOvertemp (n : IslandNo) : Statement (.switchOvertemp n) := of_none rfl
theorem switchCooled (n : IslandNo) : Statement (.switchCooled n) := of_none rfl
theorem outputCheck (n : IslandNo) (c : LoadCheck) : Statement (.outputCheck n c) := of_none rfl
theorem diagClear (n : IslandNo) (w : Word) : Statement (.diagClear n w) := of_none rfl
theorem loopOvl (c : Supervision) : Statement (.loopOvl c) := of_none rfl
theorem aoOpen (c : Supervision) : Statement (.aoOpen c) := of_none rfl
theorem aoOvertemp (n : IslandNo) : Statement (.aoOvertemp n) := of_none rfl
theorem aoCooled (n : IslandNo) : Statement (.aoCooled n) := of_none rfl
theorem hcmdSend (n : IslandNo) (len : BitVec 9) : Statement (.hcmdSend n len) := of_none rfl
theorem hcmdAbort (n : IslandNo) : Statement (.hcmdAbort n) := of_none rfl
theorem hcmdListen (n : IslandNo) : Statement (.hcmdListen n) := of_none rfl
theorem hrawWrite (m : Master) (n : IslandNo) (b : Byte) (last : Bool) : Statement (.hrawWrite m n b last) := of_none rfl
theorem hrawrRead (m : Master) (n : IslandNo) : Statement (.hrawrRead m n) := of_none rfl
theorem hartCharEnd (n : IslandNo) : Statement (.hartCharEnd n) := of_none rfl
theorem hartCharRx (n : IslandNo) (b : Byte) (parityOk : Bool) : Statement (.hartCharRx n b parityOk) := of_none rfl
theorem hartRxEnd (n : IslandNo) : Statement (.hartRxEnd n) := of_none rfl
theorem hartTimeout (n : IslandNo) : Statement (.hartTimeout n) := of_none rfl
theorem carrierDetect (n : IslandNo) : Statement (.carrierDetect n) := of_none rfl
theorem conversionStart (n : IslandNo) : Statement (.conversionStart n) := of_none rfl
theorem conversionEnd (n : IslandNo) (code : BitVec 18) (ovr : OverRange) (tbOpen : Bool) : Statement (.conversionEnd n code ovr tbOpen) := of_none rfl
theorem resultWrite (n : IslandNo) : Statement (.resultWrite n) := of_none rfl
theorem roundStart (n : IslandNo) : Statement (.roundStart n) := of_none rfl
theorem calibrationStart (n : IslandNo) : Statement (.calibrationStart n) := of_none rfl
theorem adcConvert (n : IslandNo) (entry : BitVec 4) : Statement (.adcConvert n entry) := of_none rfl
theorem adcRtrig (n : IslandNo) : Statement (.adcRtrig n) := of_none rfl
theorem adcInject (n : IslandNo) : Statement (.adcInject n) := of_none rfl
theorem adcCal (n : IslandNo) : Statement (.adcCal n) := of_none rfl
theorem resultSlotRead (m : Master) (n : IslandNo) (slot : Fin 20) : Statement (.resultSlotRead m n slot) := of_none rfl
theorem add (t : CtxNo) (rd ra rb : RegNo) : Statement (.add t rd ra rb) := of_none rfl
theorem sub (t : CtxNo) (rd ra rb : RegNo) : Statement (.sub t rd ra rb) := of_none rfl
theorem and (t : CtxNo) (rd ra rb : RegNo) : Statement (.and t rd ra rb) := of_none rfl
theorem or (t : CtxNo) (rd ra rb : RegNo) : Statement (.or t rd ra rb) := of_none rfl
theorem xor (t : CtxNo) (rd ra rb : RegNo) : Statement (.xor t rd ra rb) := of_none rfl
theorem sll (t : CtxNo) (rd ra rb : RegNo) : Statement (.sll t rd ra rb) := of_none rfl
theorem srl (t : CtxNo) (rd ra rb : RegNo) : Statement (.srl t rd ra rb) := of_none rfl
theorem sra (t : CtxNo) (rd ra rb : RegNo) : Statement (.sra t rd ra rb) := of_none rfl
theorem slt (t : CtxNo) (rd ra rb : RegNo) : Statement (.slt t rd ra rb) := of_none rfl
theorem sltu (t : CtxNo) (rd ra rb : RegNo) : Statement (.sltu t rd ra rb) := of_none rfl
theorem mul (t : CtxNo) (rd ra rb : RegNo) : Statement (.mul t rd ra rb) := of_none rfl
theorem mulh (t : CtxNo) (rd ra rb : RegNo) : Statement (.mulh t rd ra rb) := of_none rfl
theorem div (t : CtxNo) (rd ra rb : RegNo) : Statement (.div t rd ra rb) := of_none rfl
theorem rem (t : CtxNo) (rd ra rb : RegNo) : Statement (.rem t rd ra rb) := of_none rfl
theorem min (t : CtxNo) (rd ra rb : RegNo) : Statement (.min t rd ra rb) := of_none rfl
theorem max (t : CtxNo) (rd ra rb : RegNo) : Statement (.max t rd ra rb) := of_none rfl
theorem addi (t : CtxNo) (rd ra : RegNo) (imm : BitVec 18) : Statement (.addi t rd ra imm) := of_none rfl
theorem andi (t : CtxNo) (rd ra : RegNo) (imm : BitVec 18) : Statement (.andi t rd ra imm) := of_none rfl
theorem ori (t : CtxNo) (rd ra : RegNo) (imm : BitVec 18) : Statement (.ori t rd ra imm) := of_none rfl
theorem xori (t : CtxNo) (rd ra : RegNo) (imm : BitVec 18) : Statement (.xori t rd ra imm) := of_none rfl
theorem slli (t : CtxNo) (rd ra : RegNo) (imm : BitVec 18) : Statement (.slli t rd ra imm) := of_none rfl
theorem srli (t : CtxNo) (rd ra : RegNo) (imm : BitVec 18) : Statement (.srli t rd ra imm) := of_none rfl
theorem srai (t : CtxNo) (rd ra : RegNo) (imm : BitVec 18) : Statement (.srai t rd ra imm) := of_none rfl
theorem slti (t : CtxNo) (rd ra : RegNo) (imm : BitVec 18) : Statement (.slti t rd ra imm) := of_none rfl
theorem sltiu (t : CtxNo) (rd ra : RegNo) (imm : BitVec 18) : Statement (.sltiu t rd ra imm) := of_none rfl
theorem ldw (t : CtxNo) (rd ra : RegNo) (imm : BitVec 18) : Statement (.ldw t rd ra imm) := of_none rfl
theorem ldh (t : CtxNo) (rd ra : RegNo) (imm : BitVec 18) : Statement (.ldh t rd ra imm) := of_none rfl
theorem ldhu (t : CtxNo) (rd ra : RegNo) (imm : BitVec 18) : Statement (.ldhu t rd ra imm) := of_none rfl
theorem ldb (t : CtxNo) (rd ra : RegNo) (imm : BitVec 18) : Statement (.ldb t rd ra imm) := of_none rfl
theorem ldbu (t : CtxNo) (rd ra : RegNo) (imm : BitVec 18) : Statement (.ldbu t rd ra imm) := of_none rfl
theorem stw (t : CtxNo) (ra rb : RegNo) (off : BitVec 18) : Statement (.stw t ra rb off) := of_none rfl
theorem sth (t : CtxNo) (ra rb : RegNo) (off : BitVec 18) : Statement (.sth t ra rb off) := of_none rfl
theorem stb (t : CtxNo) (ra rb : RegNo) (off : BitVec 18) : Statement (.stb t ra rb off) := of_none rfl
theorem beq (t : CtxNo) (ra rb : RegNo) (off : BitVec 18) : Statement (.beq t ra rb off) := of_none rfl
theorem bne (t : CtxNo) (ra rb : RegNo) (off : BitVec 18) : Statement (.bne t ra rb off) := of_none rfl
theorem blt (t : CtxNo) (ra rb : RegNo) (off : BitVec 18) : Statement (.blt t ra rb off) := of_none rfl
theorem bge (t : CtxNo) (ra rb : RegNo) (off : BitVec 18) : Statement (.bge t ra rb off) := of_none rfl
theorem bltu (t : CtxNo) (ra rb : RegNo) (off : BitVec 18) : Statement (.bltu t ra rb off) := of_none rfl
theorem bgeu (t : CtxNo) (ra rb : RegNo) (off : BitVec 18) : Statement (.bgeu t ra rb off) := of_none rfl
theorem jalr (t : CtxNo) (rd ra : RegNo) (imm : BitVec 18) : Statement (.jalr t rd ra imm) := of_none rfl
theorem jal (t : CtxNo) (rd : RegNo) (imm : BitVec 22) : Statement (.jal t rd imm) := of_none rfl
theorem lui (t : CtxNo) (rd : RegNo) (imm : BitVec 22) : Statement (.lui t rd imm) := of_none rfl
theorem fork (t : CtxNo) (rd ra rb : RegNo) (fn : BitVec 14) : Statement (.fork t rd ra rb fn) := of_none rfl
theorem childStart (t : CtxNo) : Statement (.childStart t) := of_none rfl
theorem join (t : CtxNo) (ra : RegNo) : Statement (.join t ra) := of_none rfl
theorem wfe (t : CtxNo) (rd ra : RegNo) : Statement (.wfe t rd ra) := of_none rfl
theorem wfeTimeout (t : CtxNo) : Statement (.wfeTimeout t) := of_none rfl
theorem watch (t : CtxNo) (imm : BitVec 18) : Statement (.watch t imm) := of_none rfl
theorem lock (t : CtxNo) (rd : RegNo) (imm : BitVec 18) : Statement (.lock t rd imm) := of_none rfl
theorem unlk (t : CtxNo) (rd : RegNo) (imm : BitVec 18) : Statement (.unlk t rd imm) := of_none rfl
theorem clrp (t : CtxNo) (rd : RegNo) (imm : BitVec 18) : Statement (.clrp t rd imm) := of_none rfl
theorem rdtk (t : CtxNo) (rd : RegNo) (imm : BitVec 18) : Statement (.rdtk t rd imm) := of_none rfl
theorem outc (t : CtxNo) (rd ra : RegNo) (imm : BitVec 18) : Statement (.outc t rd ra imm) := of_none rfl
theorem imgr (t : CtxNo) (rd : RegNo) (imm : BitVec 18) : Statement (.imgr t rd imm) := of_none rfl
theorem fence (t : CtxNo) (rd : RegNo) : Statement (.fence t rd) := of_none rfl
theorem fenceComplete (t : CtxNo) : Statement (.fenceComplete t) := of_none rfl
theorem islandLoadReturn (t : CtxNo) : Statement (.islandLoadReturn t) := of_none rfl
theorem multiSlotDone (t : CtxNo) : Statement (.multiSlotDone t) := of_none rfl
theorem islandQueueFree (n : IslandNo) : Statement (.islandQueueFree n) := of_none rfl
theorem launch (m : Master) (ctx : BitVec 4) : Statement (.launch m ctx) := of_none rfl
theorem kill (m : Master) (mask : BitVec 8) : Statement (.kill m mask) := of_none rfl
theorem lockForceRelease (m : Master) (k : Fin 64) : Statement (.lockForceRelease m k) := of_none rfl
theorem lockClearPoison (m : Master) (k : Fin 64) : Statement (.lockClearPoison m k) := of_none rfl
theorem harvestSlot : Statement (.harvestSlot) := of_none rfl
theorem eventPulse (line : BitVec 8) : Statement (.eventPulse line) := of_none rfl
theorem swWrite (m : Master) (w : Word) : Statement (.swWrite m w) := of_none rfl
theorem timerPulse (k : Fin 16) : Statement (.timerPulse k) := of_none rfl
theorem reflexFire (k : Fin 64) : Statement (.reflexFire k) := of_none rfl
theorem reflexRelease (k : Fin 64) : Statement (.reflexRelease k) := of_none rfl
theorem rfxclr (m : Master) (hi : Bool) (w : Word) : Statement (.rfxclr m hi w) := of_none rfl
theorem dmaStart (m : Master) (c : ChNo) : Statement (.dmaStart m c) := of_none rfl
theorem dmaStartTpl (m : Master) (c : ChNo) : Statement (.dmaStartTpl m c) := of_none rfl
theorem dmaDisable (m : Master) (c : ChNo) : Statement (.dmaDisable m c) := of_none rfl
theorem append (m : Master) (c : ChNo) (addr : Word) : Statement (.append m c addr) := of_none rfl
theorem tlinkWrite (m : Master) (c : ChNo) (w : Word) : Statement (.tlinkWrite m c w) := of_none rfl
theorem ocmdWrite (m : Master) (n : IslandNo) (w : Word) : Statement (.ocmdWrite m n w) := of_none rfl
theorem rstreamRead (m : Master) (n : IslandNo) : Statement (.rstreamRead m n) := of_none rfl
theorem descriptorFetched (c : ChNo) : Statement (.descriptorFetched c) := of_none rfl
theorem wordMove (c : ChNo) : Statement (.wordMove c) := of_none rfl
theorem autoStart (c : ChNo) : Statement (.autoStart c) := of_none rfl
theorem safeNAssert : Statement (.safeNAssert) := of_none rfl
theorem stillnessTrip : Statement (.stillnessTrip) := of_none rfl
theorem clrStill (m : Master) : Statement (.clrStill m) := of_none rfl
theorem clrSafen (m : Master) : Statement (.clrSafen m) := of_none rfl
theorem clrFreset (m : Master) : Statement (.clrFreset m) := of_none rfl
theorem safeCmdWrite (m : Master) (w : Word) : Statement (.safeCmdWrite m w) := of_none rfl
theorem kick (m : Master) (ch : FlintChan) (key : BitVec 16) : Statement (.kick m ch key) := of_none rfl
theorem qwWrite (m : Master) (ch : FlintChan) (q : BitVec 16) : Statement (.qwWrite m ch q) := of_none rfl
theorem windowClose (ch : FlintChan) : Statement (.windowClose ch) := of_none rfl
theorem flintReset : Statement (.flintReset) := of_none rfl
theorem bootBudget (m : Master) (budget : BitVec 16) (confirm : Bool) : Statement (.bootBudget m budget confirm) := of_none rfl
theorem bootConfirm (m : Master) : Statement (.bootConfirm m) := of_none rfl
theorem budgetExpiry : Statement (.budgetExpiry) := of_none rfl
theorem faultReaction : Statement (.faultReaction) := of_none rfl
theorem decide (m : Master) (dtag : Byte) (cls : BitVec 2) : Statement (.decide m dtag cls) := of_none rfl
theorem graceExpiry (dtag : Byte) : Statement (.graceExpiry dtag) := of_none rfl
theorem haltRecovery : Statement (.haltRecovery) := of_none rfl
theorem escalationLockout : Statement (.escalationLockout) := of_none rfl
theorem chclr (m : Master) (mask : BitVec 16) : Statement (.chclr m mask) := of_none rfl
theorem faultInject (m : Master) (src mid : Byte) : Statement (.faultInject m src mid) := of_none rfl
theorem hostHot : Statement (.hostHot) := of_none rfl
theorem islTherm (n : IslandNo) : Statement (.islTherm n) := of_none rfl
theorem nvmErase (m : Master) : Statement (.nvmErase m) := of_none rfl
theorem nvmProgram (m : Master) (units : BitVec 4) : Statement (.nvmProgram m units) := of_none rfl
theorem nvmAppend (m : Master) : Statement (.nvmAppend m) := of_none rfl
theorem markWritten (m : Master) (b : Bank) : Statement (.markWritten m b) := of_none rfl
theorem markTrial (m : Master) (b : Bank) : Statement (.markTrial m b) := of_none rfl
theorem markConfirmed (m : Master) (b : Bank) : Statement (.markConfirmed m b) := of_none rfl
theorem markRejected (m : Master) (b : Bank) : Statement (.markRejected m b) := of_none rfl
theorem nvmCompact (m : Master) : Statement (.nvmCompact m) := of_none rfl
theorem nvmAbortCmd (m : Master) : Statement (.nvmAbortCmd m) := of_none rfl
theorem nvmStep (m : Master) (ticks : Word) : Statement (.nvmStep m ticks) := of_none rfl
theorem sliceEnd (verified : Bool) : Statement (.sliceEnd verified) := of_none rfl
theorem scanDone : Statement (.scanDone) := of_none rfl
theorem intentRecovery : Statement (.intentRecovery) := of_none rfl
theorem counterIncrement : Statement (.counterIncrement) := of_none rfl
theorem bootStart : Statement (.bootStart) := of_none rfl
theorem tandemLock (tpl : Bool) : Statement (.tandemLock tpl) := of_none rfl
theorem tandemReady : Statement (.tandemReady) := of_none rfl
theorem beaconSend : Statement (.beaconSend) := of_none rfl
theorem tandemLinkLoss : Statement (.tandemLinkLoss) := of_none rfl
theorem record (payload : List Word) (crc : Word) : Statement (.record payload crc) := fun h => within_le h (by decide)
theorem beacon (payload : List Word) (crc : Word) : Statement (.beacon payload crc) := fun h => within_le h (by decide)
theorem take (payload : List Word) (crc : Word) : Statement (.take payload crc) := fun h => within_le h (by decide)
theorem ackSend : Statement (.ackSend) := of_none rfl
theorem ack (payload : List Word) (crc : Word) : Statement (.ack payload crc) := fun h => within_le h (by decide)
theorem release (payload : List Word) (crc : Word) : Statement (.release payload crc) := fun h => within_le h (by decide)
theorem ackTimeout : Statement (.ackTimeout) := of_none rfl
theorem gapEnd : Statement (.gapEnd) := of_none rfl
theorem promote (m : Master) : Statement (.promote m) := of_none rfl
theorem forcePromote (m : Master) : Statement (.forcePromote m) := of_none rfl
theorem handover (m : Master) : Statement (.handover m) := of_none rfl
theorem demote (m : Master) : Statement (.demote m) := of_none rfl
theorem hrdyWrite (m : Master) (rdy : Bool) : Statement (.hrdyWrite m rdy) := of_none rfl
theorem brownOut : Statement (.brownOut) := of_none rfl
theorem rstNAssert : Statement (.rstNAssert) := of_none rfl
theorem prsntNRemoval : Statement (.prsntNRemoval) := of_none rfl
theorem thermalShutdown : Statement (.thermalShutdown) := of_none rfl
theorem deferralEnd : Statement (.deferralEnd) := of_none rfl
theorem k4Release (c : ReleaseLands) : Statement (.k4Release c) := of_none rfl
theorem vmicaUndervoltage : Statement (.vmicaUndervoltage) := of_none rfl
theorem vmicaReturn : Statement (.vmicaReturn) := of_none rfl
theorem vmicaHoldEnd (n : IslandNo) : Statement (.vmicaHoldEnd n) := of_none rfl
theorem reset (m : Master) (w : Word) : Statement (.reset m w) := of_none rfl
theorem softReset : Statement (.softReset) := of_none rfl
theorem reqRun (m : Master) : Statement (.reqRun m) := of_none rfl
theorem reqPark (m : Master) : Statement (.reqPark m) := of_none rfl
theorem reqDormant (m : Master) : Statement (.reqDormant m) := of_none rfl
theorem iloopOff (m : Master) (n : IslandNo) : Statement (.iloopOff m n) := of_none rfl
theorem iloopEcho (m : Master) (n : IslandNo) (pattern : BitVec 16) : Statement (.iloopEcho m n pattern) := of_none rfl
theorem iloopDacAdc (m : Master) (n : IslandNo) (pattern : BitVec 16) : Statement (.iloopDacAdc m n pattern) := of_none rfl
theorem iloopTerminal (m : Master) (n : IslandNo) (pattern : BitVec 16) (term : BitVec 2) : Statement (.iloopTerminal m n pattern term) := of_none rfl
theorem iloopCross (m : Master) (n : IslandNo) (pattern : BitVec 16) : Statement (.iloopCross m n pattern) := of_none rfl
theorem measurementDone (n : IslandNo) (code : BitVec 18) : Statement (.measurementDone n code) := of_none rfl
theorem unlock (m : Master) (w : Word) : Statement (.unlock m w) := of_none rfl
theorem testNHigh : Statement (.testNHigh) := of_none rfl
theorem extest : Statement (.extest) := of_none rfl
theorem idcode : Statement (.idcode) := of_none rfl
theorem samplePreload : Statement (.samplePreload) := of_none rfl
theorem highz : Statement (.highz) := of_none rfl
theorem clamp : Statement (.clamp) := of_none rfl
theorem bypass : Statement (.bypass) := of_none rfl
theorem tapReset : Statement (.tapReset) := of_none rfl
theorem safeNHigh (held : Bool) : Statement (.safeNHigh held) := of_none rfl
theorem testNLow : Statement (.testNLow) := of_none rfl
theorem islThermRelease (n : IslandNo) : Statement (.islThermRelease n) := of_none rfl
theorem hostHotEnd (above115 : Bool) : Statement (.hostHotEnd above115) := of_none rfl
theorem integratorDischarged : Statement (.integratorDischarged) := of_none rfl
theorem tandemFrameDiscard (isRecord : Bool) : Statement (.tandemFrameDiscard isRecord) := of_none rfl

end Sys2Proof.Laws.Payload
end

