-- ==== Sys2Proof/Laws/Store.lean ====
section
/-! SUPPORT. Sparse stores: a read after a write, what a write leaves, the canonical form that every memory operation keeps, and that
stores in canonical form are equal when they read alike. -/

namespace Sys2Proof.Machine

section Generic

variable {α : Type} [DecidableEq α] (d : Nat → α)

/-- Below the bound of a canonical store every key reads as unlisted. -/
theorem sget_below {lo : Nat} {m : List (Nat × α)} {a : Nat} (h : swfFrom d (some lo) m = true) (ha : a ≤ lo) : sget d m a = d a := by
  induction m generalizing lo with
  | nil => rfl
  | cons x r ih =>
    obtain ⟨k, v⟩ := x
    simp only [swfFrom, Bool.and_eq_true, decide_eq_true_eq] at h
    have hk : a ≠ k := by omega
    simpa only [sget, hk, if_false] using ih h.2 (by omega)

/-- A lower bound serves as well. -/
theorem swfFrom_weaken {lo lo' : Option Nat} {m : List (Nat × α)} (h : swfFrom d lo m = true)
    (hl : ∀ b, lo' = some b → ∃ c, lo = some c ∧ b ≤ c) : swfFrom d lo' m = true := by
  cases m with
  | nil => rfl
  | cons x r =>
    obtain ⟨k, v⟩ := x
    simp only [swfFrom, Bool.and_eq_true, decide_eq_true_eq] at h ⊢
    refine ⟨⟨?_, h.1.2⟩, h.2⟩
    cases lo' with
    | none => rfl
    | some b =>
      obtain ⟨c, rfl, hc⟩ := hl b rfl
      have := h.1.1
      simp only [decide_eq_true_eq] at this ⊢
      omega

/-- A read after a write to a canonical store: the value at the key written, and every other key as before. -/
theorem sget_sput {lo : Option Nat} {m : List (Nat × α)} {a b : Nat} {v : α} (h : swfFrom d lo m = true) :
    sget d (sput d m a v) b = if b = a then v else sget d m b := by
  induction m generalizing lo with
  | nil =>
    unfold sput
    by_cases h1 : v = d a
    · by_cases h2 : b = a
      · subst h2; simp [sget, h1]
      · simp [sget, h1, h2]
    · simp [sget, h1]
  | cons x r ih =>
    obtain ⟨k, y⟩ := x
    simp only [swfFrom, Bool.and_eq_true, decide_eq_true_eq] at h
    unfold sput
    by_cases h1 : a < k
    · simp only [h1, if_true]
      by_cases h2 : v = d a
      · simp only [h2, if_true]
        by_cases h3 : b = a
        · subst h3
          have : b ≠ k := by omega
          simpa only [sget, this, if_false, if_true] using sget_below d h.2 (by omega)
        · simp [h3]
      · simp only [h2, if_false, sget]
    · simp only [h1, if_false]
      by_cases h2 : a = k
      · subst h2
        simp only [if_true]
        by_cases h3 : v = d a
        · simp only [h3, if_true, sget]
          by_cases h4 : b = a
          · subst h4; simpa only [if_true] using sget_below d h.2 (Nat.le_refl b)
          · simp [h4]
        · simp only [h3, if_false, sget]
          by_cases h4 : b = a <;> simp [h4]
      · simp only [h2, if_false, sget]
        by_cases h4 : b = k
        · subst h4; have : b ≠ a := fun e => h2 e.symm; simp [this]
        · simp only [h4, if_false]; exact ih h.2

/-- A write keeps the canonical form above any bound that the key exceeds. -/
theorem swfFrom_sput {lo : Option Nat} {m : List (Nat × α)} {a : Nat} (v : α)
    (hm : swfFrom d lo m = true) (hl : ∀ b, lo = some b → b < a) : swfFrom d lo (sput d m a v) = true := by
  induction m generalizing lo with
  | nil =>
    unfold sput; split
    · rfl
    · rename_i h; cases lo <;> simp_all [swfFrom]
  | cons x r ih =>
    obtain ⟨k, y⟩ := x
    simp only [swfFrom, Bool.and_eq_true, decide_eq_true_eq] at hm
    obtain ⟨⟨h1, h2⟩, h3⟩ := hm
    unfold sput
    split
    · split
      · cases lo <;> simp_all [swfFrom]
      · cases lo <;> simp_all [swfFrom]
    · split
      · split
        · subst_vars
          refine swfFrom_weaken d h3 (fun b hb => ⟨k, rfl, ?_⟩)
          exact Nat.le_of_lt (hl b hb)
        · subst_vars; simp only [swfFrom, Bool.and_eq_true, decide_eq_true_eq]; exact ⟨⟨h1, by assumption⟩, h3⟩
      · simp only [swfFrom, Bool.and_eq_true, decide_eq_true_eq]
        refine ⟨⟨h1, h2⟩, ih h3 ?_⟩
        intro b hb; cases hb; omega

/-- A write keeps the canonical form. -/
theorem swf_sput {m : List (Nat × α)} (a : Nat) (v : α) (h : swf d m = true) : swf d (sput d m a v) = true :=
  swfFrom_sput d v h (by simp)

/-- Entries taken out of a canonical store leave a canonical store. -/
theorem swfFrom_filter {lo : Option Nat} {m : List (Nat × α)} (p : Nat × α → Bool) (h : swfFrom d lo m = true) :
    swfFrom d lo (m.filter p) = true := by
  induction m generalizing lo with
  | nil => rfl
  | cons x r ih =>
    obtain ⟨k, v⟩ := x
    simp only [swfFrom, Bool.and_eq_true, decide_eq_true_eq] at h
    rw [List.filter_cons]
    split
    · simp only [swfFrom, Bool.and_eq_true, decide_eq_true_eq]; exact ⟨h.1, ih h.2⟩
    · refine ih (swfFrom_weaken d h.2 (fun b hb => ⟨k, rfl, ?_⟩))
      subst hb
      have := h.1.1
      simp only [decide_eq_true_eq] at this
      omega

/-- Entries taken out of a canonical store leave a canonical store. -/
theorem swf_filter {m : List (Nat × α)} (p : Nat × α → Bool) (h : swf d m = true) : swf d (m.filter p) = true := swfFrom_filter d p h

/-- An entry of a canonical store differs from what an unlisted key reads as, so it cannot be read from a store whose keys lie above. -/
theorem sget_head_ne {lo : Option Nat} {k : Nat} {v : α} {r m : List (Nat × α)} (h : swfFrom d lo ((k, v) :: r) = true)
    (hm : sget d m k = d k) : sget d ((k, v) :: r) k ≠ sget d m k := by
  simp only [swfFrom, Bool.and_eq_true, decide_eq_true_eq] at h
  rw [hm]; simpa only [sget, if_true] using h.1.2

/-- Canonical stores that read alike are equal. -/
theorem swf_ext {lo lo' : Option Nat} {m m' : List (Nat × α)} (h : swfFrom d lo m = true) (h' : swfFrom d lo' m' = true)
    (he : ∀ a, sget d m a = sget d m' a) : m = m' := by
  induction m generalizing lo lo' m' with
  | nil =>
    cases m' with
    | nil => rfl
    | cons y r' =>
      obtain ⟨k', v'⟩ := y
      exact absurd (he k').symm (sget_head_ne d h' rfl)
  | cons x r ih =>
    obtain ⟨k, v⟩ := x
    cases m' with
    | nil => exact absurd (he k) (sget_head_ne d h rfl)
    | cons y r' =>
      obtain ⟨k', v'⟩ := y
      have t := h
      have t' := h'
      simp only [swfFrom, Bool.and_eq_true, decide_eq_true_eq] at t t'
      rcases Nat.lt_trichotomy k k' with hlt | rfl | hlt
      · refine absurd (he k) (sget_head_ne d h ?_)
        have hk : k ≠ k' := by omega
        simpa only [sget, hk, if_false] using sget_below d t'.2 (by omega)
      · have hv := he k
        simp only [sget, if_true] at hv
        subst hv
        congr 1
        refine ih t.2 t'.2 (fun a => ?_)
        by_cases ha : a = k
        · subst ha; rw [sget_below d t.2 (Nat.le_refl a), sget_below d t'.2 (Nat.le_refl a)]
        · simpa only [sget, ha, if_false] using he a
      · refine absurd (he k').symm (sget_head_ne d h' ?_)
        have hk : k' ≠ k := by omega
        simpa only [sget, hk, if_false] using sget_below d t.2 (by omega)

/-- The empty store is canonical. -/
theorem swf_nil : swf d [] = true := rfl

end Generic

/-! ## SRAM -/

/-- A byte written reads back, and every other byte reads as before. -/
theorem State.sram_putByte {s : State} {a b : Nat} {v : Byte} (h : Memory.wf s.mem = true) :
    (s.putByte a v).sram b = if b = a then v else s.sram b := sget_sput _ h

/-- A byte write keeps the canonical form. -/
theorem State.putByte_wf {s : State} (a : Nat) (v : Byte) (h : Memory.wf s.mem = true) : Memory.wf (s.putByte a v).mem = true :=
  swf_sput _ a v h

/-- Writes of bytes keep the canonical form. -/
theorem State.putBytes_wf {s : State} (a : Nat) (l : List Byte) (h : Memory.wf s.mem = true) : Memory.wf (s.putBytes a l).mem = true := by
  induction l generalizing s a with
  | nil => exact h
  | cons x l ih => exact ih (a + 1) (State.putByte_wf a x h)

/-- A word write keeps the canonical form. -/
theorem State.putSram_wf {s : State} (a : Nat) (w : Word) (h : Memory.wf s.mem = true) : Memory.wf (s.putSram a w).mem = true :=
  State.putBytes_wf a _ h

/-- Writes of bytes change SRAM alone. -/
theorem State.putBytes_eq (s : State) (a : Nat) (l : List Byte) : s.putBytes a l = { s with mem := (s.putBytes a l).mem } := by
  induction l generalizing s a with
  | nil => rfl
  | cons x l ih => rw [State.putBytes, ih]; rfl

/-- Bytes written read back, and every byte outside them reads as before. -/
theorem State.sram_putBytes {s : State} {a b : Nat} {l : List Byte} (h : Memory.wf s.mem = true) :
    (s.putBytes a l).sram b = if h : a ≤ b ∧ b < a + l.length then l[b - a]'(by omega) else s.sram b := by
  induction l generalizing s a with
  | nil => simp [State.putBytes]
  | cons x l ih =>
    rw [State.putBytes, ih (State.putByte_wf a x h), State.sram_putByte h]
    by_cases hb : b = a
    · subst hb
      simp
    · simp only [hb, if_false]
      split
      · rename_i h2
        have h3 : a ≤ b ∧ b < a + (x :: l).length := by simp; omega
        simp only [h3, and_self, dite_true]
        have : b - a = (b - (a + 1)) + 1 := by omega
        simp only [this, List.getElem_cons_succ]
      · rename_i h2
        have h3 : ¬ (a ≤ b ∧ b < a + (x :: l).length) := by simp; omega
        simp only [h3, dite_false]

/-- The bytes of a word, put together again, are the word. -/
theorem bytesWord_wordByte (w : Word) : bytesWord (wordByte w 0) (wordByte w 1) (wordByte w 2) (wordByte w 3) = w := by
  apply BitVec.eq_of_getLsbD_eq
  intro i hi
  simp only [bytesWord, wordByte, BitVec.getLsbD_append, BitVec.getLsbD_ofNat, Nat.testBit_shiftRight, BitVec.testBit_toNat]
  by_cases h1 : i < 8
  · simp [h1]
  · by_cases h2 : i < 16
    · have e : 8 + (i - 8) = i := by omega
      have h : i - 8 < 8 := by omega
      simp [h1, h, e]
    · have n2 : ¬ i - 8 < 8 := by omega
      by_cases h3 : i < 24
      · have e : 16 + (i - 8 - 8) = i := by omega
        have h : i - 8 - 8 < 8 := by omega
        simp [h1, n2, h, e]
      · have n3 : ¬ i - 8 - 8 < 8 := by omega
        have e : 24 + (i - 8 - 8 - 8) = i := by omega
        have h : i - 8 - 8 - 8 < 8 := by omega
        simp [h1, n2, n3, h, e]

/-- A word written reads back. -/
theorem State.sramWord_putSram {s : State} {a : Nat} {w : Word} (h : Memory.wf s.mem = true) : (s.putSram a w).sramWord a = w := by
  have hl : (wordsBytes [w]).length = 4 := rfl
  have hb : ∀ k, k < 4 → (s.putSram a w).sram (a + k) = wordByte w k := by
    intro k hk
    rw [State.putSram, State.sram_putBytes h]
    have : a ≤ a + k ∧ a + k < a + (wordsBytes [w]).length := by omega
    simp only [this, and_self, dite_true, Nat.add_sub_cancel_left]
    match k, hk with
    | 0, _ => rfl
    | 1, _ => rfl
    | 2, _ => rfl
    | 3, _ => rfl
  have h0 := hb 0 (by omega)
  have h1 := hb 1 (by omega)
  have h2 := hb 2 (by omega)
  have h3 := hb 3 (by omega)
  rw [Nat.add_zero] at h0
  rw [State.sramWord, h0, h1, h2, h3, bytesWord_wordByte]

/-! ## Island SRAM -/

/-- A word written to island SRAM keeps the canonical form. -/
theorem Island.putWord_wf {i : Island} (a : Nat) (w : Word) (h : Memory.wf i.mem = true) : Memory.wf (i.putWord a w).mem = true := by
  simp only [Island.putWord, List.foldl]
  exact swf_sput _ _ _ (swf_sput _ _ _ (swf_sput _ _ _ (swf_sput _ _ _ h)))

/-- A word written to island SRAM changes nothing else of the island. -/
theorem Island.putWord_eq (i : Island) (a : Nat) (w : Word) : i.putWord a w = { i with mem := (i.putWord a w).mem } := rfl

/-! ## Flash -/

/-- Programming flash bytes keeps the canonical form. -/
theorem flashPut_wf {m : List Host.Cell} (a : Nat) (l : List Byte) (h : swf (fun _ => (0xFF : Byte)) m = true) :
    swf (fun _ => (0xFF : Byte)) (flashPut m a l) = true := by
  induction l generalizing m a with
  | nil => exact h
  | cons x l ih => exact ih (a + 1) (swf_sput _ a x h)

/-- An erase keeps the canonical form. -/
theorem Nvm.eraseRange_wf {v : Nvm} (a len : Nat) (h : swf (fun _ => (0xFF : Byte)) v.mem = true) :
    swf (fun _ => (0xFF : Byte)) (v.eraseRange a len).mem = true := swf_filter _ _ h

/-- An erased byte reads all ones, and every byte outside the range reads as before. -/
theorem Nvm.sget_eraseRange (v : Nvm) (a len o : Nat) :
    sget (fun _ => (0xFF : Byte)) (v.eraseRange a len).mem o =
      if a ≤ o ∧ o < a + len then 0xFF else sget (fun _ => (0xFF : Byte)) v.mem o := by
  simp only [Nvm.eraseRange]
  induction v.mem with
  | nil => simp [sget]
  | cons x r ih =>
    obtain ⟨k, y⟩ := x
    rw [List.filter_cons]
    by_cases hk : k < a ∨ a + len ≤ k
    · simp only [hk, decide_true, if_true, sget]
      by_cases ho : o = k
      · subst ho
        have : ¬ (a ≤ o ∧ o < a + len) := by omega
        simp [this]
      · simp only [ho, if_false]; exact ih
    · simp only [hk, decide_false, Bool.false_eq_true, if_false, ih, sget]
      by_cases ho : o = k
      · subst ho
        have : a ≤ o ∧ o < a + len := by omega
        simp [this]
      · simp [ho]

/-! ## After reset -/

/-- The memories of the machine after reset are canonical. -/
theorem State.reset_memories : Memory.wf State.reset.mem = true ∧ swf (fun _ => (0xFF : Byte)) State.reset.nvm.mem = true ∧
    swf (cfgReset State.reset.member) State.reset.cfg = true := ⟨rfl, rfl, rfl⟩

end Sys2Proof.Machine
end

