-- ==== Sys2Proof/Machine/Pins.lean ====
section
/-! DEFINITION. The lands: where each sits and what it carries, what the host die drives on its output lands, its terminations, and
the guard outputs of the islands (R98, R304, R330, R351, R374-R378, R385, R388, R406, R407; log entry 59). -/

namespace Sys2Proof.Machine

/-! ## Lands and their functions -/

/-- A land of a differential pair. -/
inductive Pol where
  | pos | neg
  deriving DecidableEq, Repr

/-- The functions of the host lands (R375). -/
inductive HostLand where
  | gnd | vh | vmica | rsvd
  | hck (p : Pol)
  | hdi (lane : Bool) (p : Pol)
  | hdo (lane : Bool) (p : Pol)
  | pdo (lane : Bool) (p : Pol)
  | pdi (lane : Bool) (p : Pol)
  | jtck | jtms | jtdi | jtdo | jtrstN | prsntN | rstN | alertN | safeN | lmode | testN | almhG0 | almhG1
  deriving DecidableEq, Repr

/-- A lane's two lands. -/
def lanePair (f : Pol → HostLand) : List HostLand := [f .pos, f .neg]

/-- So many lands of one function. -/
def lands (k : Nat) (f : HostLand) : List HostLand := List.replicate k f

/-- The functions of H001 to H112, a row of fourteen lands at a time (R375). -/
def hostRows : List (List (List HostLand)) :=
  [[[.gnd], lanePair .hck, [.gnd], lanePair (.hdi false), lanePair (.hdi true), [.gnd], lanePair (.hdo false), lanePair (.hdo true), [.gnd]],
   [lands 14 .gnd],
   [[.gnd], lanePair (.pdo false), lanePair (.pdo true), [.gnd], lanePair (.pdi false), lanePair (.pdi true), [.gnd, .jtck, .jtms, .jtdi]],
   [[.jtdo, .jtrstN, .gnd, .prsntN, .rstN, .alertN, .safeN], [.lmode, .testN, .almhG0, .almhG1, .rsvd, .rsvd, .gnd]],
   [[.gnd], lands 12 .vh, [.gnd]],
   [lands 14 .gnd],
   [[.gnd], lands 12 .vmica, [.gnd]],
   [lands 11 .gnd, lands 3 .rsvd]]

def hostLands : List HostLand := hostRows.flatten.flatten

/-- The function of host land Hnnn (R375). -/
def hostLand (nnn : Nat) : Option HostLand := if nnn = 0 then none else hostLands[nnn - 1]?

/-- The centre of host land Hnnn, in hundredths of a millimetre from the pin-1 corner (R374). -/
def hostLandAt (nnn : Nat) : Nat × Nat := (850 + (nnn - 1) % 14 * 100, 200 + (nnn - 1) / 14 * 100)

/-- The function letters of an island's nine lands (R376). -/
inductive FieldLand where
  | k | g | v | x | d | h | a | b | c
  deriving DecidableEq, Repr

/-- Column and row of a function letter, as the table of R376 gives them. -/
def FieldLand.place : FieldLand → Nat × Nat
  | .k => (0, 0) | .g => (1, 0) | .v => (2, 0)
  | .x => (0, 1) | .d => (1, 1) | .h => (2, 1)
  | .a => (0, 2) | .b => (1, 2) | .c => (2, 2)

/-- The centre of a land of island n, in hundredths of a millimetre (R374, R376). -/
def fieldLandAt (n : IslandNo) (l : FieldLand) : Nat × Nat :=
  (450 + n.val % 4 * 700 + l.place.1 * 127 - 127, 1800 + n.val / 4 * 550 + l.place.2 * 127)

/-! ## What the host die drives -/

/-- What an output land carries. -/
inductive Drive where
  | low | high
  /-- High impedance, or released. -/
  | released
  /-- The scan controls it. -/
  | scan
  deriving DecidableEq, Repr

def Drive.of (b : Bool) : Drive := if b then .high else .low

/-- The four bits that the tandem lanes carry on this tick: a training word, a frame, or idle (R63, R329, R330). -/
def State.tandemBits (s : State) : BitVec 4 :=
  if s.pow.k4 then 0
  else match s.tan.training with
    | some w => laneBits w (s.tick.toNat % 8)
    | none =>
      match s.tan.sent.find? (fun e => decide (e.1 ≤ s.tick ∧ s.tick < e.1 + BitVec.ofNat 64 (8 * e.2.length))) with
      | some e => laneBits (e.2.getD ((s.tick - e.1).toNat / 8) 0) ((s.tick - e.1).toNat % 8)
      | none => 0

/-- The level of a land of a pair whose true half has this bit. -/
def Drive.half (b : Bool) : Pol → Drive
  | .pos => .of b
  | .neg => .of (!b)

/-- A lane's bit of the four of a tick: on the rising or the falling edge of HCK, lane 0 before lane 1 (R63). -/
def laneBit (w : BitVec 4) (falling lane : Bool) : Bool := w.getLsbD (3 - ((if falling then 2 else 0) + if lane then 1 else 0))

/-- VH is away: what the host die drives is high-impedance (R390). -/
def State.unpowered (s : State) : Bool := s.pow.k4 && s.pow.vhLost

/-- What an output land carries on the half of this tick that falling names; none for a land that is no output. Without VH they are
high-impedance (R390); a scan takes the lands from the link and the tandem link (R407); a K4 reset drives the lanes to 0 and releases
ALERT_N and JTDO (R351); in bring-up mode HDO0P is MISO, and the other upstream lands are low (R98, R388). JTDO is driven while the TAP
shifts, which no command makes it do; tapShift says what it then carries (R406, log entry 59). -/
def State.landOut (s : State) (falling : Bool) : HostLand → Option Drive
  | .hdo lane p =>
    some (if s.unpowered then .released
      else if s.pow.tap.scans then .scan
      else if s.pow.lmodeHigh then
        (if lane = false ∧ p = .pos then
          (if s.pow.k4 then .low else match s.miso with | some b => .of b | none => .released)
        else .low)
      else .half (!s.pow.k4 && laneBit s.upstreamBits falling lane) p)
  | .pdo lane p => some (if s.unpowered then .released else if s.pow.tap.scans then .scan else .half (laneBit s.tandemBits falling lane) p)
  | .alertN => some (if s.unpowered then .released else if s.pow.tap.scans then .scan else if s.alert then .low else .released)
  | .jtdo => some .released
  | _ => none

/-! ## The TAP's data registers -/

/-- The land is one of the boundary register's: every signal land, a pair by its true half (R406). -/
def HostLand.scanned : HostLand → Bool
  | .gnd => false | .vh => false | .vmica => false | .rsvd => false
  | .hck p => decide (p = .pos) | .hdi _ p => decide (p = .pos) | .hdo _ p => decide (p = .pos)
  | .pdo _ p => decide (p = .pos) | .pdi _ p => decide (p = .pos)
  | _ => true

/-- The lands of the boundary register, in the order of their numbers: the spec leaves the order to a description file (R406, log
entry 59). -/
def boundaryLands : List HostLand := hostLands.filter HostLand.scanned

/-- The level of a land that the boundary register captures: what the host die drives on it, the level that the state holds of an
input, and a free value of every other one (R406, log entry 6). -/
def State.landLevel (s : State) (k : Nat) (l : HostLand) : Bool :=
  match s.landOut false l with
  | some .low => false
  | some .high => true
  | _ => match l with
    | .lmode => s.pow.lmodeHigh
    | .testN => !s.pow.testLow
    | .prsntN => !s.pow.prsntLow
    | .almhG0 => s.pow.almh0
    | .almhG1 => s.pow.almh1
    | _ => (Config.unstated (s.free + k)).getLsbD 0

/-- The data register of an instruction as it is captured, the bit next to JTDO first: the identification, the bypass bit, or the
boundary (R406). -/
def State.tapCapture (s : State) : List Bool :=
  match TapInstr.ofCode s.pow.ir with
  | .idcode => (List.range 32).map idcodeWord.getLsbD
  | .extest => boundaryLands.zipIdx.map (fun x => s.landLevel x.2 x.1)
  | .sample => boundaryLands.zipIdx.map (fun x => s.landLevel x.2 x.1)
  | _ => [false]

/-- One shift of a data register: the bit that leaves on JTDO and the register with JTDI behind (R406). -/
def tapShift (reg : List Bool) (tdi : Bool) : Bool × List Bool := (reg.headD tdi, (reg ++ [tdi]).drop 1)

/-- The internal termination of a receiver pair is connected: those of HCK, HDI0 and HDI1 while LMODE is low; that of the tandem
receivers stands (R387, R388). -/
def State.terminated (s : State) : HostLand → Bool
  | .hck _ => !s.pow.lmodeHigh
  | .hdi _ _ => !s.pow.lmodeHigh
  | .pdi _ _ => true
  | _ => false

/-! ## Islands -/

/-- What the guard output of an island follows (R378). -/
inductive Guard where
  | rx | ta | gf
  /-- GF through 10 kOhm. -/
  | gfOpen
  deriving DecidableEq, Repr

/-- GD of island n: RX for AI_I with BURDEN = 1, TA for AI_V and AI_RTD, GF for every other personality; in Bedrock GF through 10 kOhm
(R378). -/
def State.guard (s : State) (n : IslandNo) : Guard :=
  let i := s.isl[n]
  if !s.running n then .gfOpen
  else match i.pers with
    | .aiI => if (i.reg 0).getLsbD 17 then .rx else .gf
    | .aiV => .ta
    | .aiRtd => .ta
    | _ => .gf

/-- The bound on the power from VMICA, in tenths of a milliwatt (R385). -/
def State.micaBound (s : State) : Nat :=
  50 * islSum (fun n => bit s.isl[n].powered 0) + 32 * (s.admitted + s.rsvUsed)

end Sys2Proof.Machine
end

