-- ==== Sys2Proof/Machine/Symbols.lean ====
section
/-! DEFINITION. What a Mica coupler carries on an itk: the 21-bit symbol with its parity and its Acknowledge field, and the 44-bit cell
with its SEQ, TAG and CHECK (R32, R34, R35, R39; log entry 51). -/

namespace Sys2Proof.Machine

/-! ## The symbol -/

/-- PAR: even parity over the other five state bits (R32). -/
def parOf (b : BitVec 5) : Bool := b.getLsbD 0 ^^ b.getLsbD 1 ^^ b.getLsbD 2 ^^ b.getLsbD 3 ^^ b.getLsbD 4

/-- A state-lane field: five bits and PAR (R32). -/
def stateField (b : BitVec 5) : BitVec 6 := b ++ BitVec.ofBool (parOf b)

/-- The five state bits pass parity. -/
def stateGood (f : BitVec 6) : Bool := parOf (f.extractLsb' 1 5) == f.getLsbD 0

/-- A symbol: state lane, Acknowledge, message lane (R32). -/
def symbolOf (lane : BitVec 6) (ack : BitVec 4) (msg : BitVec 11) : BitVec 21 := lane ++ ack ++ msg

/-- OUT, SAFE, PSEL, FORCE and PAR of the downstream symbol (R32). -/
def DLane.field (d : DLane) : BitVec 6 :=
  stateField (BitVec.ofBool d.out ++ BitVec.ofBool d.safe ++ d.psel ++ BitVec.ofBool d.force)

/-- An indication of island n of this kind is in one of its four symbols on this tick (R34). -/
def State.indicated (s : State) (n : IslandNo) (kind : Nat) : Bool :=
  s.transit.any (fun e => match e.2 with
    | .ind m src _ left =>
      let first := e.1 - 12 - BitVec.ofNat 64 (2 * (3 - left.val))
      decide (m = n) && decide (src.toNat / 16 = kind) && decide (first ≤ s.tick ∧ s.tick ≤ first + 6)
    | _ => false)

/-- RAW, QUAL, RISE, FALL, INDET and PAR of the upstream symbol of this itk (R32). -/
def State.upField (s : State) (n : IslandNo) : BitVec 6 :=
  let d := s.isl[n].din
  stateField (BitVec.ofBool d.raw ++ BitVec.ofBool d.qual ++ BitVec.ofBool (s.indicated n 3) ++ BitVec.ofBool (s.indicated n 4) ++
    BitVec.ofBool d.indet)

/-! ## The cell -/

/-- A cell: SEQ, TAG, DATA and CHECK over [43:6] (R35). -/
def cellWord (seq : BitVec 2) (tag : BitVec 4) (data : Word) : BitVec 44 :=
  let body : BitVec 38 := seq ++ tag ++ data
  body ++ crc6 ((List.range 38).map (fun k => body.getLsbD (37 - k)))

/-- The CHECK of a cell holds (R35, R39). -/
def cellGood (w : BitVec 44) : Bool :=
  decide (crc6 ((List.range 38).map (fun k => w.getLsbD (43 - k))) = w.extractLsb' 0 6)

/-- The TAG is one of the table's: none above SYNC, and upstream not 0x7 (R35). -/
def tagKnown (up : Bool) (tag : BitVec 4) : Bool := decide (tag.toNat ≤ 8) && !(up && decide (tag = 7))

/-- TAG of a downstream cell (R35). -/
def DownData.tag : DownData → BitVec 4
  | .outword _ => 1 | .raddr _ => 2 | .waddr _ => 3 | .wdata _ => 4 | .rung _ => 5 | .cmd _ => 6 | .hart _ _ => 7 | .sync _ => 8

/-- DATA of a downstream cell; a layout that the spec does not give is free (R35, R40, R401). -/
def DownData.bits : DownData → Word
  | .outword w => w
  | .raddr a => a
  | .waddr a => a
  | .wdata w => w
  | .sync _ => 0
  | .rung r => Config.cellData false 5 0 (r.rung.val * 16 + r.hart.val * 4 + r.char.val)
  | .hart b last => Config.cellData false 7 0 (b.toNat * 2 + bit last 0)
  | .cmd (.echo w) => w
  | .cmd .prep => Config.cellData false 6 1 0
  | .cmd .apply => Config.cellData false 6 2 0
  | .cmd .shadow => Config.cellData false 6 3 0
  | .cmd .unshadow => Config.cellData false 6 4 0
  | .cmd .chanFault => Config.cellData false 6 5 0
  | .cmd .clear => Config.cellData false 6 6 0
  | .cmd (.output w) => Config.cellData false 6 7 w.toNat
  | .cmd (.test d) => Config.cellData false 6 8 d.val
  | .cmd (.adc op e) => Config.cellData false 6 9 (op.toNat * 16 + e.toNat)

/-- TAG of an upstream cell (R35). -/
def UpData.tag : UpData → BitVec 4
  | .rdata _ => 1 | .result _ => 2 | .status _ => 3 | .hart _ _ _ => 4 | .rungAct => 5 | .fatal => 6 | .sync _ => 8

/-- DATA of an upstream cell; a layout that the spec does not give is free (R35, R40, R401). -/
def UpData.bits : UpData → Word
  | .rdata w => w
  | .result w => w
  | .sync _ => 0
  | .fatal => Config.cellData true 6 0 0
  | .rungAct => Config.cellData true 5 0 0
  | .hart b start perr => Config.cellData true 4 0 (b.toNat * 4 + bit start 1 + bit perr 0)
  | .status (.echo w) => w
  | .status (.fault src kind detail) => Config.cellData true 3 1 ((src.toNat * 256 + kind.toNat) * 2 ^ 32 + detail.toNat)
  | .status .diag => Config.cellData true 3 2 0
  | .status (.measured code) => Config.cellData true 3 3 code.toNat
  | .status (.cvOk ok) => Config.cellData true 3 4 (bit ok 0)

/-- The cell of a direction that is in its slot on this tick: a slot has four itk (R35, R36). -/
def inFlight {α : Type} (t : Tick) (l : List (Cell α)) : Option (Cell α) :=
  l.find? (fun c => c.sent && decide (c.slot ≤ t ∧ t < c.slot + 8))

/-- The eleven bits of a cell in the itk of its slot that this tick belongs to, the highest bits first (log entry 51); the IDLE cell where
there is none (R35). -/
def cellPart (w : BitVec 44) (slot t : Tick) : BitVec 11 := w.extractLsb' (33 - 11 * ((t - slot).toNat / 2)) 11

/-- The message lane of island n going down, and coming up (R35). -/
def State.downMsg (s : State) (n : IslandNo) : BitVec 11 :=
  match inFlight s.tick s.isl[n].down with
  | some c => cellPart (cellWord c.seq c.data.tag c.data.bits) c.slot s.tick
  | none => 0

def State.upMsg (s : State) (n : IslandNo) : BitVec 11 :=
  match inFlight s.tick s.isl[n].up with
  | some c => cellPart (cellWord c.seq c.data.tag c.data.bits) c.slot s.tick
  | none => 0

/-- The Acknowledge field of the first symbol that the receiver sends after a cell has landed: AV, AN and ASEQ; AN says that it was not
accepted (R39). -/
def ackField {α : Type} (t : Tick) (l : List (Cell α)) : BitVec 4 :=
  match l.find? (fun c => c.sent && decide (c.slot + 12 ≤ t ∧ t < c.slot + 14)) with
  | some c => 1#1 ++ BitVec.ofBool (!c.got) ++ c.seq
  | none => 0

/-- The symbols of island n on this itk, going down and coming up: each acknowledges the cells of the other direction (R32, R39). -/
def State.downSymbol (s : State) (n : IslandNo) : BitVec 21 :=
  symbolOf s.isl[n].laneDn.field (ackField s.tick s.isl[n].up) (s.downMsg n)

def State.upSymbol (s : State) (n : IslandNo) : BitVec 21 :=
  symbolOf (s.upField n) (ackField s.tick s.isl[n].down) (s.upMsg n)

end Sys2Proof.Machine
end

