-- ==== Sys2Proof/Tests/Slice0.lean ====
section
/-! SUPPORT. Tests: commands that are ill-formed, words written out from the encoding of R233 and R234, a few steps of small states,
and for every statement with hypotheses states and operands that meet them, clause by clause. -/

namespace Sys2Proof.Tests

set_option Elab.async false

open Sys2Proof.Machine

/-! ## Small states -/

/-- Context 7 runs in the shared area with these values in g1 and g2; context 0 has left the boot ROM. -/
def ctx7 (x y : Word) : State :=
  (State.reset.modCtx 0 (fun c => { c with pc := 0x20200100 })).modCtx 7 (fun c =>
    { c with st := .run, pc := 0x20200000, regs := (c.regs.set 1 x).set 2 y })

/-- Island 15 is RUNNING at personality rung 2, HART rung 2 and characteristic rung 1 with this CFG word, and f has been applied to it. -/
def isl15 (cfg : Word) (f : Island → Island) : State :=
  { State.reset.modIsl 15 (fun i => f { i with power := .running, en := true, cvOk := true, discharge := false,
                                               recd := [(0, cfg)], rungs := { rung := 2, hart := 2, char := 1 } }) with
    cfg := [(0x10F000, cfg)] }

/-- The command is owed on this tick. -/
def owed (c : Instr) (s : State) : State := { s with due := [(s.tick, c)] }

/-- A downstream cell that waits to leave. -/
def cellTo (d : DownData) (m : Master) (a : Word) : DownCell :=
  { data := d, req := m, sync := 0, sent := false, since := 0, slot := 0, seq := 0, bad := false, got := false, failed := false,
    again := false, addr := a, xref := 0 }
/-! ## Ill-formed commands

For each check of wellFormed a command that it refuses, beside the shortest or longest that it takes. -/

def zeros (k : Nat) : List Word := List.replicate k 0

theorem test_illFormed_cycle : (Instr.cycle (zeros 23) 0).wellFormed = false ∧ (Instr.cycle (zeros 24) 0).wellFormed = true := by decide +kernel
theorem test_illFormed_regw : (Instr.regw (zeros 1) 0).wellFormed = false ∧ (Instr.regw (zeros 2) 0).wellFormed = true ∧
    (Instr.regw (zeros 258) 0).wellFormed = false := by decide +kernel
theorem test_illFormed_regr : (Instr.regr (zeros 65) 0).wellFormed = false ∧ (Instr.regr (zeros 64) 0).wellFormed = true := by decide +kernel
theorem test_illFormed_bulk : (Instr.bulk (zeros 1026) 0).wellFormed = false ∧ (Instr.bulk (zeros 1025) 0).wellFormed = true := by decide +kernel
theorem test_illFormed_ctrl : (Instr.ctrlNop (zeros 0) 0).wellFormed = false ∧ (Instr.linkReset (zeros 3) 0).wellFormed = false ∧
    (Instr.ctrlRetrain (zeros 3) 0).wellFormed = false ∧ (Instr.resendReads (zeros 0) 0).wellFormed = false ∧
    (Instr.flushReads (zeros 3) 0).wellFormed = false ∧ (Instr.ctrlLoop (zeros 0) 0).wellFormed = false ∧
    (Instr.ctrlLoop (zeros 2) 0).wellFormed = true := by decide +kernel
theorem test_illFormed_idle : (Instr.idleFrame (zeros 1025) 0).wellFormed = false ∧ (Instr.idleFrame (zeros 0) 0).wellFormed = true := by
  decide +kernel
theorem test_illFormed_tandem : (Instr.record (zeros 41) 0).wellFormed = false ∧ (Instr.record (zeros 40) 0).wellFormed = true ∧
    (Instr.beacon (zeros 0) 0).wellFormed = false ∧ (Instr.take (zeros 1) 0).wellFormed = false ∧
    (Instr.ack (zeros 0) 0).wellFormed = false ∧ (Instr.release (zeros 2) 0).wellFormed = false := by decide +kernel

/-! ## Words of Facet instructions, bit by bit from R233 and R234 -/

/-- Format A: OP 000010, RD 1111, RA 0001, RB 1000, FN 0. -/
theorem test_decode_sub : facetDecode 3 0b00001011110001100000000000000000 = some (.sub 3 15 1 8) := by decide +kernel

/-- Format A with FN: OP 110010, RD 0001, RA 0010, RB 0011, FN 8. -/
theorem test_decode_fork : facetDecode 0 0b11001000010010001100000000001000 = some (.fork 0 1 2 3 8) := by decide +kernel

/-- Format B: OP 010001, RD 0101, RA 0000, IMM18 all ones. -/
theorem test_decode_addi : facetDecode 1 0b01000101010000111111111111111111 = some (.addi 1 5 0 0x3FFFF) := by decide +kernel

/-- Format C: OP 100000, RA 0010, RB 0111, OFF18 4. -/
theorem test_decode_stw : facetDecode 7 0b10000000100111000000000000000100 = some (.stw 7 2 7 4) := by decide +kernel

/-- Format C: OP 100101, RA 1110, RB 0001, OFF18 of the highest bit alone. -/
theorem test_decode_bne : facetDecode 7 0b10010111100001100000000000000000 = some (.bne 7 14 1 0x20000) := by decide +kernel

/-- Format D: OP 110000, RD 1111, IMM22 all ones. -/
theorem test_decode_jal : facetDecode 2 0b11000011111111111111111111111111 = some (.jal 2 15 0x3FFFFF) := by decide +kernel

/-- Fields that an opcode does not use are ignored: FENCE with RA, RB and FN all ones. -/
theorem test_decode_fence : facetDecode 0 0b11110000111111111111111111111111 = some (.fence 0 3) := by decide +kernel

/-- OP 0 and the OPs that R234 does not list are illegal. -/
theorem test_decode_illegal : facetDecode 0 0 = none ∧ facetDecode 0 0b01111100000000000000000000000000 = none ∧
    facetDecode 0 0b11111111111111111111111111111111 = none := by decide +kernel

/-- No row of the opcode table has bits: no word spells a command. -/
theorem test_no_word : decodeTableWord 32 0x12345678 = none ∧ State.reset.withFetchWord 32 5 = State.reset := by decide +kernel

/-! ## One step of a small state; expected values by hand from the rule named -/

/-- R25: a read of TICK_LO copies the high word into the snapshot. -/
theorem test_step_tickLo : (match exec (.tickLoRead .link) { State.reset with tick := 0x7_0000_0003 } with
    | .next u => decide (u.snapHi = 7) | _ => false) = true := by decide +kernel

/-- R12, R22: a rate above the largest is clamped to it, and the link's clamp counter counts. -/
theorem test_step_rate : (match exec (.registerWrite .link 0x10 0x0003FFFF) State.reset with
    | .next u => decide (u.rate = 200000) && decide (u.clampLink = 1) | _ => false) = true := by decide +kernel

/-- R234: ADD wraps, and rd may be a source. -/
theorem test_step_add : (match exec (.add 7 1 1 2) (ctx7 0xFFFFFFFF 3) with
    | .next u => decide (u.greg 7 1 = 2) && decide (u.pcOf 7 = 0x20200004) | _ => false) = true := by decide +kernel

/-- R234: SRA keeps the sign. -/
theorem test_step_sra : (match exec (.sra 7 3 1 2) (ctx7 0x80000000 31) with
    | .next u => decide (u.greg 7 3 = 0xFFFFFFFF) | _ => false) = true := by decide +kernel

/-- R224: LOCK of a poisoned free lock takes it and says so (code 2). -/
theorem test_step_lock : (match exec (.lock 7 3 9) ((ctx7 0 0).modLock 9 (fun l => { l with poison := true })) with
    | .next u => decide (u.facet.locks[(9 : Fin 64)].owner = some 7) && decide (u.greg 7 3 = 2) | _ => false) = true := by decide +kernel

/-- R408: the three words in a row set FTM. -/
theorem test_step_unlock : (match exec (.unlock .link 0x7E57) { State.reset with pow := { State.reset.pow with testLow := true } } with
    | .next u => decide (u.pow.ustep = 1) && !u.pow.ftm | _ => false) = true := by decide +kernel

/-! ## Hypotheses that are met: the Facet core -/

theorem meets_FacetComputes :
    (ctx7 0x80000000 31).canIssue 7 = true ∧ State.reset.canIssue 0 = true := by decide +kernel

theorem meets_FacetDivides :
    (ctx7 0x80000000 0xFFFFFFFF).canIssue 7 = true ∧ (ctx7 5 0).canIssue 7 = true ∧
    (let s := owed (.multiSlotDone 7) ((ctx7 0 0).modCtx 7 (fun c => { c with stall := .multi 15 3 }))
     s.clocked = true ∧ s.isDue (.multiSlotDone 7) = true ∧ s.facet.ctx[7].stall = .multi 15 3) := by decide +kernel

theorem meets_FacetBranchesAndJumps : (ctx7 0x7FFFFFFF 0x80000000).canIssue 7 = true := by decide +kernel

/-- Context 7 has issued an access with PC before the next word, and it is due. -/
def flown (c : Instr) (a : Word) (f : Flight) : State :=
  owed c ((ctx7 a 5).modCtx 7 (fun x => { x with flight := f, pc := 0x20200004 }))

/-- The shared area's last word, the last byte of slice 7, and for context 0 in the ROM another slice; on the issue tick, on the access
tick, and with the link on the bank. -/
theorem meets_FacetSramAccess :
    (let s := ctx7 0x203FFFFC 0
     s.mayAccess 7 (.ldw 7 15 1 0) (s.keyAt (s.greg 7 1 + sext18 0)) = true ∧ s.readsSram 7 (s.greg 7 1 + sext18 0) ∧
      (s.greg 7 1 + sext18 0).toNat % 4 = 0) ∧
    (let s := ctx7 0x201FFFFE 0
     s.mayAccess 7 (.ldhu 7 15 1 0) (s.keyAt (s.greg 7 1 + sext18 0)) = true ∧ s.readsSram 7 (s.greg 7 1 + sext18 0) ∧
      (s.greg 7 1 + sext18 0).toNat % 2 = 0) ∧
    (State.reset.mayAccess 0 (.ldb 0 1 1 0) (State.reset.keyAt 0x201FFFFF) = true ∧ State.reset.readsSram 0 0x201FFFFF ∧
      State.reset.writesSram 0 0x201FFFFF) ∧
    (let s := flown (.stb 7 1 2 0) 0x201FFFFF .issued
     s.mayAccess 7 (.stb 7 1 2 0) (s.keyAt (s.greg 7 1 + sext18 0)) = true ∧ s.writesSram 7 (s.greg 7 1 + sext18 0) ∧
      Memory.wf s.mem = true) ∧
    (let s := flown (.stw 7 1 2 0) 0x201C0000 .late
     s.mayAccess 7 (.stw 7 1 2 0) (s.keyAt (s.greg 7 1 + sext18 0)) = true ∧ s.writesSram 7 (s.greg 7 1 + sext18 0) ∧
      (s.greg 7 1 + sext18 0).toNat % 4 = 0) ∧
    (let s := flown (.ldb 7 15 1 0) 0x201FFFFF .issued
     let k := s.keyAt (s.greg 7 1 + sext18 0)
     let s := { s with link := { s.link with touch := k.map (fun k => (s.tick, k)) } }
     s.clocked = true ∧ s.isDue (.ldb 7 15 1 0) = true ∧ s.facet.ctx[7].flight = .issued ∧ s.linkMet k = true ∧
      s.readsSram 7 (s.greg 7 1 + sext18 0)) := by
  unfold State.readsSram State.writesSram; decide +kernel

/-- Misaligned at the last word; the first byte of slice 0 for context 7; the first address behind SRAM; a shared area that is not open
for writing; the last word of the NVM window; the first of the boot ROM. -/
theorem meets_FacetAccessExceptions :
    (let s := ctx7 0x203FFFFD 0
     s.mayAccess 7 (.ldw 7 15 1 0) (s.keyAt (s.greg 7 1 + sext18 0)) = true ∧ (s.greg 7 1 + sext18 0).toNat % 4 ≠ 0 ∧
      s.mayAccess 7 (.sth 7 1 2 0) (s.keyAt (s.greg 7 1 + sext18 0)) = true ∧ (s.greg 7 1 + sext18 0).toNat % 2 ≠ 0) ∧
    (let s := flown (.ldb 7 15 1 0) 0x20000000 .issued
     s.mayAccess 7 (.ldb 7 15 1 0) (s.keyAt (s.greg 7 1 + sext18 0)) = true ∧
      regionOf s.member (s.greg 7 1 + sext18 0).toNat = .slice 0 ∧ (0 : CtxNo) ≠ 7 ∧ s.runsInSram 7) ∧
    (let s := ctx7 0x20400000 0
     s.mayAccess 7 (.ldw 7 15 1 0) (s.keyAt (s.greg 7 1 + sext18 0)) = true ∧ regionOf s.member (s.greg 7 1 + sext18 0).toNat = .none) ∧
    (let s := { ctx7 0x20200000 0 with cfg := [(0x4004, 0x7F)] }
     s.mayAccess 7 (.stw 7 1 2 0) (s.keyAt (s.greg 7 1 + sext18 0)) = true ∧ regionOf s.member (s.greg 7 1 + sext18 0).toNat = .shared ∧
      (s.cfgAt 0x4004).getLsbD 7 = false) ∧
    (let s := ctx7 0x301FFFFC 0
     s.mayAccess 7 (.stw 7 1 2 0) (s.keyAt (s.greg 7 1 + sext18 0)) = true ∧ regionOf s.member (s.greg 7 1 + sext18 0).toNat = .nvm) ∧
    (let s := ctx7 0x3F000000 0
     s.mayAccess 7 (.stw 7 1 2 0) (s.keyAt (s.greg 7 1 + sext18 0)) = true ∧ regionOf s.member (s.greg 7 1 + sext18 0).toNat = .rom) := by
  unfold State.runsInSram; decide +kernel

/-- The island behind g1 of context 7 in a state of isl15. -/
def isl15Ctx (a : Word) (p : IslPower) : State :=
  { isl15 4 (fun i => { i with power := p }) with facet := (ctx7 a 9).facet }

theorem meets_FacetIslandAccesses :
    (let s := isl15Ctx 0x0083FFFC .running
     s.canIssue 7 = true ∧ regionOf s.member (s.greg 7 1 + sext18 0).toNat = .islMem 15 ∧ (s.greg 7 1 + sext18 0).toNat % 4 = 0 ∧
      s.running 15 = true ∧ s.queueFull 15 = false ∧ (15 : IslandNo).val = (0x3FFFF#18).toNat % 16 ∧ s.takesOut 15 = true) ∧
    (let s := isl15Ctx 0x0083C000 .charging
     s.canIssue 7 = true ∧ regionOf s.member (s.greg 7 1 + sext18 0).toNat = .islMem 15 ∧ (s.greg 7 1 + sext18 0).toNat % 4 = 0 ∧
      s.running 15 = false ∧ s.takesOut 15 = false) := by decide +kernel

/-- Contexts 1 and 7 are taken, the others free. -/
def twoRun (pc x : Word) : State := (ctx7 pc x).modCtx 1 (fun c => { c with st := .run })

/-- Every context is taken. -/
def allRun (pc : Word) : State :=
  (((((twoRun pc 0).modCtx 2 (fun c => { c with st := .wait })).modCtx 3 (fun c => { c with st := .run })).modCtx 4
    (fun c => { c with st := .faulted })).modCtx 5 (fun c => { c with st := .stall })).modCtx 6 (fun c => { c with st := .run })

theorem meets_FacetThreadsStart :
    (let s := twoRun 0x203FFFFC 4
     s.canIssue 7 = true ∧ (8#14).toNat % 16 = 8 ∧ (∀ j : CtxNo, j < 2 → s.ctxFree j = false) ∧ s.ctxFree 2 = true ∧
      s.fetchable 2 (s.greg 7 1) = true ∧ (1#14).toNat % 16 = 1 ∧ s.fetchable 1 (s.greg 7 1) = true ∧ s.ctxFree 1 = false) ∧
    (let s := allRun 0x20200000
     s.canIssue 7 = true ∧ s.fetchableAny (s.greg 7 1) = true ∧ ∀ j, s.ctxFree j = false) ∧
    (twoRun 0x20200002 0).fetchable 6 ((twoRun 0x20200002 0).greg 7 1) = false ∧ 8 < (9#14).toNat % 16 ∧ 8 < (0x3FFF#14).toNat % 16 ∧
    (let s := { twoRun 0 0 with facet := { (twoRun 0 0).facet with launchPc := 0x20200000 } }
     s.clocked = true ∧ (8#4).toNat ≤ 8 ∧ (∀ j : CtxNo, j < 2 → s.ctxFree j = false) ∧ s.ctxFree 2 = true ∧ s.fetchable 2 s.facet.launchPc = true ∧
      s.fetchable 1 s.facet.launchPc = true ∧ s.ctxFree 1 = false ∧ s.facet.ctx[2].startAt ≤ s.tick) := by decide +kernel

/-- The kill mask names a context that is not FREE and one that is, and leaves one out. -/
theorem meets_FacetContextsEnd :
    (let s := (ctx7 1 2).modLock 63 (fun _ => { owner := some 7, poison := false })
     s.canIssue 7 = true ∧ s.clocked = true ∧ s.facet.locks[63].owner = some 7 ∧ s.facet.ctx[7].st ≠ .free ∧ (0x80#8).getLsbD 7 = true ∧
      (0x80#8).getLsbD 6 = false ∧ s.facet.ctx[6].st = .free) := by decide +kernel

theorem meets_FacetWatchAndWait :
    (let s := (ctx7 0 0).modCtx 7 (fun c => { c with warm := true, el := true })
     s.canIssue 7 = true ∧ s.facet.ctx[7].warm = true ∧ s.facet.ctx[7].el = true) ∧
    (let s := ctx7 0xFFFFFFFF 0
     s.canIssue 7 = true ∧ s.greg 7 1 ≠ 0 ∧ s.facet.ctx[7].el = false) ∧
    ((ctx7 0 0).facet.ctx[7].warm = false ∧ (ctx7 0 0).greg 7 1 = 0) ∧
    (let s := owed (.wfeTimeout 7) ((ctx7 0 0).modCtx 7 (fun c => { c with st := .wait, wrd := 15 }))
     s.clocked = true ∧ s.isDue (.wfeTimeout 7) = true ∧ s.facet.ctx[7].st = .wait ∧ s.facet.ctx[7].wrd ≠ 0) := by decide +kernel

theorem meets_FacetLocksAndFences :
    ((ctx7 0 0).mayAccess 7 (.lock 7 15 0x3FFFF) none = true ∧ (flown (.unlk 7 15 0x3FFFF) 0 .issued).mayAccess 7 (.unlk 7 15 0x3FFFF) none = true ∧
      (ctx7 0 0).clocked = true ∧ (63 : Fin 64).val = (0x3FFFF#18).toNat % 64 ∧ (ctx7 0 0).facet.locks[63].owner = none ∧
      (ctx7 0 0).facet.locks[63].owner ≠ some 7) ∧
    ((ctx7 0 0).modLock 63 (fun _ => { owner := some 7, poison := true })).facet.locks[63].owner = some 7 ∧
    (((ctx7 0 0).modLock 63 (fun _ => { owner := some 0, poison := true })).facet.locks[63].owner = some 0 ∧ (0 : CtxNo) ≠ 7) ∧
    ((ctx7 0 0).canIssue 7 = true ∧ (1 : Nat) < (2#18).toNat ∧ (16#18).toNat < 17 ∧ 17 ≤ (17#18).toNat ∧
      (ctx7 0 0).mayAccess 7 (.imgr 7 15 16) none = true) ∧
    (ctx7 0 0).outstanding 7 = false ∧
    ((ctx7 0 0).modIsl 15 (fun i => { i with down := [cellTo (.wdata 1) (.thread 7) 0] })).outstanding 7 = true ∧
    (let s := (ctx7 0 0).modCtx 7 (fun c => { c with st := .stall, stall := .fence 15 })
     s.clocked = true ∧ s.facet.ctx[7].stall = .fence 15 ∧ s.outstanding 7 = false) ∧
    ((ctx7 0 0).modCtx 7 (fun c => { c with stall := .load 15 .byte 15 0x0083FFFF (some 0x80) false })).facet.ctx[7].stall =
      .load 15 .byte 15 0x0083FFFF (some 0x80) false := by decide +kernel

/-- A record that waits for the writer, of the source given. -/
def rec1 (src : Byte) : FaultRec := { FaultRec.reset with src := src, dtag := 1 }

theorem meets_LentSlotsAndQueuePlaces :
    (let s := fun st => (isl15Ctx 0 .running).modCtx 7 (fun c => { c with st := .stall, stall := st })
     (∀ j : CtxNo, j < 7 → (s (.fence 0)).facet.ctx[j].stall = .none) ∧
      (s (.fence 0)).running 15 = true ∧ (s (.fence 0)).queueFull 15 = false ∧ (s (.fence 0)).clocked = true ∧
      ((s (.store 15 0x0083C000 1 15)).facet.ctx[7].stall = .store 15 0x0083C000 1 15 ∧
        (s (.store 15 0x0083C000 1 15)).facet.ctx[7].left = [] ∧
        regionOf (s (.fence 0)).member (0x0083C000#32).toNat = .islMem 15) ∧
      ((s (.outc 15 15 1)).facet.ctx[7].stall = .outc 15 15 1 ∧ (s (.outc 15 15 1)).tan.role ≠ .standby) ∧
      (s (.loadq 15 .word 15 0x0083C000)).facet.ctx[7].stall = .loadq 15 .word 15 0x0083C000) ∧
    (let s := fun k => State.reset.modFault (fun f => { f with logq := [rec1 1], logWord := k })
     (s 6).clocked = true ∧ (s 6).fault.logq = [rec1 1] ∧ (s 6).fault.logWord < 7 ∧ 7 ≤ (s 7).fault.logWord) ∧
    (let s := State.reset.modCh 15 (fun h => { h with st := .fetch, cur := 0x20200000, fetched := 2 })
     s.clocked = true ∧ s.fault.logq = [] ∧ s.walks 15 = true ∧ (∀ j : ChNo, j < 15 → s.walks j = false) ∧ s.dma[15].fetched < 3 ∧
      s.mayFetch 15 s.dma[15].cur.toNat = true) ∧
    State.reset.harvest = none := by decide +kernel
/-! ## Hypotheses that are met: events, inputs and outputs, HART, converters -/

/-- Line 255 has software source 31 with a divider of 2; context 7 and channel 15 wait for it. -/
def lineState (n : Byte) (st : CtxState) (el : Bool) (d : DmaState) (pp : Bool) : State :=
  let s := { ctx7 0 0 with cfg := [(0x23FC, 0x0100011F), (0x33E0, 0x0000FF01)] }
  let s := s.modCtx 7 (fun c => { c with st := st, warm := true, w := 255, el := el, wrd := 15 })
  let s := s.modCh 15 (fun h => { h with st := d, ppend := pp })
  { s with evt := { s.evt with div := s.evt.div.set 255 n, tmr := s.evt.tmr.set 15 (some 0),
                               active := 0x8000000000000000, trig := s.evt.trig.set 63 (some 0) } }

theorem meets_EventPulsesAndTimers :
    (let s := lineState 0 .wait false .wait false
     s.clocked = true ∧ fld (s.lineWord 255) 0 9 ≠ 0 ∧ 255#8 ∉ s.evt.pulsed ∧ s.evt.div[255].toNat < fld (s.lineWord 255) 24 8) ∧
    (let s := lineState 1 .wait false .wait false
     fld (s.lineWord 255) 24 8 ≤ s.evt.div[255].toNat ∧ s.facet.ctx[7].warm = true ∧ s.facet.ctx[7].w = 255 ∧ s.facet.ctx[7].st = .wait ∧
      255#8 ∉ s.evt.pulsed ∧ s.facet.ctx[7].watchAt ≠ some s.tick ∧
      s.facet.ctx[7].wrd ≠ 0 ∧ s.facet.ctx[6].warm = false ∧ (s.cfgAt (0x3020 + 0x40 * 15)).getLsbD 0 = true ∧
      (s.cfgAt (0x3020 + 0x40 * 15)).extractLsb' 8 8 = 255#8 ∧ s.dma[15].st = .wait) ∧
    (let s := lineState 1 .run false .move false
     s.facet.ctx[7].st ≠ .wait ∧ s.facet.ctx[7].el = false ∧ s.dma[15].st ≠ .wait ∧ s.dma[15].ppend = false) ∧
    (let s := lineState 1 .run true .move true
     s.facet.ctx[7].st ≠ .wait ∧ s.facet.ctx[7].el = true ∧ s.dma[15].st ≠ .wait ∧ s.dma[15].ppend = true) ∧
    fld (State.reset.lineWord 255) 0 9 = 0 ∧
    (let s := (lineState 1 .run false .move false).modCtx 7 (fun c => { c with watchAt := some 0 })
     s.facet.ctx[7].watchAt = some s.tick) ∧
    255#8 ∈ { State.reset.evt with pulsed := [255] }.pulsed ∧ (lineState 0 .run false .move false).evt.tmr[14] ≠ some 0 ∧
    (let s := { lineState 0 .run false .move false with cfg := [(0x26F0, 0x40000000), (0x26F4, 256)] }
     s.clocked = true ∧ s.evt.tmr[15] = some s.tick ∧ s.tmrMode 15 ≠ 0 ∧ s.tmrMode 15 = 1 ∧ s.tick.toNat + 2 ^ 33 < 2 ^ 64) := by decide +kernel

theorem meets_ReflexesFireAndRelease :
    (let s := { State.reset with cfg := [(0x25F8, 0x80000000)] }
     s.clocked = true ∧ s.evt.active.getLsbD 63 = false ∧ s.rfxHolds 63 = true ∧ s.rfxHolds 62 = false) ∧
    (let s := { lineState 0 .run false .move false with cfg := [(0x25F8, 0x9F000000), (0x25FC, 0x400)] }
     s.clocked = true ∧ s.evt.active.getLsbD 63 = true ∧ s.rfxRel 63 = 1 ∧ s.tapCond 63 = false) ∧
    (let s := { lineState 0 .run false .move false with cfg := [(0x25FC, 0x800)], tick := 1 }
     s.rfxRel 63 = 2 ∧ s.evt.trig[63] ≠ some s.tick) ∧
    (let s := { lineState 0 .run false .move false with cfg := [(0x25FC, 0x800)] }
     s.evt.active.getLsbD 63 = true ∧ s.rfxRel 63 ≠ 1 ∧ ¬ s.evt.trig[63] ≠ some s.tick) := by decide +kernel

/-- The input stage of a DI island, settled at level 0. -/
def diOn (f : DigIn → DigIn) : State := isl15 0x0FFF0201 (fun i => { i with din := f { i.din with indet := false } })

theorem meets_InputEdgesQualify :
    (let s := diOn id
     s.isl[15].inputOn = true ∧ TermLevel.above ≠ .band ∧ s.isl[15].din.indet = false ∧ s.isl[15].rawOf .above ≠ s.isl[15].din.raw ∧
      s.pow.hck = true ∧ s.tick.toNat + 16384 < 2 ^ 64 ∧ s.isl[15].rawOf .above ≠ s.isl[15].din.qual) ∧
    (let s := { diOn (fun d => { d with qual := true }) with pow := { State.reset.pow with hck := false } }
     s.isl[15].inputOn = true ∧ s.isl[15].rawOf .above = s.isl[15].din.qual ∧ s.pow.hck = false) ∧
    State.reset.isl[15].inputOn = false ∧
    (let s := diOn (fun d => { d with indet := true, crossed := true, lvl := .above, raw := true })
     s.isl[15].inputOn = true ∧ s.pow.hck = true ∧ s.isl[15].din.indet = true ∧ s.isl[15].din.crossed = true) ∧
    (let s := diOn (fun d => { d with raw := true })
     s.isl[15].din.indet = false ∧ s.isl[15].din.raw ≠ s.isl[15].din.qual ∧ s.isl[15].din.reported = false ∧ s.isl[15].pers ≠ .diCnt) ∧
    (let s := diOn (fun d => { d with indet := true })
     s.isl[15].din.indet = true ∧ s.isl[15].din.crossed = false) ∧
    ((diOn id).isl[15].din.indet = false ∧ (diOn id).isl[15].din.raw = (diOn id).isl[15].din.qual) ∧
    (let s := isl15 3 (fun i => { i with recd := [(0, 3), (0x48, 7), (0x4C, 1)], din := { i.din with indet := false, raw := true } })
     s.isl[15].inputOn = true ∧ s.isl[15].pers = .diCnt ∧ fld (s.isl[15].reg 0x48) 0 2 = 3 ∧ s.isl[15].din.raw ≠ s.isl[15].din.qual ∧
      s.isl[15].din.count + 1 = s.isl[15].reg 0x4C ∧ (s.isl[15].reg 0x48).getLsbD 2 = true) := by decide +kernel

theorem meets_InputsReportAndMeasure :
    (let s := isl15 1 (fun i => { i with recd := [(0, 1), (0x40, 1)], din := { i.din with qual := true, indet := false } })
     s.isl[15].inputOn = true ∧ s.isl[15].din.qual = true ∧ s.isl[15].din.long = false ∧ s.isl[15].reg 0x40 ≠ 0) ∧
    (let s := diOn (fun d => { d with qual := true })
     s.clocked = true ∧ s.isl[15].inputOn = true ∧ s.isl[15].din.qual = true ∧ s.isl[15].din.indet = false ∧
      s.isl[15].din.long = false ∧ s.isl[15].pers.digIn = true ∧ s.isl[15].tbOn = true ∧ s.running 15 = true ∧ s.isl[15].vfLow = false) ∧
    (let s := isl15 2 id
     s.isl[15].wireOn = true ∧ (s.isl[15].reg 0).getLsbD 11 = false ∧ s.isl[15].din.brk = false) ∧
    ((isl15 0x802 id).isl[15].reg 0).getLsbD 11 = true ∧
    (let s := isl15 0x40006 id
     s.isl[15].pers = .aiI ∧ s.isl[15].tbOn = true ∧ s.running 15 = true ∧ s.isl[15].vfLow = false ∧ s.isl[15].ana.loopOvl = false) ∧
    (let s := isl15 3 (fun i => { i with din := { i.din with gEdges := 70000 } })
     s.isl[15].pers = .diCnt ∧ s.isl[15].rungs.rung = 2) := by decide +kernel

theorem meets_PwmPeriods :
    (let s := isl15 5 (fun i => { i with dout := { i.dout with run := true } })
     s.isl[15].dout.run = true ∧ s.clocked = true ∧ s.isl[15].pers = .doPwm) := by decide +kernel

/-- A DO or DO_PWM island by its CFG word, on a tick. -/
def doCheck (cfg : Word) (t : Tick) (f : DigOut → DigOut) : State := { isl15 cfg (fun i => { i with dout := f i.dout }) with tick := t }

/-- The N-th check in a row, N = 16, 64 itk after the switch and the last check; and one in the last itk of a phase of 128 itk. -/
theorem meets_OutputsProtectAndCheck :
    (let s := doCheck 0xF24 128 (fun d => { d with sw := true, cntOl := 15 })
     s.running 15 = true ∧ s.clocked = true ∧ s.isl[15].pers.digOut = true ∧ s.isl[15].dout.short = false ∧
      s.isl[15].dout.inrush = false ∧ s.isl[15].dout.ovl = false ∧ s.isl[15].dout.hotSwitch = false ∧ s.checkDue 15 = true ∧
      s.isl[15].checksOn = true ∧ s.isl[15].dout.sw = true ∧ s.isl[15].dout.cntOl + 1 = s.isl[15].digN) ∧
    (let s := doCheck 0xF04 128 (fun d => { d with cntStuck := 15 })
     s.checkDue 15 = true ∧ s.isl[15].checksOn = true ∧ s.isl[15].dout.sw = false ∧ (s.isl[15].reg 0).getLsbD 5 = false ∧
      s.isl[15].dout.cntStuck + 1 = s.isl[15].digN) ∧
    (let s := doCheck 0xF24 128 (fun d => { d with cntOff := 15 })
     s.checkDue 15 = true ∧ s.isl[15].checksOn = true ∧ s.isl[15].dout.sw = false ∧ (s.isl[15].reg 0).getLsbD 5 = true ∧
      s.isl[15].dout.cntOff + 1 = s.isl[15].digN) ∧
    (let s := { doCheck 0xF05 254 (fun d => { d with sw := true, run := true }) with due := [(256, .pwmPhaseEnd 15)] }
     s.checkDue 15 = true ∧ s.isl[15].checksOn = true) ∧
    (doCheck 0xF24 127 id).checkDue 15 = false ∧ (isl15 1 id).isl[15].pers.digIn = true ∧
    (let s := isl15 9 id
     s.isl[15].pers.anaOut = true ∧ s.running 15 = true ∧ s.isl[15].ana.hotDriver = false ∧ (s.aoTarget 15).2 = true ∧
      s.isl[15].dead = false ∧ s.isl[15].rungs.rung ≠ 0 ∧ s.isl[15].ana.opn = false) := by decide +kernel

/-- A HART island with the modem given, its buffers at the ends of island SRAM, and the least rate for HART. -/
def hart15 (r : Fin 3) (f : Hart → Hart) : State :=
  { isl15 0x16 (fun i => { i with hart := f i.hart }) with rate := 8000 }.modIsl 15 (fun i =>
    { i with recd := [(0, 0x16), (0xD0, 0x000FFBFF)], rungs := { i.rungs with hart := r } })

theorem meets_HartModemWorks :
    (let s := hart15 2 id
     s.clocked = true ∧ s.isl[15].hartRung = 2 ∧ s.isl[15].hartRung ≠ 0 ∧ s.isl[15].hart.st = .idle ∧ 1 ≤ (16#9).toNat ∧ (16#9).toNat ≤ 288 ∧
      s.isl[15].txBase + (16#9).toNat ≤ 0x4000 ∧ s.hartRate = true ∧ s.isl[15].hart.cd = false) ∧
    (hart15 1 id).isl[15].hartRung ≠ 2 ∧ (hart15 2 (fun h => { h with st := .tx })).isl[15].hart.st ≠ .idle ∧
    (hart15 2 (fun h => { h with cd := true })).isl[15].hart.cd = true ∧ (hart15 0 id).isl[15].hartRung = 0 ∧
    { hart15 1 id with rate := 7999 }.hartRate = false ∧
    (hart15 2 (fun h => { h with armed := true })).isl[15].hart.armed = true ∧ (hart15 2 id).isl[15].hart.armed = false ∧
    (let s := hart15 2 (fun h => { h with st := .tx, framed := true, txq := [(0xFF, false), (0x82, false)] })
     s.isl[15].hart.st = .tx ∧ s.isl[15].hart.txq = (0xFF, false) :: (0x82, false) :: [] ∧ s.isl[15].hart.framed = true) ∧
    (let s := hart15 2 (fun h => { h with st := .tx, framed := true, txq := [(0, true)] })
     s.isl[15].hart.st = .tx ∧ s.isl[15].hart.txq = [(0, true)] ∧ s.isl[15].hart.framed = true ∧ s.hartRate = true ∧
      { s with rate := 7999 }.hartRate = false) ∧
    (let s := hart15 2 (fun h => { h with st := .rx, storing := true, stored := 15 })
     s.isl[15].hart.st = .rx ∧ s.isl[15].hartRung = 2 ∧ s.isl[15].hart.storing = true ∧ s.isl[15].hart.stored < 511 ∧
      s.isl[15].rxBase + s.isl[15].hart.stored < 0x4000 ∧ swf (fun _ => (0 : Byte)) s.isl[15].mem = true ∧
      s.isl[15].hart.stored < 512) ∧
    (let s := hart15 1 (fun h => { h with st := .rx })
     s.isl[15].hart.st = .rx ∧ s.isl[15].hartRung = 1) ∧
    (hart15 2 (fun h => { h with st := .wait })).isl[15].hart.st = .wait ∧
    (let s := hart15 1 id
     s.clocked = true ∧ s.running 15 = true ∧ (s.pers 15).hart = true ∧ s.isl[15].hartRung = 1 ∧ s.isl[15].hart.st = .idle ∧ s.hartRate = true ∧
      s.isl[15].hart.rxq.length < 16) ∧
    (let s := hart15 1 (fun h => { h with st := .tx, txq := [(1, false)] })
     s.isl[15].hart.st = .tx ∧ s.isl[15].hart.framed = false ∧ s.isl[15].hart.txq.length < 2) ∧
    (let s := hart15 1 (fun h => { h with st := .tx, txq := [(1, false), (2, true)] })
     s.isl[15].hart.framed = false ∧ 2 ≤ s.isl[15].hart.txq.length) ∧
    16 ≤ (hart15 1 (fun h => { h with rxq := List.replicate 16 (0, false, false) })).isl[15].hart.rxq.length ∧
    (let s := hart15 1 (fun h => { h with rxq := [(0xFF, true, true)] })
     (s.pers 15).hart = true ∧ s.isl[15].hart.rxq = (0xFF, true, true) :: [] ∧ s.link.readq.length < 64) := by decide +kernel

/-- A host-sequenced, triggered or free converter of an AI_I island, by its SEQ word. -/
def adc15 (seq : Word) (f : Adc → Adc) : State :=
  isl15 6 (fun i => { i with recd := [(0, 6), (0x150, seq)], adc := f { i.adc with st := .idle } })

/-- The conversion of the least time that started at tick 0 is in its last itk. -/
def conv15 (pers : Word) (entry : Word) (t : Tick) (f : Adc → Adc) : State :=
  { (adc15 1 (fun a => f { a with st := .regular, conv := true })).modIsl 15 (fun i =>
      { i with recd := [(0, pers), (0x100, entry), (0x150, 0x10000)] }) with tick := t }

theorem meets_ConversionsAndResults :
    (let s := owed (.conversionStart 15) (adc15 0 (fun a => { a with st := .regular }))
     s.clocked = true ∧ s.isDue (.conversionStart 15) = true ∧ s.isl[15].adcMode ≠ 0 ∧ s.isl[15].hold = false ∧
      s.isl[15].adc.conv = false ∧ s.isl[15].adc.work = true) ∧
    (let s := conv15 6 0x01000000 46 id
     s.isl[15].adc.conv = true ∧ ¬ s.tick + 2 < s.isl[15].adc.convAt + BitVec.ofNat 64 s.isl[15].convTk ∧ s.isl[15].adc.cal = false ∧
      s.isl[15].adc.st = .regular ∧ s.isl[15].adc.done + 1 < entryConvs s.isl[15].curEntry) ∧
    (let s := conv15 6 0x01000000 46 (fun a => { a with done := 1 })
     s.isl[15].adc.conv = true ∧ ¬ s.tick + 2 < s.isl[15].adc.convAt + BitVec.ofNat 64 s.isl[15].convTk ∧
      entryConvs s.isl[15].curEntry ≤ s.isl[15].adc.done + 1) ∧
    (let s := conv15 6 0x01000000 45 id
     s.tick + 2 < s.isl[15].adc.convAt + BitVec.ofNat 64 s.isl[15].convTk) ∧
    (adc15 0 id).isl[15].adc.conv = false ∧
    (let s := conv15 10 0 46 id
     s.isl[15].adc.conv = true ∧ ¬ s.tick + 2 < s.isl[15].adc.convAt + BitVec.ofNat 64 s.isl[15].convTk ∧ s.isl[15].pers = .aoV ∧
      s.isl[15].ana.tbOpen = false) ∧
    (let s := adc15 0 (fun a => { a with ready := some { slot := 19, code := 0x3FFFF, ovr := true, redo := false, last := 1 } })
     s.isl[15].adc.ready = some { slot := 19, code := 0x3FFFF, ovr := true, redo := false, last := 1 }) := by decide +kernel

theorem meets_ConversionsAndResults_rounds :
    (let s := adc15 0 id
     s.mayRound 15 = true ∧ s.isl[15].adc.st = .idle ∧ s.isl[15].adc.cal = false ∧ s.isl[15].adc.calPend = false ∧
      s.running 15 = true ∧ s.link.readq.length < 64) ∧
    (adc15 0 (fun a => { a with inRound := true })).mayRound 15 = false ∧
    (owed (.roundStart 15) (adc15 0x40010000 id)).mayRound 15 = true ∧ (adc15 0x40010000 id).mayRound 15 = false := by decide +kernel

theorem meets_ConverterTriggers :
    (let s := adc15 0x1100 (fun a => { a with st := .regular })
     s.clocked = true ∧ fld (s.isl[15].reg 0x150) 8 2 = 1 ∧ s.isl[15].adcMode ≠ 0 ∧ s.isl[15].ilen ≠ 0 ∧ s.isl[15].hold = false ∧
      s.isl[15].adc.st ≠ .injected) ∧
    (let s := fun p => adc15 0x1100 (fun a => { a with st := .injected, ipend := p })
     (s false).isl[15].adc.st = .injected ∧ (s false).isl[15].adc.ipend = false ∧ (s true).isl[15].adc.ipend = true) ∧
    fld ((adc15 0 id).isl[15].reg 0x150) 8 2 ≠ 1 ∧
    (let s := adc15 0x40010000 id
     s.isl[15].adcMode ≠ 0 ∧ s.isl[15].haseq = false ∧ s.isl[15].triggered = true ∧ s.isl[15].adc.inRound = false ∧
      s.isl[15].adc.st ≠ .injected ∧ s.isl[15].adc.cal = false ∧ s.isl[15].hold = false ∧
      (s.due.any (fun e => decide (e.2 = .roundStart 15))) = false) ∧
    (adc15 0 id).isl[15].triggered = false ∧
    (let s := adc15 0x80010000 id
     s.isl[15].adcMode ≠ 0 ∧ s.isl[15].haseq = true ∧ (0#4).toNat < s.isl[15].regSeq.length ∧ s.isl[15].adc.convPend = none ∧
      s.isl[15].adc.work = false ∧ s.isl[15].adc.calPend = false ∧ s.isl[15].adc.inRound = false ∧ s.isl[15].hold = false) ∧
    (adc15 0 id).isl[15].haseq = false ∧
    (let s := adc15 0 id
     s.isl[15].adcMode ≠ 0 ∧ s.isl[15].hold = false ∧ s.isl[15].adc.work = false) ∧ (adc15 0x80010000 id).isl[15].haseq = true := by
  decide +kernel
/-! ## Hypotheses that are met: power, safety, faults, resets, test -/

/-- A committed DI slate for island 15, of which isl15 is the RUNNING state. -/
def led15 (f : Island → Island) : State :=
  { isl15 1 f with slate := { State.reset.slate with committed := true } }

theorem meets_LedgerAndRungs :
    (led15 id).clocked = true ∧ (led15 id).present 15 = true ∧ (led15 id).ledq = [] ∧
    (let s := { led15 id with tick := 4, ledq := [(4, .write 15 0xFFFFFFFF .link), (4, .readmit .link)] }
     s.tick.toNat % 4 = 0 ∧ s.busy = false ∧ s.slate.st ≠ .committing ∧ (4 : Tick) ≤ s.tick ∧
      s.ledq = (4, .write 15 0xFFFFFFFF .link) :: [(4, .readmit .link)] ∧ s.isl[15].led.pendingBit = false) ∧
    { led15 id with ledq := [(0, .readmit .link)] }.ledq = (0, .readmit .link) :: [] ∧
    (let s := led15 (fun i => { i with rungNext := some Rungs.zero, led := { i.led with pending := true } })
     s.clocked = true ∧ s.running 15 = true ∧ s.isl[15].rungNext ≠ none ∧ s.isl[15].led.pending = true ∧ s.isl[15].led.waitGr = false) := by
  decide +kernel

theorem meets_IslandsPowerUp :
    (let s := (led15 id).modIsl 15 (fun i => { i with power := .lost })
     s.clocked = true ∧ s.pow.ps ≠ .dormant ∧ s.pow.ps ≠ .toDormant ∧ (0x8000#32).getLsbD 15 = true ∧ s.mayPower 15 = true ∧ s.isl[15].powered = false) ∧
    (led15 id).isl[15].powered = true ∧ (State.reset.mayPower 0 = false ∧ State.reset.isl[0].powered = false) ∧
    (0x8000#32).getLsbD 0 = false ∧
    { State.reset with pow := { State.reset.pow with ps := .dormant } }.pow.ps = .dormant ∧
    (let s := (led15 id).modIsl 15 (fun i => { i with power := .charging, cvOk := false, charging := true, held := [(8, 20), (3, 0)] })
     s.isl[15].power = .charging ∧ s.isl[15].cvOk = false ∧ s.isl[15].charging = true ∧ s.isl[15].held = (8, 20) :: [(3, 0)] ∧
      s.isl[15].led.waitGr = false) ∧
    (led15 id).isl[15].held = [] ∧
    (let s := { (led15 id).modIsl 15 (fun i => { i with power := .charging }) with tan := { State.reset.tan with role := .standby } }
     s.isl[15].power = .charging ∧ s.isl[15].cvOk = true ∧ s.tan.role = .standby) := by decide +kernel

theorem meets_IslandsLostAndJudged :
    ((led15 id).clocked = true ∧ (led15 id).running 15 = true ∧ (led15 id).isl[15].powered = true) ∧
    (let s := (led15 id).modIsl 15 (fun i => { i with power := .charging })
     s.isl[15].power = .charging ∧ s.isl[15].cvOk = true) ∧
    (let s := fun k => { led15 (fun i => { i with winJudge := true, winBad := k, winPrev := 8 }) with tick := 8192 }
     (s 0).clocked = true ∧ (s 0).tick.toNat % 8192 = 0 ∧ (s 0).isl[15].winJudge = true ∧ 125 * (s 0).isl[15].winPrev + 200 < 1201 ∧
      1200 ≤ 125 * (s 0).isl[15].winPrev + 200 ∧ (s 0).isl[15].winBad = 0 ∧ (s 1).isl[15].winBad = 1) ∧
    (led15 id).isl[15].winJudge = false := by decide +kernel

theorem meets_IslandSafeDemands :
    (let s := { led15 id with safe := { State.reset.safe with safeN := true } }
     s.markAll = true ∧ s.isl[15].powered = true) ∧
    ((led15 id).clocked = true ∧ (led15 id).running 15 = true ∧ (led15 id).isl[15].safe.therm = false) ∧ State.reset.isl[15].powered = false := by decide +kernel

/-- The guard is armed and its integrator charged. -/
def guard15 (hck : Bool) : State :=
  { led15 id with cfg := [(0x14C, 0x80000000)], safe := { State.reset.safe with charged := true },
                  pow := { State.reset.pow with hck := hck } }

theorem meets_SafeLatches :
    (let s := guard15 true
     s.pow.k4 = false ∧ s.safe.safeN = false ∧ s.pow.hck = true ∧ s.armed = true ∧ s.safe.charged = true ∧ s.safe.still = false) ∧
    (let s := guard15 false
     s.safe.safeN = false ∧ s.pow.hck = false ∧ s.armed = true ∧ s.safe.charged = true ∧ s.safe.still = false) ∧
    State.reset.armed = false ∧ State.reset.safe.charged = false ∧ State.reset.safe.safeHigh = true ∧
    { State.reset.safe with safeHigh := false }.safeHigh = false ∧ Master.dma 15 ≠ .link ∧ State.reset.clocked = true ∧
    (owed .integratorDischarged (guard15 true)).isDue .integratorDischarged = true := by decide +kernel

/-- The CORE channel runs with WMIN 100 and WMAX 1024 since tick 0. -/
def flint15 (cfg : Word) (t : Tick) : State :=
  { State.reset with tick := t, cfg := [(0x5000, cfg), (0x5004, 100), (0x5020, cfg), (0x5024, 100)],
                     flint := { State.reset.flint with host := { FlintCh.reset with st := .running },
                                                       core := { FlintCh.reset with st := .running } } }

theorem meets_FlintJudgesKicksAndBoots :
    (let s := flint15 0x40000008 1023
     s.clocked = true ∧ (s.flintCh .host).st = .running ∧ s.mayKick .link .host = true ∧ s.flintWmin .host ≤ s.elapsed .host ∧
      s.elapsed .host < s.flintWmax .host ∧ s.flintMode .host ≠ 2 ∧ (0#16 ≠ 0xC35A#16) ∧ s.flint.resetDue = false) ∧
    (let s := flint15 0x80000008 100
     (s.flintCh .core).st = .running ∧ s.mayKick (.thread 7) .core = true ∧ s.flintWmin .core ≤ s.elapsed .core ∧
      s.elapsed .core < s.flintWmax .core ∧ s.flintMode .core = 2 ∧ s.flintQha .core = false) ∧
    (flint15 0x40000000 99).elapsed .host < (flint15 0x40000000 99).flintWmin .host ∧
    (flint15 0x40000000 0).mayKick (.dma 15) .host = false ∧
    (flint15 0x40000000 1024).flintWmax .host ≤ (flint15 0x40000000 1024).elapsed .host ∧
    (mayAsk .link .core = true ∧ (flint15 0xA0000000 0).flintQha .core = true) ∧
    (1#16 ≠ 0 ∧ State.reset.inRom 0 = true ∧ Master.thread 1 ≠ .thread 0) ∧
    ({ State.reset.flint with armed := true }.armed = true ∧ { State.reset.flint with armed := true }.core.st ≠ .expired) ∧
    State.reset.flint.armed = false ∧ (owed .budgetExpiry State.reset).isDue .budgetExpiry = true ∧
    State.reset.isDue .budgetExpiry = false := by decide +kernel

/-- A fault whose class acts on this tick. -/
def acting (cls : BitVec 2) (m : Byte) (mtx : BitVec 5) : State :=
  { isl15 1 id with fault := { State.reset.fault with react := [{ FaultRec.reset with cls := cls, mid := m, mtx := mtx }] } }

/-- A Halt whose quiet period is over, with K = 2 and one recovery on record where told so. -/
def halted (h : List Tick) (e : Bool) : State :=
  { isl15 1 id with tick := 256, cfg := [(0x6028, 1), (0x602C, 2)],
                    fault := { State.reset.fault with halt := true, hist := h, escalating := e } }

theorem meets_ReactionsAndRecovery :
    (∀ c : BitVec 2, (acting c (mid (.island 15)) 0).clocked = true ∧ (acting c (mid (.island 15)) 0).fault.react =
        [{ FaultRec.reset with cls := c, mid := mid (.island 15), mtx := 0 }] ∧ (0 : Tick) ≤ (acting c (mid (.island 15)) 0).tick ∧
        (acting c (mid (.island 15)) 0).fault.lockout = false ∧ (acting c (mid (.island 15)) 0).slate.st ≠ .committing ∧
        (acting c (mid (.island 15)) 0).running 15 = true ∧ (acting c (mid (.island 15)) 0).fault.escalating = false) ∧
    ((0#5).getLsbD 3 = false ∧ (8#5).getLsbD 3 = true) ∧
    { acting 0 (mid (.thread 7)) 8 with facet := (ctx7 0 0).facet }.facet.ctx[7].st ≠ .free ∧
    (let s := halted [] false
     s.clocked = true ∧ s.fault.halt = true ∧ s.fault.escalating = false ∧ s.fault.restart + BitVec.ofNat 64 (256 * (s.cfgAt 0x6028).toNat) ≤ s.tick ∧
      s.escalates = false) ∧
    (halted [0] false).escalates = true ∧ State.reset.fault.halt = false ∧
    ((owed .escalationLockout (halted [] true)).isDue .escalationLockout = true ∧ (halted [] true).fault.escalating = true ∧ (halted [] true).fault.lockout = false ∧ (halted [] true).slate.st ≠ .committing) ∧
    State.reset.fault.escalating = false := by decide +kernel

/-- A fault of source 1 with tag 1 waits for a decision until tick 100. -/
def waiting (t : Tick) : State :=
  { State.reset with tick := t, fault := { State.reset.fault with dq := [{ rec1 0x18 with act := 100, mtx := 2 }] } }

theorem meets_DecisionsAndChannelClears :
    (let s := waiting 99
     s.clocked = true ∧ { rec1 0x18 with act := 100, mtx := 2 } ∈ s.fault.dq ∧ (rec1 0x18).dtag = 1 ∧ s.tick < 100 ∧
      (∀ y ∈ s.fault.dq, y.dtag = 1 → y = { rec1 0x18 with act := 100, mtx := 2 }) ∧ s.fault.logq.length < 16 ∧
      (∀ x ∈ s.fault.dq, x.dtag = 1 → s.tick < x.act) ∧ (∀ x ∈ s.fault.dq, x.dtag = 0 → x.act ≤ s.tick)) ∧
    (let s := waiting 100
     { rec1 0x18 with act := 100, mtx := 2 } ∈ s.fault.dq ∧ (100 : Tick) ≤ s.tick ∧
      (∀ y ∈ s.fault.dq, y.dtag = 1 → y = { rec1 0x18 with act := 100, mtx := 2 }) ∧ s.fault.logq.length < 16 ∧
      s.fault.lockout = false ∧ ∀ x ∈ s.fault.dq, x.dtag = 1 → x.act ≤ s.tick) ∧
    ((0x8000#16).getLsbD 15 = true ∧ (0x8000#16).getLsbD 0 = false ∧
      { State.reset.fault with chFault := 0x8000 }.chFault.getLsbD 15 = true) ∧
    (State.reset.pow.ftm = false ∧ { State.reset.pow with ftm := true }.ftm = true ∧ srcListed 0x31 = true ∧ Master.thread 7 ≠ .link) ∧
    (State.reset.pow.hot = false ∧ { State.reset.pow with hot := true }.hot = true) := by decide +kernel

/-- State.reset with another power state and role. -/
def powered (f : Power → Power) (r : Role) : State :=
  { isl15 1 id with pow := f State.reset.pow, tan := { State.reset.tan with role := r } }

theorem meets_K4ResetsAndDeferral :
    ((powered id .standby).pow.k4 = false ∧ (powered id .standby).tan.role ≠ .active) ∧
    (powered (fun p => { p with deferral := true }) .standby).pow.deferral = true ∧
    (powered (fun p => { p with k4 := true, vhLost := true }) .solo).pow.k4 = true ∧
    ((powered (fun p => { p with k4 := true }) .solo).pow.k4 = true ∧ (powered (fun p => { p with k4 := true }) .solo).pow.hck = true) ∧
    (powered (fun p => { p with hck := false }) .solo).pow.hck = false ∧
    (let s := powered id .active
     s.tan.role = .active ∧ s.pow.hck = true ∧ s.pow.k4 = false ∧ s.pow.deferral = false ∧ s.tick.toNat < 2 ^ 63) := by
  decide +kernel

theorem meets_SoftAndFlintResets :
    (fld (0xA5C30001#32) 16 16 = 0xA5C3 ∧ (0xA5C30001#32).getLsbD 0 = true ∧ State.reset.pow.k2due = false) ∧
    (fld (0xA5C20001#32) 16 16 ≠ 0xA5C3 ∧ (0xA5C30000#32).getLsbD 0 = false) ∧
    (let s := owed .softReset (powered (fun p => { p with k2due := true }) .solo)
     s.clocked = true ∧ s.isDue .softReset = true ∧ s.pow.k2due = true) ∧
    (owed .flintReset State.reset).isDue .flintReset = true ∧ State.reset.isDue .softReset = false ∧
    ((powered (fun p => { p with k2due := true }) .solo).pow.k2due = true ∧ State.reset.slate.st ≠ .committing ∧
      State.reset.flint.resetDue = false ∧ State.reset.slicing = false) ∧
    { State.reset with nvm := { State.reset.nvm with st := .busy, jobs := [{ kind := .erase, target := 0, data := [],
                                                                              after := .plain }] } }.slicing = true ∧
    { State.reset.flint with resetDue := true }.resetDue = true := by decide +kernel

theorem meets_SuppliesClockAndPowerStates :
    (let s := isl15 1 (fun i => { i with safe := { i.safe with noCarrier := true } })
     s.running 15 = true ∧ s.isl[15].safe.noCarrier = true ∧ s.isl[15].cvOk = true ∧ s.pow.vmicaOk = true) ∧
    (let s := owed (.vmicaHoldEnd 15) (isl15 1 (fun i => { i with safe := { i.safe with noCarrier := true } }))
     s.clocked = true ∧ s.isDue (.vmicaHoldEnd 15) = true ∧ s.pow.vmicaOk = true ∧ s.isl[15].safe.noCarrier = true) ∧
    (powered (fun p => { p with vmicaOk := false }) .solo).pow.vmicaOk = false ∧ (isl15 1 id).isl[15].pers ≠ .doPwm ∧
    (let s := powered (fun p => { p with hck := false }) .solo
     s.pow.hck = false ∧ s.pow.k4 = false ∧ { s.safe with recSafeN := true }.recSafeN = true ∧ s.isl[15].inSafe = false) ∧
    (isl15 1 id).pow.hck = true ∧
    (let s := powered id .solo
     s.pow.ps = .run ∧ s.running 15 = true ∧ s.pers 15 ≠ .off ∧ s.tan.role ≠ .active ∧ s.pow.ps ≠ .dormant ∧ s.pow.ps ≠ .toDormant) ∧
    (powered id .active).tan.role = .active ∧
    (let s := powered (fun p => { p with ps := .park }) .solo
     s.clocked = true ∧ s.pow.ps = .park ∧ s.pow.ps ≠ .run) ∧
    (let s := { powered (fun p => { p with ps := .parking }) .solo with tick := 8, ledq := [(8, .unpark .link)] }
     s.pow.ps = .parking ∧ s.tick.toNat % 4 = 0 ∧ s.busy = false ∧ s.slate.st ≠ .committing ∧ (8 : Tick) ≤ s.tick ∧
      s.ledq = (8, .unpark .link) :: []) ∧
    (let s := { powered (fun p => { p with ps := .dormant, resume := 0x8000 }) .solo with slate := (led15 id).slate }.modIsl 15
        (fun i => { i with power := .bedrock })
     s.pow.ps = .dormant ∧ s.pow.resume.getLsbD 15 = true ∧ s.mayPower 15 = true ∧ s.isl[15].powered = false) := by decide +kernel

/-- Islands 14 and 15 run with rung 1 admitted. -/
def loop15 (f : Loopback → Loopback) (hold : Bool) : State :=
  (isl15 6 (fun i => { i with loop := f i.loop, hold := hold, led := { i.led with admRung := 1 } })).modIsl 14 (fun i =>
    { i with power := .running, led := { i.led with admRung := 1 } })

theorem meets_IslandLoopbacks :
    (let s := loop15 id false
     s.clocked = true ∧ s.present 15 = true ∧ s.loopBusy 15 = false ∧ s.isl[15].loop.term ≠ 3 ∧ s.running 15 = true ∧ s.isl[15].shadow = false ∧
      s.loopRefusal 15 2 = none ∧ s.loopRefusal 15 3 = none ∧ s.loopRefusal 15 4 = none ∧ (2#2 ≠ 3)) ∧
    (isl15 6 id).loopRefusal 15 2 = some 2 ∧ (loop15 (fun l => { l with st := 1 }) false).loopBusy 15 = true ∧
    (let s := loop15 (fun l => { l with st := 1, depth := 2, doneAt := some 0 }) true
     s.running 15 = true ∧ s.isl[15].hold = true ∧ s.isl[15].loop.st = 1 ∧ 2 ≤ s.isl[15].loop.depth.val ∧
      s.isl[15].loop.peer = false ∧ s.isl[15].loop.doneAt = some 0 ∧ (0 : Tick) ≤ s.tick) ∧
    (let s := loop15 (fun l => { l with doneAt := some 1 }) true
     s.isl[15].loop.doneAt = some 1 ∧ s.tick < 1) ∧ (loop15 id true).isl[15].loop.doneAt = none ∧
    (let s := (loop15 (fun l => { l with peer := true }) true).modIsl (peerOf 15) (fun i => { i with loop := { i.loop with st := 1, cross := true } })
     s.isl[15].loop.peer = true ∧ s.isl[peerOf 15].loop.st = 1 ∧ s.isl[peerOf 15].loop.cross = true) := by decide +kernel

theorem meets_TestAccess :
    ((powered (fun p => { p with testLow := true }) .solo).pow.testLow = true ∧ State.reset.pow.ustep ≠ 2 ∧
      unlockWord 0 = unlockWord State.reset.pow.ustep) ∧
    (powered (fun p => { p with testLow := true, ustep := 2 }) .solo).pow.ustep = 2 ∧ State.reset.pow.testLow = false ∧
    (0#32 ≠ unlockWord State.reset.pow.ustep) ∧ State.reset.pow.ftm = false ∧ State.reset.markAll = false ∧ State.reset.clocked = true ∧
    (let s := powered (fun p => { p with hck := false }) .solo
     s.pow.hck = false ∧ s.pow.k4 = false) := by decide +kernel
/-! ## Hypotheses that are met: cells, link, slates, DMA, store, tandem -/

theorem meets_OutputAndCommandCells :
    (let s := isl15 4 id
     s.clocked = true ∧ s.running 15 = true ∧ s.isl[15].pers.output = true ∧ s.isl[15].prep = false ∧ s.isl[15].hold = false ∧ s.isl[15].shadow = false ∧
      s.isl[15].lane.force = false ∧ s.isl[15].recShadow = none) ∧
    (isl15 4 (fun i => { i with lane := { i.lane with force := true } })).isl[15].lane.force = true ∧
    (isl15 9 id).isl[15].engineTk = 0 ∧
    (let s := (isl15 0x10000009 id)
     s.running 15 = true ∧ s.isl[15].pers.anaOut = true ∧ s.isl[15].engineTk ≠ 0 ∧ s.isl[15].lane.force = false) ∧
    (isl15 4 (fun i => { i with prep := true })).isl[15].prep = true ∧ (isl15 4 (fun i => { i with hold := true })).isl[15].hold = true ∧
    (let s := isl15 4 (fun i => { i with shadow := true })
     s.isl[15].shadow = true ∧ s.isl[15].shadowUntilCmd = false) ∧
    (isl15 4 (fun i => { i with recShadow := some [(0, 5), (0x13FFC, 1)] })).isl[15].recShadow = some [(0, 5), (0x13FFC, 1)] := by
  decide +kernel

/-- Island 15 holds a cell of master m and its oldest read is that of m. -/
def cell15 (m : Master) (d : DownData) (a : Word) : State :=
  isl15 3 (fun i => { i with waddr := a, reads := [(m, 0)], down := [{ cellTo d m a with sent := true }] })

theorem meets_IslandAccessCells :
    (let s := cell15 .link (.sync 0) 0
     s.clocked = true ∧ s.running 15 = true ∧ flying (.rdata 5) s.isl[15].up = none ∧ s.isl[15].reads.head? = some (.link, 0)) ∧
    (let s := (cell15 (.dma 15) (.sync 0) 0).modCh 15 (fun h => { h with st := .move, reading := 8 })
     s.isl[15].reads.head? = some (.dma 15, 0) ∧ s.dma[15].st = .move ∧ s.dma[15].reading ≠ 0) ∧
    (let s := (cell15 (.thread 7) (.sync 0) 0).modCtx 7 (fun c => { c with st := .stall, stall := .load 15 .word 15 0x0083FFFC none false })
     s.isl[15].reads.head? = some (.thread 7, 0) ∧ s.facet.ctx[7].stall = .load 15 .word 15 0x0083FFFC none false) ∧
    (cell15 .slate (.wdata 5) 0x80003FFC).requester 15 (.wdata 5) = .slate ∧
    (let s := cell15 .link (.wdata 5) 0x80003FFC
     s.running 15 = true ∧ s.requester 15 (.wdata 5) ≠ .slate ∧ s.isl[15].waddr.getLsbD 31 = true ∧ Memory.wf s.isl[15].mem = true) ∧
    (let s := cell15 .link (.wdata 5) 0x44
     s.isl[15].waddr.getLsbD 31 = false ∧ fld s.isl[15].waddr 0 14 = 0x44 ∧ s.isl[15].pers = .diCnt) := by decide +kernel

theorem meets_IslandReportsArrive :
    ((isl15 6 id).clocked = true ∧ (isl15 6 id).running 15 = true ∧ (0xFFFFFFFF#32).getLsbD 18 = true ∧ (isl15 6 id).isl[15].hold = false ∧
      (0xFFFBFFFF#32).getLsbD 18 = false ∧ (isl15 6 id).isl[15].imgFrozen = none ∧ diagSource 0x44 = true) ∧
    (let s := loop15 (fun l => { l with st := 1, depth := 1 }) false
     s.isl[15].loop.st = 1 ∧ s.isl[15].loop.depth = 1) ∧
    (let s := loop15 (fun l => { l with st := 1, depth := 2 }) true
     s.isl[15].loop.st = 1 ∧ 2 ≤ s.isl[15].loop.depth.val) := by decide +kernel

/-- Two cells on their way to island 15 in front of one that has not left; the first left on tick 0. -/
def flying2 (t : Tick) (f : DownCell → DownCell) : State :=
  { isl15 4 (fun i => { i with
      down := [f { cellTo (.outword 5) .link 0 with sent := true }, { cellTo (.outword 6) .link 0 with sent := true, slot := 8, seq := 1 },
               cellTo (.cmd .apply) .slate 0],
      up := [{ data := .rungAct, req := .link, sync := false, sent := true, since := 0, slot := 0, seq := 0, bad := false, got := true,
               failed := false, again := false, addr := 0, xref := 0 }] }) with tick := t }

/-- Acknowledged 24 tk after its slot; corrupted for the first time; and, an output word of the link, for the second time. -/
theorem meets_CellsAreRepeatedThenDropped :
    (let s := flying2 23 id
     s.clocked = true ∧ ∃ c l, s.isl[15].down = c :: l ∧ c.sent = true) ∧
    (∀ c ∈ State.reset.isl[15].down, c.sent = false) ∧ (∀ c ∈ State.reset.isl[15].up, c.sent = false) ∧
    (∃ c l, (flying2 24 id).isl[15].up = c :: l ∧ c.sent = true ∧ c.slot + 24 ≤ (flying2 24 id).tick ∧ c.got = true ∧ c.bad = false) ∧
    (∃ c l, (flying2 24 (fun c => { c with got := true })).isl[15].down = c :: l ∧ c.sent = true ∧ c.slot + 24 ≤ (24 : Tick) ∧
      c.got = true ∧ c.bad = false) ∧
    (∃ c l, (flying2 24 (fun c => { c with got := true, bad := true })).isl[15].down = c :: l ∧ c.bad = true ∧ c.failed = false) ∧
    (∃ c l, (flying2 24 (fun c => { c with failed := true })).isl[15].down = c :: l ∧ c.got = false ∧ c.failed = true ∧
      c.data = .outword 5 ∧ c.req ≠ .slate ∧ c.sync = false) := by
  refine ⟨⟨by decide +kernel, _, _, rfl, rfl⟩, by decide +kernel, by decide +kernel, ⟨_, _, rfl, rfl, by decide +kernel, rfl, rfl⟩,
    ⟨_, _, rfl, rfl, by decide +kernel, rfl, rfl⟩, ⟨_, _, rfl, rfl, rfl⟩, ⟨_, _, rfl, rfl, rfl, rfl, by decide, rfl⟩⟩

/-- The link in a state, with a frame whose header has come. -/
def link15 (st : LinkState) (hdr : Option Word) (f : Link → Link) : State :=
  { isl15 4 id with link := f { State.reset.link with
      st := st, eFree := false, cur := hdr.map (fun h => { hdr := h, shortTail := false, tick := 0, snap := [], void := false, busy := false }) } }

theorem meets_LinkTrainsAndHeaders :
    (State.reset.awake = true ∧ State.reset.link.lmode = false ∧ State.reset.link.st = .untrained ∧ State.reset.linkReady = false ∧
      State.reset.link.st ≠ .ready) ∧
    (let s := { link15 .lock none id with tick := 1504 }
     s.awake = true ∧ s.link.st = .lock ∧ s.tick ≤ s.link.lockAt + 8 * 188) ∧
    (let s := { link15 .echo none (fun l => { l with echoAt := 1504 }) with tick := 1511 }
     s.link.st = .echo ∧ s.awake = true ∧ (7 : Nat) < 8 ∧ s.tick = s.link.echoAt + BitVec.ofNat 64 7) ∧
    (let s := link15 .ready none (fun l => { l with retrain := true })
     s.clocked = true ∧ s.linkReady = true ∧ s.link.deaf = false ∧ s.link.retrain = true ∧ s.link.st = .ready ∧ s.link.lmode = false ∧ s.midFrame = false) ∧
    ((15 : Nat) < 16 ∧ fld (0xB4100018#32) 24 8 = 0xB4 ∧ fld (0xB5100018#32) 24 8 ≠ 0xB4 ∧
      lenLegal (fld (0xB4100018#32) 20 4) (fld (0xB4100018#32) 0 16) = true ∧ fld (0xB4100018#32) 20 4 = 1 ∧
      lenLegal (fld (0xB4100017#32) 20 4) (fld (0xB4100017#32) 0 16) = false ∧ fld (0xB4600400#32) 20 4 ≠ 1 ∧
      lenLegal (fld (0xB4600400#32) 20 4) (fld (0xB4600400#32) 0 16) = true) ∧
    (let s := link15 .ready (some 0xB4600001) (fun l => { l with lmode := true })
     s.awake = true ∧ s.link.lmode = true ∧ s.link.cur ≠ none) ∧
    (let s := link15 .ready (some 0xB4100018) (fun l => { l with deaf := true, bad := 15 })
     s.linkReady = true ∧ s.link.deaf = true ∧ s.midFrame = true ∧ ¬ s.link.bad + 1 < s.link.downLimit.toNat) ∧
    (link15 .ready none (fun l => { l with bad := 14 })).link.bad + 1 < (link15 .ready none id).link.downLimit.toNat := by decide +kernel

/-- The command frame in front of the queue. -/
def cmdFrame (t : BitVec 4) (p : List Word) (k : Nat) : CmdFrame := { type := t, seq := 15, payload := p, idx := k, stop := false, seen := 0 }

/-- An empty IDLE frame and a REGR frame of one word, one tick before their effect tick and on it; a voided frame. -/
theorem meets_FramesAreJudged :
    (let s := { link15 .ready (some 0xB4300001) id with tick := 25 }
     s.awake = true ∧ frameLen (0xB4300001#32) = [0x20200000#32].length ∧ frameType (0xB4300001#32) = 3 ∧
      s.tick < (0 : Tick) + BitVec.ofNat 64 (s.link.wordTk * ([0x20200000#32].length + 2) + 2)) ∧
    (let s := { link15 .ready (some 0xB4300001) (fun l => { l with expSeq := 0 }) with tick := 26 }
     (0 : Tick) + BitVec.ofNat 64 (s.link.wordTk * ([0x20200000#32].length + 2) + 2) ≤ s.tick ∧ s.link.loopAct ≠ 2 ∧
      (0#32 ≠ crc32c [0xB4300001, 0x20200000]) ∧ (s.link.expSeq - frameSeq (0xB4300001#32)).toNat = 0 ∧ s.link.queue.length < 2 ∧
      [0x20200000#32].length + s.link.readq.length ≤ 64) ∧
    2 ≤ (link15 .ready none (fun l => { l with queue := [cmdFrame 3 [0] 0, cmdFrame 3 [0] 0] })).link.queue.length ∧
    64 < [0x20200000#32].length +
      (link15 .ready none (fun l => { l with readq := List.replicate 64 { val := 0, err := false, wait := none } })).link.readq.length ∧
    (let s := link15 .ready (some 0xB4300001) (fun l => { l with expSeq := 8 })
     s.link.eFree = false ∧ 1 ≤ (s.link.expSeq - frameSeq (0xB4300001#32)).toNat ∧
      (s.link.expSeq - frameSeq (0xB4300001#32)).toNat ≤ 8) ∧
    (let s := link15 .ready (some 0xB4300001) (fun l => { l with expSeq := 9 })
     s.link.eFree = false ∧ 8 < (s.link.expSeq - frameSeq (0xB4300001#32)).toNat) ∧
    (frameType (0xB4600000#32) = 6 ∧ frameLen (0xB4600000#32) = ([] : List Word).length ∧ frameType (0xB4100018#32) = 1 ∧
      frameType (0xB4200002#32) = 2 ∧ frameType (0xB4400002#32) = 4) ∧
    (link15 .ready none (fun l => { l with loopAct := 2 })).link.loopAct = 2 ∧
    (∃ f, (link15 .ready (some 0xB4300001) (fun l => { l with cur := l.cur.map (fun c => { c with void := true }) })).link.cur = some f ∧
      f.void = true) := by
  refine ⟨by decide +kernel, by decide +kernel, by decide +kernel, by decide +kernel, by decide +kernel, by decide +kernel, by decide +kernel,
    rfl, _, rfl, rfl⟩

theorem meets_CycleFrameApplies :
    (let s := { link15 .ready (some 0xB4100018) id with cfg := [(0x23FC, 0xEF), (0x10F000, 4)], tick := 210 }
     let f : CurFrame := { hdr := 0xB4100018, shortTail := false, tick := 0, snap := [], void := false, busy := false }
     s.awake = true ∧ s.link.cur = some f ∧ frameType (0xB4100018#32) = 1 ∧ s.effectTick f ≤ s.tick ∧
      frameLen (0xB4100018#32) = (List.replicate 24 0xFFFFFFFF : List Word).length ∧
      s.link.loopAct ≠ 2 ∧ (0xFFFFFFFF#32).getLsbD 15 = true ∧ s.takesOut 15 = true ∧ s.prepped 15 = false ∧
      255 ∈ linesOf s (0x0E0 + 15)) := by decide +kernel

/-- The command queue holds this frame. -/
def queued (t : BitVec 4) (p : List Word) (k : Nat) : State :=
  link15 .ready none (fun l => { l with queue := [cmdFrame t p k] })

/-- Executes the last word of SRAM in a REGW and a BULK frame, reads it in a REGR frame, and an address behind SRAM. -/
theorem meets_CommandAndControlFrames :
    (let f := cmdFrame 2 [0x203FFFFC, 1] 1
     let s := queued 2 [0x203FFFFC, 1] 1
     s.clocked = true ∧ s.link.queue = [f] ∧ f.over = false ∧ f.type.toNat = 2 ∧ regionOf s.member (f.addr f.idx) = .shared ∧
      s.link.loopAct ≠ 3 ∧ Memory.wf s.mem = true ∧
      { f with idx := 2 }.over = true ∧ s.leaving f = false ∧ regionOf s.member ((cmdFrame 2 [0x20400000, 1] 1).addr 1) = .none) ∧
    (let s := (queued 2 [0x203FFFFC, 1] 2).modIsl 15 (fun i => { i with down := [{ cellTo (.wdata 1) .link 0 with xref := 0x79000 }] })
     s.leaving (cmdFrame 2 [0x203FFFFC, 1] 2) = true) ∧
    (let f := cmdFrame 4 [0x201FFFFC, 1] 1
     f.over = false ∧ f.type.toNat = 4 ∧ regionOf .sh16 (f.addr f.idx) = .slice 7) ∧
    (let f := cmdFrame 3 [0x203FFFFF] 0
     f.over = false ∧ f.type = 3 ∧ (f.payload.getD f.idx 0).toNat / 4 * 4 = 0x203FFFFC ∧ (queued 3 [0] 0).link.readq.length < 64 ∧
      regionOf .sh16 0x203FFFFC = .shared) ∧
    (let f : CurFrame := { hdr := 0xB4500001, shortTail := false, tick := 0, snap := [], void := false, busy := false }
     let s := fun t => { link15 .ready (some 0xB4500001) id with tick := t }
     (s 25).awake = true ∧ (s 25).link.cur = some f ∧ (s 25).tick < (s 25).effectTick f ∧ (s 26).effectTick f ≤ (s 26).tick ∧
      frameType (0xB4500001#32) = 5 ∧ frameLen (0xB4500001#32) = [4#32].length ∧ (s 26).link.loopAct ≠ 2 ∧ (s 26).link.loopAct ≠ 1 ∧
      (s 26).link.st = .ready ∧ (s 26).link.lmode = false ∧ ctrlCode [0] = 0 ∧ ctrlCode [1] = 1 ∧ ctrlCode [2] = 2 ∧ ctrlCode [3] = 3 ∧
      ctrlCode [4] = 4 ∧ ctrlCode [0xFF] = 0) ∧
    (frameLen (0xB4500002#32) = [5#32, 3].length ∧ ctrlCode [5, 3] = 5 ∧ fld (([5#32, 3] : List Word).getD 1 0) 0 3 ≤ 3) := by
  decide +kernel

theorem meets_RegisterAccesses :
    (State.reset.clocked = true ∧ State.reset.link.readq.length < 64 ∧ State.reset.link.lmode = false) ∧
    (25000 ≤ fld (25000#32) 0 18 ∧ fld (25000#32) 0 18 ≤ 200000) ∧ (25000 ≤ fld (200000#32) 0 18 ∧ fld (200000#32) 0 18 ≤ 200000) ∧
    200000 < fld (200001#32) 0 18 ∧ 200000 < fld (0x3FFFF#32) 0 18 := by decide +kernel
/-! ## Hypotheses that are met: slates, DMA, store, tandem, the machine -/

/-- A slate engine in a state, owned by a master. -/
def slate15 (st : SlateState) (o : Option Master) (f : Slate → Slate) : State :=
  { State.reset with slate := f { State.reset.slate with st := st, owner := o } }

/-- The smallest slate: a header without a section. -/
def tinySlate : List Word :=
  let h : List Word := [0x5348534C, 0x00011600, 8, 1, 0x00010000, 50000, 0]
  h ++ [crc32c h]

/-- A slate of TOTAL_LEN 8 lies at offset 0x80 of the store. -/
def nvmSlate : State :=
  { slate15 .loading (some .link) (fun z => { z with fromNvm := true, nvmFrom := 0x20 }) with
    nvm := { State.reset.nvm with mem := flashPut [] 0x88 [0, 0, 0, 8] } }

theorem meets_SlateSessions :
    ((slate15 .empty none id).clocked = true ∧ (slate15 .empty none id).slate.owner = none ∧ (slate15 .empty none id).slate.st = .empty) ∧
    (slate15 .loaded (some .link) id).slate.st ≠ .empty ∧
    ((slate15 .loading (some (.thread 7)) id).slate.owner ≠ none ∧
      (slate15 .loading (some (.thread 7)) id).slate.owner ≠ some .link) ∧
    (let s := nvmSlate
     s.slate.st = .loading ∧ s.slate.fromNvm = true ∧ s.nvmSlateLen ≠ 3 ∧ s.nvmSlateLen = 8 ∧ s.slate.staged.length < s.nvmSlateLen ∧
      4 * (s.slate.nvmFrom.toNat + s.nvmSlateLen) ≤ s.member.nvmBytes ∧
      ∀ i < s.nvmSlateLen, s.flashBusy (4 * (s.slate.nvmFrom.toNat + i)) = false) ∧
    (let s := nvmSlate
     let j : NvmJob := { kind := .erase, target := 0, data := [], after := .plain }
     let s := { s with nvm := { s.nvm with st := .busy, phase := .body, jobs := [j] } }
     s.flashBusy (4 * (s.slate.nvmFrom.toNat + s.slate.staged.length)) = true) ∧
    (slate15 .loading (some .link) (fun z => { z with staged := [1] })).slate.staged.length < 2 ∧
    (slate15 .loading (some .link) (fun z => { z with staged := [1, 2] })).slate.staged.length = 2 ∧
    (let s := slate15 .loading (some .link) (fun z => { z with staged := [1, 2, 9], total := 9 })
     s.slate.st = .loading ∧ s.slate.fromNvm = false ∧ 3 ≤ s.slate.staged.length ∧ s.slate.owner = some .link) ∧
    (slate15 .loading (some .link) id).slate.owner ≠ some (.thread 0) ∧
    (slate15 .loaded (some .link) id).slate.st = .loaded ∧
    (let s := slate15 .verifying (some .link) (fun z => { z with staged := List.replicate 8 0 })
     s.slate.st = .verifying ∧ s.slateFault s.slate.staged = some (1, 0xFF) ∧ s.slateFault tinySlate = none) ∧
    ((slate15 .loaded none id).slate.st ≠ .committing ∧ (slate15 .loaded none id).slate.st ≠ .empty) := by decide +kernel

/-- Island 15 runs as DI and turns OFF at this commit. -/
def commit15 (sw pa : Bool) : State :=
  { isl15 1 id with slate := { State.reset.slate with st := .committing, owner := some .link, staged := tinySlate, total := 8,
                                                      switched := sw, passed := pa } }

/-- Island 15 keeps DI with another CFG word. -/
def recommit15 : State :=
  { isl15 1 id with slate := { State.reset.slate with st := .committing, owner := some .link, total := 12,
                                                          staged := tinySlate ++ [0x010F0002, 1, 0x201, 0] } }

theorem meets_SlateCommits :
    (let s := slate15 .verified (some .link) id
     s.clocked = true ∧ s.slate.owner = some .link ∧ s.slate.st = .verified ∧ s.fault.halt = false ∧ s.fault.lockout = false) ∧
    { State.reset.fault with halt := true }.halt = true ∧
    (let s := commit15 false false
     s.slate.st = .committing ∧ s.slate.switched = false ∧ s.takeSlate.pers 15 = .off ∧ s.pers 15 ≠ .off) ∧
    (let s := recommit15
     s.slate.st = .committing ∧ s.slate.switched = false ∧ s.takeSlate.pers 15 ≠ .off ∧ s.running 15 = true ∧
      s.takeSlate.recordOf 15 ≠ s.recordOf 15 ∧ s.fault.lockout = false) ∧
    ((commit15 true false).slate.switched = true ∧ (commit15 true false).slate.passed = false) ∧
    (commit15 true true).slate.passed = true ∧ (commit15 true true).pow.k2due = false ∧ (0x8000#32).getLsbD 15 = true ∧ (0x8000#32).getLsbD 0 = false := by decide +kernel

/-- A store that can work. -/
def store15 (f : Nvm → Nvm) : State := { State.reset with rate := 50000, nvm := f { State.reset.nvm with st := .idle } }

theorem meets_KeyOperations :
    (let s := store15 id
     s.clocked = true ∧ s.nvmRefusal = none ∧ s.slate.keys[7] = .empty ∧ s.slate.authReq = false ∧ s.pow.ftm = false) ∧
    (let s := { store15 id with slate := { State.reset.slate with keys := State.reset.slate.keys.set 7 (.set [1]), authReq := true } }
     s.nvmRefusal = none ∧ s.slate.keys[7] ≠ .empty ∧ s.slate.keys[7] = .set [1] ∧ s.slate.authReq = true) ∧
    { State.reset.pow with ftm := true }.ftm = true ∧ { store15 id with rate := 49999 }.nvmRefusal = some .rate ∧
    { store15 id with pow := { State.reset.pow with above115 := true } }.nvmRefusal = some .temp ∧ Master.dma 0 ≠ .link := by
  decide +kernel

/-- Channel 15 with these PACE and template words. -/
def dma15 (cfg len : Word) (f : Channel → Channel) : State :=
  { State.reset.modCh 15 f with cfg := [(0x33E0, cfg), (0x33F8, len)], slate := { State.reset.slate with committed := true } }

theorem meets_DmaChainsStart :
    (let s := dma15 0 1 id
     s.clocked = true ∧ s.dma[15].rests = true ∧ s.chHaw 15 = false ∧ (s.chWord 15 0x38).extractLsb' 0 16 ≠ (0 : BitVec 16)) ∧
    (dma15 0x80000 1 id).chHaw 15 = true ∧ (dma15 0 1 (fun h => { h with st := .move })).dma[15].rests = false ∧
    (let s := dma15 0x20000 1 id
     s.dma[15].st = .idle ∧ s.chAuto 15 = true ∧ s.slate.committed = true) ∧
    (let s := dma15 0x40000 1 (fun h => { h with st := .done })
     s.dma[15].st = .done ∧ s.chLoop 15 = true) ∧
    ((dma15 0x80000 0xFFFF id).dma[15].rests = true ∧ swf (cfgReset .sh16) (dma15 0x80000 0xFFFF id).cfg = true) ∧
    (let s := dma15 0 1 (fun h => { h with tail := 0x203FFFF0, seen := [0x20200000] })
     Memory.wf s.mem = true ∧ s.chHaw 15 = false ∧ s.mayFetch 15 (0x2020000F#32 &&& 0xFFFFFFF0).toNat = true ∧
      s.mayPatch 15 s.dma[15].tail.toNat = true ∧ s.dma[15].seen.contains s.dma[15].tail = false) ∧
    (dma15 0 1 (fun h => { h with tail := 0x20200000, seen := [0x20200000] })).dma[15].seen.contains 0x20200000 = true ∧
    (dma15 0 1 id).mayFetch 15 (0x20400000#32 &&& 0xFFFFFFF0).toNat = false ∧ (dma15 0 1 id).mayPatch 15 0x20000000 = false := by
  decide +kernel

/-- Channel 15 moves from the last word of SRAM. -/
def move15 (dst lenf : Word) (full : Bool) : State :=
  (isl15 4 (fun i => { i with down := if full then List.replicate 8 (cellTo (.raddr 0) .link 0) else [],
                              wrun := some (.dma 15, 0x00800000 + 0x3C000) })).modCh 15
    (fun h => { h with st := .move, src := 0x203FFFFC, dst := dst, lenf := lenf, remain := 2 })

theorem meets_DmaMovesWords :
    (let s := (dma15 0 1 (fun h => { h with st := .fetch, cur := 0x203FFFF0 }))
     let s := { s with mem := [(0x203FFFFB, 1)] }
     s.clocked = true ∧ s.dma[15].st = .fetch ∧ s.dma[15].fetched = 0 ∧ s.chHaw 15 = false ∧ s.mayFetch 15 s.dma[15].cur.toNat = true ∧
      (s.sramWord (s.dma[15].cur.toNat + 8)).extractLsb' 0 16 ≠ (0 : BitVec 16) ∧ s.chPace 15 = false) ∧
    (dma15 0 1 (fun h => { h with st := .fetch, cur := 0x20400000 })).mayFetch 15 0x20400000 = false ∧
    (let s := move15 0x20200000 0 false
     s.dma[15].st = .move ∧ s.dma[15].ahead = 0 ∧ s.dma[15].remain.toNat ≥ 2 ∧ s.chUnit 15 = false ∧
      s.dma[15].lenf.getLsbD 30 = false ∧ s.dma[15].lenf.getLsbD 28 = false ∧
      regionOf s.member (s.dma[15].src.toNat / 4 * 4) = .shared ∧ Memory.wf s.mem = true ∧
      regionOf s.member (s.dma[15].dst.toNat / 4 * 4) = .shared) ∧
    (let s := fun b => move15 0x3A3C 0x20000000 b
     (s true).dma[15].dst.toNat / 4 * 4 = 0x3A00 + 4 * 15 ∧ (s true).present 15 = true ∧ (s true).dma[15].lenf.getLsbD 29 = true ∧
      (s true).takesOut 15 = true ∧ (s false).queueFull 15 = false ∧ (s true).queueFull 15 = true ∧
      (s true).dma[15].lenf.getLsbD 30 = false ∧ (s true).dma[15].lenf.getLsbD 28 = false) ∧
    (let s := move15 0x0083C000 0 false
     regionOf s.member (s.dma[15].dst.toNat / 4 * 4) = .islMem 15 ∧ s.running 15 = true ∧ s.queueFull 15 = false ∧
      s.isl[15].wrun = some (.dma 15, 0x0083C000) ∧ State.reset.isl[15].wrun ≠ some (.dma 15, 0x0083C000)) ∧
    regionOf .sh16 ((move15 0x20400000 0 false).dma[15].dst.toNat / 4 * 4) = .none ∧
    (let s := (move15 0 0 false).modCh 15 (fun h => { h with src := 0x1FFFFFFC })
     s.dma[15].st = .move ∧ s.dma[15].ahead = 0 ∧ regionOf s.member (s.dma[15].src.toNat / 4 * 4) = .none) ∧
    State.reset.takesOut 15 = false ∧
    (let s := isl15 6 (fun i => { i with rstream := [7] })
     s.present 15 = true ∧ s.isl[15].rstream = 7 :: [] ∧ s.link.readq.length < 64) ∧
    (isl15 6 id).isl[15].rstream = [] := by decide +kernel

/-- An image of 24 words, the last one its CRC. -/
def image : List Word := [0x5348494D, 0x00011600, 24] ++ List.replicate 20 0 ++ [0xa071d4ef]

/-- The store with that image in bank A, ADDR, ACTIVE and marks. -/
def banked (o : Nat) (b : Bank) (marks : List Nat) : State :=
  { store15 (fun v => { v with addr := BitVec.ofNat 19 (o / 4), active := b, booted := true,
                               mem := marks.foldl (fun m k => flashPut m (markAt .sh16 .bankA k) [0]) (flashPut [] 0 (wordsBytes image)) })
    with slate := { State.reset.slate with committed := true } }

theorem meets_NvmOperationsStart :
    State.reset.clocked = true ∧ (store15 (fun v => { v with st := .recovering })).nvmRefusal = some .recovering ∧
    (let s := banked 0x17F000 .bankA []
     s.nvmRefusal = none ∧ s.nvmOpen s.nvm.offset = true ∧ s.nvm.offset < s.member.nvmBytes ∧ s.nvm.offset % 4096 = 0 ∧
      s.nvm.offset % 32 = 0 ∧ s.blank s.nvm.offset (32 * unitsOf s.nvm.offset (15#4).toNat) = true ∧ s.slate.committed = true) ∧
    (banked 0 .bankA []).nvmOpen (banked 0 .bankA []).nvm.offset = false ∧
    (let s := banked 0xC0004 .bankA []
     s.nvmOpen s.nvm.offset = true ∧ s.nvm.offset < s.member.nvmBytes ∧ s.nvm.offset % 4096 ≠ 0) ∧
    (let s := banked 0 .bankB []
     s.nvmOpen s.nvm.offset = true ∧ s.nvm.offset % 32 = 0 ∧ s.blank s.nvm.offset (32 * unitsOf s.nvm.offset (0#4).toNat) = false ∧
      ¬(s.nvm.booted = true ∧ s.nvm.active = .bankA)) ∧
    (store15 id).slate.committed = false ∧ ((7 : CtxNo) ≠ 0) := by decide +kernel

theorem image_crc : crc32c (image.take 23) = 2691814639 := by
  have h1 : (wordsBytes (image.take 8)).foldl crcByte 0xFFFFFFFF = 2151354173 := by decide +kernel
  have h2 : (wordsBytes ((image.drop 8).take 8)).foldl crcByte 2151354173 = 3749954329 := by decide +kernel
  have h3 : (wordsBytes ((image.drop 16).take 7)).foldl crcByte 3749954329 = 1603152656 := by decide +kernel
  have e : wordsBytes (image.take 23) =
      wordsBytes (image.take 8) ++ wordsBytes ((image.drop 8).take 8) ++ wordsBytes ((image.drop 16).take 7) := by decide +kernel
  unfold crc32c crc32cBytes
  rw [e, List.foldl_append, List.foldl_append, h1, h2, h3]
  decide

theorem meets_NvmOperationsStart_image : (banked 0 .bankB []).imageOk .bankA = true := by
  have f : (banked 0 .bankB []).flashWords (bankBase (banked 0 .bankB []).member .bankA) (((banked 0 .bankB []).img .bankA 2).toNat - 1) =
      image.take 23 := by decide +kernel
  have g : (banked 0 .bankB []).img .bankA (((banked 0 .bankB []).img .bankA 2).toNat - 1) = 2691814639 := by decide +kernel
  unfold State.imageOk
  simp only [Bool.and_eq_true, decide_eq_true_eq]
  refine ⟨⟨?_, ?_⟩, ?_⟩
  case refine_2 => rw [f, g, image_crc]
  all_goals decide +kernel

theorem meets_NvmOperationsStart_marks :
    (let s := banked 0 .bankB []
     s.marked .bankA 0 = false ∧ s.bankSt .bankA ≠ 3 ∧ s.inRom 0 = true ∧ s.marked .bankA 1 = false) ∧
    (let s := banked 0 .bankA [0, 1]
     s.bankSt .bankA = 3 ∧ s.marked .bankA 2 = false ∧ s.marked .bankA 3 = false) := by decide +kernel

/-- The settings journal has a blank sector, one, or none. -/
def journal (n : Nat) : State :=
  { store15 (fun v => { v with mem := (List.range n).map (fun k => (0x180000 + 4096 * k, 0)) }) with
    slate := { State.reset.slate with committed := true } }

theorem meets_NvmOperationsStart_journal :
    2 ≤ (journal 62).sjFree ∧ (journal 63).sjFree < 2 ∧ (1 ≤ (journal 63).sjFree ∧ (journal 63).oldest ≠ none) ∧
    (journal 64).sjFree < 1 := by decide +kernel

/-- A job of a kind and length at a sector, in a phase. -/
def job15 (st : NvmState) (ph : NvmPhase) (k : NvmKind) (n p : Nat) : State :=
  let j : NvmJob := { kind := k, target := 0x1000, data := List.replicate n 0, after := .plain }
  store15 (fun v => { v with st := st, phase := ph, pulses := p, jobs := [j] })

theorem meets_NvmSlicesAndRecovery :
    (let s := job15 .busy .intent .program 33 0
     s.nvm.jobs = [{ kind := .program, target := 0x1000, data := List.replicate 33 0, after := .plain }] ∧ s.clocked = true ∧
      s.nvm.stopAfter = none ∧ s.nvm.st = .busy ∧ s.nvm.sliceAt ≤ s.tick ∧ s.nvm.phase = .intent ∧ s.nvm.redo = false) ∧
    (let s := job15 .busy .body .program 33 10
     s.nvm.phase = .body ∧ NvmKind.program ≠ .erase ∧ NvmKind.program ≠ .keyErase ∧ 32 * (s.nvm.units + 1) < 33 ∧
      s.nvm.pulses + 1 < 12) ∧
    12 ≤ (job15 .busy .body .program 33 11).nvm.pulses + 1 ∧ (job15 .busy .body .erase 0 39).nvm.phase = .body ∧
    (let s := job15 .busy .done .program 32 0
     s.nvm.phase = .done ∧ s.nvm.intents.filter (fun i => i.seq ≠ s.nvm.cur) = []) ∧
    (let s := job15 .busy .check .erase 0 0
     s.nvm.phase = .check ∧ s.blank 0x1000 4096 = true) ∧
    (let s := job15 .busy .check .erase 0 0
     let s := { s with nvm := { s.nvm with mem := [(0x1FFF, 0)] } }
     s.nvm.phase = .check ∧ s.blank 0x1000 4096 = false) ∧
    (job15 .busy (.image .bankA) .mark 32 0).imageOk .bankA = false ∧
    (let s := job15 .busy .intent .program 33 0
     (0 : Tick) < { s.nvm with sliceAt := 1 }.sliceAt) ∧
    ((job15 .stepWait .intent .program 32 0).nvm.st = .stepWait ∧ (job15 .stepWait .intent .program 32 0).nvm.redo = false) := by
  decide +kernel

/-- The scan finds an open intent, a torn sector, and nothing; a counter record is not the first of its sector. -/
theorem meets_NvmSlicesAndRecovery_scan :
    (let i : Intent := { seq := 1, kind := .program, target := 0, len := 32, dcrc := 0, mid := 0, after := .plain, began := 0, applied := false, cut := false }
     let s := store15 (fun v => { v with st := .scan, intents := [i] })
     s.clocked = true ∧ s.nvm.st = .scan ∧ s.nvmFit = true ∧ s.nvm.jobs = [] ∧ s.nvm.intents ≠ [] ∧ s.nvm.jtorn = false ∧
      { s.nvm with st := .recovering }.st = .recovering ∧ s.nvm.intents = i :: [] ∧ i.kind = .program ∧ i.after = .plain) ∧
    (let s := store15 (fun v => { v with st := .recovering, jtorn := true })
     s.nvm.st = .recovering ∧ s.nvm.jobs = [] ∧ s.nvmFit = true ∧ s.nvm.jtorn = true) ∧
    (store15 id).nvm.st ≠ .scan ∧ State.reset.nvmFit = false ∧
    (let s := store15 (fun v => { v with cpend := 0x40, cpos := 127 })
     s.nvm.st = .idle ∧ s.nvmFit = true ∧ s.counterPend 6 = true ∧
      (∀ x : Fin 7, x < 6 → s.counterPend x = false) ∧ s.nvm.cpos % 128 ≠ 0) ∧
    (∀ k : Fin 7, (store15 id).counterPend k = false) ∧
    (let s := { State.reset with tick := 8 }
     s.inRom 0 = true ∧ s.pow.bootStep = 0 ∧ s.isDue .bootStart = true) ∧ State.reset.isDue .bootStart = false := by decide +kernel

/-- A paired device. -/
def pair15 (r : Role) (l : TLink) (h : Handover) (b : Bool) : State :=
  { isl15 4 id with tan := { State.reset.tan with role := r, link := l, hand := h, pbusy := b } }

theorem meets_TandemFramesArrive :
    (let s := pair15 .standby .training .none false
     s.clocked = true ∧ s.tan.role ≠ .solo ∧ s.tan.link ≠ .ready ∧ s.tan.lostOnce = false ∧ s.tan.locked = false ∧
      { s.tan with locked := true, lostOnce := true }.locked = true) ∧
    (let s := owed .tandemLinkLoss (pair15 .standby .ready .none false)
     s.tan.role ≠ .solo ∧ s.tan.link = .ready ∧ s.tan.role = .standby ∧ s.tan.role ≠ .active ∧ s.isDue .tandemLinkLoss = true ∧
      s.isDue .beaconSend = false) ∧
    (owed .beaconSend (pair15 .standby .ready .none false)).isDue .beaconSend = true ∧ State.reset.isDue .tandemLinkLoss = false ∧
    ([0#32].length = 1 ∧ (List.replicate 40 (0 : Word)).length = 40) := by decide +kernel

/-- A CRC word that is not the right one. -/
theorem meets_TandemFramesArrive_crc : crc32c (tanHdr 1 40 :: List.replicate 40 0) + 1 ≠ crc32c (tanHdr 1 40 :: List.replicate 40 0) := by
  bv_omega

theorem meets_RolesChangeHands :
    (let s := pair15 .standby .ready .none false
     s.fault.lockout = false ∧ s.tan.pbusy = false ∧ s.tan.role = .standby ∧ s.tan.link = .ready ∧ s.clocked = true ∧
      s.tan.hand ≠ .gap ∧ s.tan.hand = .none) ∧
    (pair15 .standby .lost .none false).tan.link ≠ .ready ∧
    (let s := pair15 .active .ready .none false
     s.tan.role = .active ∧ s.tan.link = .ready ∧ s.tan.role ≠ .standby ∧ s.running 15 = true ∧ shadows (s.pers 15) = true) ∧
    { State.reset.fault with lockout := true }.lockout = true ∧ (pair15 .active .ready .none true).tan.pbusy = true ∧
    (let s := owed .ackTimeout (pair15 .standby .ready .awaitAck true)
     s.tan.hand = .awaitAck ∧ s.tan.commitWait = false ∧ s.isDue .ackTimeout = true ∧ s.isDue .gapEnd = false) ∧
    (let s := { owed .ackSend (pair15 .standby .ready .none false) with tan := { (pair15 .standby .ready .none false).tan with ackDue := true } }
     s.tan.ackDue = true ∧ s.isDue .ackSend = true ∧ s.tan.role ≠ .solo ∧ s.tan.link = .ready) ∧
    (owed .gapEnd (pair15 .standby .ready .gap true)).isDue .gapEnd = true ∧
    (let s := { pair15 .standby .ready .gap true with tan := { (pair15 .standby .ready .gap true).tan with
        copy := List.replicate 40 0xFFFFFFFF } }
     s.tan.hand = .gap ∧ s.tan.role = .standby ∧ s.tan.commitWait = false ∧ s.tan.nocopy = false ∧ s.running 15 = true ∧
      s.isl[15].pers.output = true ∧ (s.tan.copy.getD 5 0).getLsbD 15 = true ∧ { s.tan with nocopy := true }.nocopy = true) := by
  decide +kernel

theorem meets_StepRunsFrontCommand :
    State.reset.pending = [] ∧ { State.reset.pow with hck := false }.hck = false ∧
    ({ State.reset with tick := 8 }.dueNow ≠ [] ∧ State.reset.dueNow = [] ∧ State.reset.clocked = true ∧ State.reset.part = .rows ∧
      State.reset.pow.deferral = false ∧ { State.reset with part := .work }.dueNow = []) := by
  decide +kernel

/-- A word stored in SRAM, at the first and the last byte of the shared area. -/
theorem meets_StepKeepsInvariant :
    let s := { State.reset with mem := [(0x20200000, 1), (0x203FFFFF, 255)], pending := [.stb 0 15 15 0] }
    (Memory.wf s.mem = true ∧ (∀ n : IslandNo, Memory.wf s.isl[n].mem = true) ∧ swf (fun _ => (0xFF : Byte)) s.nvm.mem = true ∧
      swf (cfgReset s.member) s.cfg = true ∧ ∀ t : CtxNo, s.facet.ctx[t].regs[(0 : RegNo)] = 0) ∧
    ∃ u, step s = .next u := ⟨by decide +kernel, _, rfl⟩

theorem meets_CommandsKeepTheRest :
    clockless .fullPass = false ∧ (powered (fun p => { p with hck := false }) .solo).clocked = false ∧ assertsK4 .fullPass = false ∧ writesConfig .fullPass = false ∧ writesMemory .fullPass = false ∧ writesByAddress .fullPass = false := by
  decide +kernel

theorem meets_FacetWordsRoundTrip :
    facetEncode (.add 7 15 15 15) = some 0x07FFC000 ∧ facetDecode 7 0x07FFC000 = some (.add 7 15 15 15) ∧
    (0xFFFFFFFF#32).extractLsb' 26 6 = 0x3F#6 := by decide +kernel

theorem meets_TickRateRegister :
    (State.reset.clocked = true ∧ (owed .flintReset State.reset).isDue .flintReset = true ∧ State.reset.slicing = false ∧
      { State.reset.flint with resetDue := true }.resetDue = true) := by
  decide +kernel

theorem meets_FlintQuestionsAndTokens :
    let s := flint15 0x80000008 100
    s.clocked = true ∧ s.flintMode .core = 2 ∧ s.mayKick (.thread 7) .core = true ∧ (s.flintCh .core).st = .running ∧ s.flintQha .core = false ∧
    s.flintWmin .core ≤ s.elapsed .core ∧ s.elapsed .core < s.flintWmax .core := by decide +kernel
/-! ## Hypotheses that are met: further clauses -/

theorem meets_FacetContextsEnd_joined :
    (let s := (ctx7 1 2).modCtx 6 (fun c => { c with freeAt := 8 })
     s.clocked = true ∧ (0x40#8).getLsbD 6 = true ∧ s.facet.ctx[6].st = .free ∧ s.tick + 1 < s.facet.ctx[6].freeAt) := by decide +kernel

/-- Word 7 of a record, with its bank free and taken; the fourth word of a descriptor; a channel whose word is still to be scaled. -/
theorem meets_LentSlotsAndQueuePlaces_banks :
    (let s := State.reset.modFault (fun f => { f with logq := [rec1 1], logWord := 7, logAddr := 0x20200000 })
     s.clocked = true ∧ s.fault.logq = rec1 1 :: [] ∧ s.bankTaken (0x20200000 + 28) = false ∧ s.fault.logWord < 8 ∧ Memory.wf s.mem = true ∧
      ({ s with link := { s.link with touch := (touchOf s.member (0x20200000 + 28)).map (fun k => (s.tick, k)) } }).bankTaken
        (0x20200000 + 28) = true) ∧
    (let s := State.reset.modCh 15 (fun h => { h with st := .fetch, cur := 0x20200000, fetched := 3 })
     s.clocked = true ∧ s.fault.logq = [] ∧ s.walks 15 = true ∧ (∀ j : ChNo, j < 15 → s.walks j = false) ∧
      s.bankTaken (0x20200000 + 12) = false ∧ s.dma[15].fetched = 3 ∧ s.mayFetch 15 s.dma[15].cur.toNat = true ∧
      ({ s with link := { s.link with touch := (touchOf s.member (0x20200000 + 12)).map (fun k => (s.tick, k)) } }).bankTaken
        (0x20200000 + 12) = true) ∧
    (let s := State.reset.modCh 15 (fun h => { h with st := .move, lenf := 0x10000001, buf := some 0x80000000 })
     s.clocked = true ∧ s.fault.logq = [] ∧ (∀ j, s.walks j = false) ∧ (∀ j : ChNo, j < 15 → s.dma[j].unscaled = false) ∧
      s.dma[15].st = .move ∧ s.dma[15].lenf.getLsbD 28 = true ∧ s.dma[15].scaled = false ∧ s.dma[15].buf = some 0x80000000) ∧
    (let s := (isl15Ctx 0 .running).modCtx 7 (fun c => { c with st := .stall, stall := .loadq 15 .word 15 0x0083C000 })
     s.facet.ctx[7].stall = .loadq 15 .word 15 0x0083C000 ∧ s.clocked = true ∧ ∀ j : CtxNo, j < 7 → s.facet.ctx[j].stall = .none) := by
  decide +kernel

/-- Line 255 with no divider, and these words of the slate beside it. -/
def lineCfg (cfg : List (Nat × Word)) : State := { lineState 0 .run false .move false with cfg := (0x23FC, 0x11F) :: cfg }

/-- A reflex entry that the line triggers or releases, a WATCH and a ONESHOT timer that it starts, and the triggers of island 15. -/
theorem meets_EventPulsesAndTimers_consumers :
    (let s := lineCfg [(0x25F8, 0xC00000FF)]
     s.clocked = true ∧ fld (s.lineWord 255) 0 9 ≠ 0 ∧ 255#8 ∉ s.evt.pulsed ∧ fld (s.lineWord 255) 24 8 ≤ s.evt.div[255].toNat ∧
      s.rfxEn 63 = true ∧ s.rfxLine 63 = true ∧ (s.rfxTrig 63).extractLsb' 0 8 = 255#8) ∧
    (let s := lineCfg [(0x25F8, 0x80000000), (0x25FC, 0x8FF)]
     s.evt.active.getLsbD 63 = true ∧ s.rfxRel 63 = 2 ∧ (s.rfxAct 63).extractLsb' 0 8 = 255#8) ∧
    (let s := lineCfg [(0x2600, 0xC000FF00), (0x26F0, 0x8000FF00)]
     (s.tmrWord 0 0).extractLsb' 8 8 = 255#8 ∧ s.tmrMode 0 = 3 ∧ (s.tmrWord 15 0).extractLsb' 8 8 = 255#8 ∧ s.tmrMode 15 = 2 ∧
      ({ s.evt with tmr := s.evt.tmr.set 15 none }).tmr[15] = none ∧ (s.tmrWord 1 0).extractLsb' 8 8 ≠ 255#8) ∧
    (let w := (lineCfg [(0x273C, 0xC000FFFF)]).cfgAt (0x2700 + 4 * 15)
     w.getLsbD 31 = true ∧ w.extractLsb' 8 8 = 255#8 ∧ w.getLsbD 30 = true ∧ w.extractLsb' 0 8 = 255#8) ∧
    (let s := { isl15 6 id with evt := { State.reset.evt with trigs := [(15, 2)] } }
     s.evt.trigs = [(15, 2)] ∧ s.running 15 = true ∧ s.queueFull 15 = false) ∧
    (State.reset.running 15 = false ∧ (0x80000000#32).getLsbD 31 = true) := by decide +kernel

/-- The first level of a stage, the edge that latched edges have reported, and the end of a count that is owed. -/
theorem meets_InputEdgesQualify_due :
    (let s := diOn (fun d => { d with indet := true })
     s.isl[15].inputOn = true ∧ s.isl[15].din.indet = true ∧ s.isl[15].din.crossed = false ∧ s.pow.hck = true ∧ s.tick.toNat + 16384 < 2 ^ 64 ∧
      ({ s with pow := { s.pow with hck := false } }).pow.hck = false) ∧
    (let s := owed (.qualifiedEdge 15) (diOn (fun d => { d with raw := true, reported := true }))
     s.isl[15].inputOn = true ∧ s.clocked = true ∧ s.isDue (.qualifiedEdge 15) = true ∧ s.isl[15].din.indet = false ∧
      s.isl[15].din.raw ≠ s.isl[15].din.qual ∧ s.isl[15].din.reported = true) ∧
    (let s := owed (.qualifiedEdge 15) (isl15 3 (fun i => { i with recd := [(0, 3), (0x48, 1)], din := { i.din with indet := false, qual := true } }))
     s.isl[15].inputOn = true ∧ s.clocked = true ∧ s.isDue (.qualifiedEdge 15) = true ∧ s.isl[15].din.indet = false ∧
      s.isl[15].din.raw ≠ s.isl[15].din.qual ∧ s.isl[15].din.reported = false ∧ s.isl[15].pers = .diCnt ∧
      (fld (s.isl[15].reg 0x48) 0 2).testBit 1 = false) ∧
    (let s := owed (.qualifiedEdge 15) (diOn (fun d => { d with indet := true, crossed := true }))
     s.isDue (.qualifiedEdge 15) = true ∧ s.isl[15].din.indet = true ∧ s.isl[15].din.crossed = true) := by decide +kernel

theorem meets_InputsReportAndMeasure_once :
    (let s := owed (.longHold 15) (isl15 1 (fun i => { i with recd := [(0, 1), (0x40, 1)], din := { i.din with qual := true, indet := false } }))
     s.clocked = true ∧ s.isDue (.longHold 15) = true ∧ s.isl[15].inputOn = true ∧ s.isl[15].din.qual = true ∧ s.isl[15].din.indet = false ∧
      s.isl[15].din.long = false ∧ s.isl[15].reg 0x40 ≠ 0) ∧
    ((isl15 1 id).isl[15].reg 0x40 = 0 ∧ (diOn (fun d => { d with long := true })).isl[15].din.long = true) ∧
    (isl15 2 (fun i => { i with din := { i.din with brk := true } })).isl[15].din.brk = true ∧
    (isl15 2 (fun i => { i with vfLow := true })).isl[15].vfLow = true ∧
    (let s := isl15 0x40006 (fun i => { i with ana := { i.ana with loopOvl := true } })
     s.isl[15].pers = .aiI ∧ s.isl[15].tbOn = true ∧ s.running 15 = true ∧ s.isl[15].ana.loopOvl = true) ∧
    (isl15 2 id).isl[15].wireOn = true ∧ (isl15 3 id).isl[15].pers = .diCnt ∧
    (let s := owed (.gateEnd 15) (isl15 3 (fun i => { i with din := { i.din with gEdges := 70000 } }))
     s.clocked = true ∧ s.isDue (.gateEnd 15) = true ∧ s.isl[15].pers = .diCnt ∧ s.isl[15].rungs.rung = 2) := by decide +kernel

theorem meets_PwmPeriods_due :
    (let s := fun c => owed c (isl15 5 (fun i => { i with dout := { i.dout with run := true } }))
     (s (.pwmPeriodStart 15)).isl[15].dout.run = true ∧ (s (.pwmPeriodStart 15)).clocked = true ∧ (s (.pwmPeriodStart 15)).isDue (.pwmPeriodStart 15) = true ∧
      (s (.pwmPeriodStart 15)).isl[15].pers = .doPwm ∧ (s (.pwmPhaseEnd 15)).isDue (.pwmPhaseEnd 15) = true) := by decide +kernel

/-- A protection that stands, one that came while HCK stood, and one whose report is owed; a switch with every check against it. -/
theorem meets_OutputsProtectAndCheck_hot :
    (let s := isl15 0xF24 (fun i => { i with dout := { i.dout with short := true, ovl := true, hotSwitch := true } })
     s.running 15 = true ∧ s.isl[15].dout.short = true ∧ s.isl[15].dout.ovl = true ∧ s.clocked = true ∧ s.isl[15].pers.digOut = true ∧
      s.isl[15].dout.hotSwitch = true ∧ s.isDue (.switchOvertemp 15) = false ∧ (owed (.switchOvertemp 15) s).isDue (.switchOvertemp 15) = true) ∧
    (let s := { isl15 0xF24 (fun i => { i with dout := { i.dout with sw := true } }) with pow := { State.reset.pow with hck := false } }
     s.running 15 = true ∧ s.pow.hck = false ∧ s.pow.k4 = false ∧ s.pow.deferral = false ∧ s.isl[15].pers.digOut = true ∧
      s.isl[15].dout.hotSwitch = false ∧ s.clocked = false) ∧
    (let s := { isl15 9 id with pow := { State.reset.pow with hck := false } }
     s.running 15 = true ∧ s.pow.hck = false ∧ s.pow.k4 = false ∧ s.pow.deferral = false ∧ s.isl[15].pers.anaOut = true ∧
      s.isl[15].ana.hotDriver = false ∧ s.isl[15].dead = false ∧ s.isl[15].rungs.rung ≠ 0) ∧
    (let s := isl15 9 (fun i => { i with ana := { i.ana with opn := true } })
     s.isl[15].pers.anaOut = true ∧ s.running 15 = true ∧ s.isl[15].ana.hotDriver = false ∧ (s.aoTarget 15).2 = true ∧ s.isl[15].ana.opn = true) ∧
    (isl15 4 id).isl[15].pers = .dO ∧
    (let s := doCheck 0xF24 128 (fun d => { d with cntStuck := 15, cntOff := 15 })
     s.clocked = true ∧ s.checkDue 15 = true ∧ s.isl[15].checksOn = true ∧ s.isl[15].dout.sw = false ∧
      s.isl[15].dout.cntStuck + 1 = fld (s.isl[15].reg 0) 8 4 + 1 ∧ (s.isl[15].reg 0).getLsbD 5 = true ∧
      s.isl[15].dout.cntOff + 1 = fld (s.isl[15].reg 0) 8 4 + 1) := by decide +kernel

theorem meets_HartModemWorks_states :
    (let s := hart15 2 id
     ({ s with rate := 7999 }).hartRate = false ∧ s.isl[15].pers.hart = true ∧ s.isl[15].hart.preamb ≠ 2) ∧
    (hart15 2 (fun h => { h with cd := true })).hartRate = true ∧ (isl15 1 id).isl[15].pers.hart = false ∧
    (let s := owed (.hartCharEnd 15) (hart15 1 (fun h => { h with st := .tx, txq := [(1, true)] }))
     s.clocked = true ∧ s.isDue (.hartCharEnd 15) = true ∧ s.isl[15].hart.st = .tx ∧ s.isl[15].hart.txq = (1, true) :: [] ∧
      s.isl[15].hart.framed = false) ∧
    (let s := owed (.hartCharEnd 15) (hart15 2 (fun h => { h with st := .tx, framed := true, txq := [(0xFF, false), (0x82, false)] }))
     s.isDue (.hartCharEnd 15) = true ∧ s.isl[15].hart.txq = (0xFF, false) :: (0x82, false) :: []) ∧
    (let s := hart15 2 (fun h => { h with st := .wait, preamb := 2 })
     s.isl[15].hartRung = 2 ∧ s.isl[15].hart.st = .wait ∧ s.isl[15].hart.storing = false ∧ s.isl[15].hart.preamb = 2 ∧ (0x82#8 ≠ 0xFF) ∧
      s.isl[15].hart.stored < 511 ∧ s.isl[15].rxBase + s.isl[15].hart.stored < 0x4000) ∧
    (let s := owed (.hartTimeout 15) (hart15 2 (fun h => { h with st := .wait }))
     s.isDue (.hartTimeout 15) = true ∧ s.isl[15].hart.st = .wait) ∧
    (let s := { hart15 1 id with rate := 7999 }
     s.running 15 = true ∧ s.isl[15].hartRung = 1 ∧ s.isl[15].hart.st = .idle ∧ s.hartRate = false) ∧
    ((hart15 1 id).isl[15].hart.rxq = [] ∧ (hart15 1 id).link.readq.length < 64) := by
  decide +kernel

theorem meets_ConversionsAndResults_due :
    (let s := owed (.resultWrite 15) (adc15 0 (fun a => { a with ready := some { slot := 19, code := 0x3FFFF, ovr := true, redo := false, last := 1 } }))
     s.clocked = true ∧ s.isDue (.resultWrite 15) = true ∧
      s.isl[15].adc.ready = some { slot := 19, code := 0x3FFFF, ovr := true, redo := false, last := 1 }) ∧
    (let s := owed (.roundStart 15) (adc15 0x40010000 id)
     s.isl[15].adcMode ≠ 0 ∧ s.isl[15].hold = false ∧ s.isl[15].haseq = false ∧ s.isl[15].adc.inRound = false ∧ s.isl[15].regSeq ≠ [] ∧
      s.isl[15].triggered = true ∧ s.isDue (.roundStart 15) = true ∧ s.isl[15].adc.st = .idle ∧ s.isl[15].adc.cal = false ∧
      s.isl[15].adc.calPend = false) ∧
    (let s := adc15 0x10000 (fun a => { a with roundAt := some 0 })
     s.isl[15].adcMode ≠ 0 ∧ s.isl[15].haseq = false ∧ s.isl[15].regSeq ≠ [] ∧ s.isl[15].triggered = false ∧
      (0 : Tick) + BitVec.ofNat 64 s.isl[15].rperTk ≤ ({ s with tick := BitVec.ofNat 64 s.isl[15].rperTk }).tick) := by decide +kernel

theorem meets_ConverterTriggers_pending :
    (let s := fun p => adc15 0x40010000 (fun a => { a with inRound := true, st := .regular, rpend := p })
     (s false).isl[15].adcMode ≠ 0 ∧ (s false).isl[15].haseq = false ∧ (s false).isl[15].triggered = true ∧ (s false).isl[15].adc.inRound = true ∧
      (s false).isl[15].adc.rpend = false ∧ (s true).isl[15].adc.rpend = true) ∧
    (let s := adc15 0x80010000 (fun a => { a with st := .regular })
     s.isl[15].adc.work = true ∧ s.isl[15].haseq = true ∧ s.isl[15].adc.convPend = none ∧ s.isl[15].regSeq ≠ [] ∧
      s.isl[15].regSeq.length ≤ (15#4).toNat ∧ s.isl[15].adc.calPend = false ∧ s.isl[15].adc.cal = false) ∧
    (adc15 0x80010000 (fun a => { a with convPend := some 0 })).isl[15].adc.convPend ≠ none ∧
    (adc15 0x80010000 (fun a => { a with calPend := true })).isl[15].adc.calPend = true ∧
    (let s := owed (.calibrationStart 15) (adc15 0 (fun a => { a with st := .regular }))
     s.clocked = true ∧ s.isDue (.calibrationStart 15) = true ∧ s.isl[15].adcMode ≠ 0 ∧ s.isl[15].haseq = false ∧ s.isl[15].hold = false ∧
      s.isl[15].adc.cal = false ∧ s.isl[15].adc.st = .regular ∧ s.isl[15].adc.conv = false ∧ s.isl[15].adc.done = 0) ∧
    (let s := owed (.calibrationStart 15) (adc15 0 (fun a => { a with st := .regular, conv := true }))
     s.isDue (.calibrationStart 15) = true ∧ s.isl[15].adc.work = true ∧ s.isl[15].adc.conv = true) := by decide +kernel

/-- A rung switch whose cell has arrived, is owed, or has not been sent; requests that fit and that do not, of a ready and of another island. -/
theorem meets_LedgerAndRungs_edges :
    { State.reset with member := .sh08 }.present 15 = false ∧ (owed .admissionComplete (led15 id)).isDue .admissionComplete = true ∧
    (let s := { led15 (fun i => { i with held := [] }) with tick := 4 }
     s.isl[15].powered = true ∧ s.pers 15 ≠ .off ∧ s.parked = false ∧
      s.isl[15].ready = true ∧ islandGr (s.pers 15) (s.modeGr 15) 0 0 0 ≤ 60) ∧
    (let s := (led15 id).modIsl 15 (fun i => { i with power := .charging, charging := true, cvOk := false })
     s.isl[15].powered = true ∧ s.isl[15].ready = false) ∧
    (let s := owed (.rungSwitchDone 15) (led15 (fun i => { i with rungNext := some Rungs.zero }))
     s.clocked = true ∧ s.running 15 = true ∧ s.isDue (.rungSwitchDone 15) = true ∧ s.isl[15].rungNext ≠ none) ∧
    (let s := owed (.rungAct 15) (led15 (fun i => { i with led := { i.led with pending := true } }))
     s.isDue (.rungAct 15) = true ∧ s.isl[15].led.pending = true ∧ s.isl[15].led.waitGr = false) ∧
    ((led15 id).isDue (.rungAct 15) = false ∧ (flying .rungAct (led15 id).isl[15].up).isSome = false) ∧
    (let s := led15 (fun i => { i with up := [{ (newCell .rungAct (.island 15) 0 0 0 : UpCell) with sent := true }] })
     s.isDue (.rungAct 15) = false ∧ (flying .rungAct s.isl[15].up).isSome = true) := by decide +kernel

/-- The bounds of the grains hold of a state with an island at its most, and a request there does not fit. -/
theorem meets_LedgerAndRungs_bounds :
    (let s := led15 (fun i => { i with led := { i.led with admGr := 40 }, rsv := 20, charging := true })
     s.admittedOk ∧ ∀ n : IslandNo, s.isl[n].grainsOk) := by
  unfold State.admittedOk Island.grainsOk; decide +kernel

theorem meets_IslandsPowerUp_release :
    (let s := owed (.grainRelease 15) ((led15 id).modIsl 15 (fun i => { i with power := .bedrock, held := [(8, 20), (3, 0)] }))
     s.clocked = true ∧ s.isDue (.grainRelease 15) = true ∧ s.isl[15].held = (8, 20) :: [(3, 0)] ∧ s.isl[15].led.waitGr = false ∧
      s.isl[15].powered = false) ∧
    { State.reset with pow := { State.reset.pow with ps := .toDormant } }.pow.ps = .toDormant ∧
    (let s := owed (.firstSymbolTimeout 15) ((led15 id).modIsl 15 (fun i => { i with power := .charging }))
     s.isDue (.firstSymbolTimeout 15) = true ∧ s.isl[15].power = .charging ∧ s.isl[15].cvOk = true) := by decide +kernel

theorem meets_IslandSafeDemands_once :
    (let s := { led15 id with pow := { State.reset.pow with hck := false } }
     s.pow.hck = false ∧ s.pow.k4 = false ∧ s.pow.deferral = false ∧ s.running 15 = true ∧ s.isl[15].safe.therm = false) ∧
    (let s := led15 (fun i => { i with safe := { i.safe with therm := true } })
     s.clocked = true ∧ s.running 15 = true ∧ s.isl[15].safe.therm = true ∧ s.isDue (.islTherm 15) = false ∧
      (owed (.islTherm 15) s).isDue (.islTherm 15) = true) ∧
    (let i := (led15 (fun i => { i with down := [cellTo (.cmd .chanFault) .collector 0] })).isl[15]
     ∃ c ∈ i.down, c.data = .cmd .chanFault ∧ c.got = false) ∧
    (∀ c ∈ (led15 id).isl[15].down, c.data = .cmd .chanFault → c.got = true) := by decide +kernel

/-- The host asks, the question is written on the tick of the kick, or none has come. -/
theorem meets_FlintJudgesKicks_asked :
    (let s := fun q =>
       { flint15 0xA0000008 100 with flint := { State.reset.flint with core := { FlintCh.reset with st := .running, qnew := q } } }
     (s none).clocked = true ∧ (s none).mayKick (.thread 7) .core = true ∧ (s none).flintWmin .core ≤ (s none).elapsed .core ∧
      (s none).elapsed .core < (s none).flintWmax .core ∧ (s none).flintMode .core = 2 ∧ (s none).flintQha .core = true ∧
      ((s none).flintCh .core).qnew = none ∧ ((s (some (101, 7))).flintCh .core).qnew = some ((s none).tick + 1, 7)) ∧
    (let s := owed .budgetExpiry { State.reset with flint := { State.reset.flint with armed := true } }
     s.clocked = true ∧ s.isDue .budgetExpiry = true ∧ s.flint.armed = true ∧ s.flint.core.st ≠ .expired) := by decide +kernel

theorem meets_ReactionsAndRecovery_counts :
    (let s := halted [0] false
     fld (s.cfgAt 0x602C) 0 4 = 2 ∧ s.pow.k2due = false ∧ s.flint.resetDue = false ∧
      (s.fault.hist.filter (fun t => s.tick.toNat - t.toNat ≤ 65536 * (s.cfgAt 0x6030).toNat)).length + 1 = 2) ∧
    (owed .escalationLockout State.reset).isDue .escalationLockout = true := by decide +kernel

/-- A fault of class Halt, or Log, with HA, before and at the end of its grace. -/
theorem meets_DecisionsAndChannelClears_grace :
    (let s := fun (t : Tick) (k : BitVec 5) => { State.reset with
       tick := t, due := [(100, .graceExpiry 1)],
       fault := { State.reset.fault with dq := [{ rec1 0x18 with act := 100, mtx := k }] } }
     (s 99 6).clocked = true ∧ { rec1 0x18 with act := 100, mtx := 6 } ∈ (s 99 6).fault.dq ∧ (s 99 6).due.Nodup ∧ (s 99 6).tick < 100 ∧
      { rec1 0x18 with act := 100, mtx := 6 } ∈ (s 100 6).fault.dq ∧ (100 : Tick) ≤ (s 100 6).tick ∧ (6#5).getLsbD 2 = true ∧
      (6#5).getLsbD 3 = false ∧ (6#5).extractLsb' 0 2 = 2 ∧ (4#5).getLsbD 2 = true ∧ (4#5).extractLsb' 0 2 = 0 ∧
      (s 100 6).fault.lockout = false ∧ ∀ x ∈ (s 99 6).fault.dq, x.dtag = 1 → (s 99 6).tick < x.act) := by decide +kernel

theorem meets_SoftAndFlintResets_due :
    (let s := { owed .softReset (powered (fun p => { p with k2due := true }) .solo) with flint := { State.reset.flint with resetDue := true } }
     s.clocked = true ∧ s.isDue .softReset = true ∧ s.pow.k2due = true ∧ s.slate.st ≠ .committing ∧ s.flint.resetDue = true ∧ s.slicing = false) ∧
    (let s := { owed .flintReset State.reset with flint := { State.reset.flint with resetDue := true } }
     s.isDue .flintReset = true ∧ s.flint.resetDue = true ∧ s.slate.st ≠ .committing ∧ s.slicing = false) := by decide +kernel

/-- VMICA or V_CV gone again; the first tick and the first itk after a stop; a request to park at the arbiter. -/
theorem meets_SuppliesClockAndPowerStates_stops :
    (let s := owed (.vmicaHoldEnd 15) (isl15 1 (fun i => { i with cvOk := false, safe := { i.safe with noCarrier := true } }))
     s.clocked = true ∧ s.isDue (.vmicaHoldEnd 15) = true ∧ s.isl[15].cvOk = false) ∧
    State.reset.isDue (.vmicaHoldEnd 15) = false ∧
    (let s := isl15 5 (fun i => { i with safe := { i.safe with chFault := true } })
     s.isl[15].pers = .doPwm ∧ s.isl[15].inSafe = true) ∧
    (let s := { powered (fun p => { p with resumeAt := some 7 }) .solo with tick := 7, safe := { State.reset.safe with recStill := true, recSafeN := true } }
     s.pow.resumeAt = some s.tick ∧ s.tick.toNat % 2 = 1 ∧ s.safe.recStill = true ∧ s.safe.recSafeN = true) ∧
    (let s := { isl15 5 (fun i => { i with cmd := { i.cmd with en := true } }) with tick := 8, pow := { State.reset.pow with resumeAt := some 7 } }
     s.pow.hck = true ∧ s.pow.resumeAt = some 7 ∧ (7 : Tick) < s.tick ∧ s.tick.toNat % 2 = 0 ∧ s.running 15 = true ∧
      s.isl[15].pers = .doPwm ∧ s.isl[15].pwmMay = true ∧ s.isl[15].dout.run = false) ∧
    (let s := { powered (fun p => { p with ps := .parking }) .solo with tick := 8, ledq := [(8, .park .link)] }
     s.tick.toNat % 4 = 0 ∧ s.busy = false ∧ s.slate.st ≠ .committing ∧ s.ledq = (8, .park .link) :: [] ∧ s.pow.ps = .parking ∧
      s.running 15 = true ∧ s.pers 15 ≠ .off) := by decide +kernel

theorem meets_IslandReportsArrive_sources :
    ((0x09#8 : Byte) ∉ [0x10, 0x31, 0x4C, 0x4D, 0x4E] ∧ (0x4F#8 : Byte) ∉ [0x10, 0x31, 0x4C, 0x4D, 0x4E] ∧ (0x3F#8 < 0x40#8) ∧
      (0x4B#8 < 0x4F#8) ∧ (0x4E#8 : Byte) ∈ [0x10, 0x31, 0x4C, 0x4D, 0x4E]) ∧
    (let s := isl15 4 (fun i => { i with cvOk := false, safe := { i.safe with noCarrier := true } })
     s.clocked = true ∧ s.running 15 = true ∧ s.isl[15].cvOk = false ∧ s.pow.vmicaOk = true ∧ s.isl[15].safe.noCarrier = true) := by
  decide +kernel

theorem meets_CellsAreRepeatedThenDropped_up :
    ∃ c l, ((flying2 24 id).modIsl 15 (fun i => { i with up := i.up.map (fun c => { c with got := false }) })).isl[15].up = c :: l ∧
      c.sent = true ∧ c.slot + 24 ≤ (24 : Tick) ∧ c.got = false ∧ c.failed = false := ⟨_, _, rfl, rfl, by decide +kernel, rfl, rfl⟩

/-- An echo word within the words of the lock, and headers after too few ticks, in and outside a deaf deframer. -/
theorem meets_LinkTrainsAndHeaders_words :
    (let s := { link15 .echo none (fun l => { l with lockAt := 16, echoAt := 20 }) with tick := 23 }
     s.link.st = .echo ∧ s.tick = s.link.lockAt + BitVec.ofNat 64 (8 * 0 + 7) ∧ 8 * 0 + 7 < 2 ^ 64) ∧
    (let s := link15 .ready none id
     s.linkReady = true ∧ (15 : Nat) < 16 ∧ s.link.deaf = false ∧ ¬ ((16 : Nat) < 16 ∨ s.midFrame = true) ∧ s.link.loopAct ≠ 1) ∧
    (link15 .ready none (fun l => { l with loopAct := 1 })).link.loopAct = 1 ∧
    (link15 .ready none (fun l => { l with lmode := true })).link.lmode = true := by decide +kernel

/-- The tick of the CRC check; a frame that found no place; the loopback depths. -/
theorem meets_FramesAreJudged_check :
    (let s := { link15 .ready (some 0xB4300001) id with tick := 25 }
     s.tick + 1 = (0 : Tick) + BitVec.ofNat 64 (s.link.wordTk * ([0x20200000#32].length + 2) + 2)) ∧
    (∃ f, (link15 .ready (some 0xB4300001) (fun l => { l with cur := l.cur.map (fun c => { c with busy := true }) })).link.cur = some f ∧
      f.busy = true ∧ f.void = false) ∧
    (link15 .ready none (fun l => { l with loopAct := 1 })).link.loopAct = 1 ∧ (link15 .ready none id).link.queue = [] := by
  refine ⟨by decide +kernel, ⟨_, rfl, rfl, rfl⟩, rfl, rfl⟩

/-- A frame that is over with the next one behind it, a full read queue, and a reset that is pending. -/
theorem meets_CommandAndControlFrames_queue :
    (let s := link15 .ready none (fun l => { l with queue := [cmdFrame 2 [0x203FFFFC, 1] 2, cmdFrame 3 [0] 0] })
     s.clocked = true ∧ (cmdFrame 2 [0x203FFFFC, 1] 2).over = true ∧ s.leaving (cmdFrame 2 [0x203FFFFC, 1] 2) = false ∧
      s.link.queue = cmdFrame 2 [0x203FFFFC, 1] 2 :: [cmdFrame 3 [0] 0] ∧ (cmdFrame 3 [0] 0).over = false) ∧
    (let s := link15 .ready none (fun l => { l with queue := [cmdFrame 3 [0] 0], readq := List.replicate 64 { val := 0, err := false, wait := none } })
     (cmdFrame 3 [0] 0).over = false ∧ s.link.loopAct ≠ 3 ∧ (cmdFrame 3 [0] 0).type = 3 ∧ 64 ≤ s.link.readq.length) ∧
    (powered (fun p => { p with k2due := true }) .solo).pow.k2due = true ∧ ctrlCode [5] ≠ 0 := by decide +kernel

theorem meets_RegisterAccesses_islands :
    (let s := isl15 3 id
     s.clocked = true ∧ s.present 15 = true ∧ s.running 15 = true ∧ s.queueFull 15 = false) := by decide +kernel

theorem meets_SlateCommits_due :
    (owed .fullPass (commit15 true false)).isDue .fullPass = true ∧ (owed .commitComplete (commit15 true true)).isDue .commitComplete = true ∧
    State.reset.isDue .fullPass = false := by decide +kernel

theorem meets_KeyOperations_refused :
    (let s := { store15 id with nvm := { (store15 id).nvm with st := .busy } }
     50000 ≤ s.rate.toNat ∧ s.pow.above115 = false ∧ s.nvm.st ≠ .idle) ∧
    { store15 id with rate := 49999 }.rate.toNat < 50000 ∧
    { State.reset.slate with keys := State.reset.slate.keys.set 7 .revoked }.keys[7] = .revoked := by decide +kernel

theorem meets_DmaChainsStart_served :
    (let s := { dma15 0 1 id with appendAt := some 5 }
     s.isDue (.append .link 15 0) = false ∧ s.appendAt = some 5 ∧ s.tick ≤ 5) ∧
    (owed (.append .link 15 0) (dma15 0 1 id)).isDue (.append .link 15 0) = true ∧ (dma15 0 1 id).appendAt = none := by decide +kernel

theorem meets_DmaMovesWords_store :
    (let s := (move15 0x20200000 0 false).modCh 15 (fun h => { h with src := 0x30000000 })
     s.dma[15].st = .move ∧ s.dma[15].ahead = 0 ∧ regionOf s.member (s.dma[15].src.toNat / 4 * 4) = .nvm ∧
      s.flashBusy (s.dma[15].src.toNat / 4 * 4 - 0x30000000) = false) := by decide +kernel

theorem meets_NvmOperationsStart_scan :
    (let s := { State.reset with nvm := { State.reset.nvm with redo := false } }
     s.nvm.st ≠ .recovering ∧ s.nvm.redo = false ∧ s.nvm.intents = [] ∧ s.nvm.st ≠ .idle) ∧
    { store15 id with rate := 49999 }.nvm.st = .idle := by decide +kernel

/-- A reset waits for the slice; ABORT with a pulse waiting; a stop of HCK in the body; a sector of counter records has filled. -/
theorem meets_NvmSlicesAndRecovery_stops :
    (let s := { job15 .busy .body .program 65 0 with flint := { State.reset.flint with resetDue := true } }
     s.nvm.held = false ∧ s.nvm.stopAfter = none ∧ s.flint.resetDue = true ∧ ∀ e ∈ s.due, e.2 ≠ .flintReset) ∧
    (let s := job15 .stepWait .body .program 32 0
     s.nvm.st = .stepWait ∧ s.nvm.phase = .body ∧ s.nvm.redo = false ∧ NvmAfter.plain ≠ .journal) ∧
    ((job15 .idle .body .program 32 0).nvm.st ≠ .stepWait) ∧
    (let s := job15 .busy .body .program 32 0
     s.nvm.st = .busy ∧ s.nvm.held = false ∧ s.nvm.phase = .body) ∧
    (let s := store15 (fun v => { v with cpend := 0x40, cpos := 128, mem := [(0x1C0000 + 32 * 127, 0)] })
     s.nvm.st = .idle ∧ s.nvmFit = true ∧ s.counterPend 6 = true ∧ s.nvm.cpos % 128 = 0 ∧
      s.blank (s.member.nvmAt 0x1C_0000 + 32 * ((s.nvm.cpos + s.member.nvmAt 2048 - 1) % s.member.nvmAt 2048)) 32 = false) := by
  refine ⟨?_, ?_, ?_, ?_, ?_⟩ <;> decide +kernel

theorem meets_TandemFramesArrive_locked :
    (let s := { pair15 .active .training .none false with tan := { (pair15 .active .training .none false).tan with locked := true } }
     s.tan.role ≠ .solo ∧ s.tan.link ≠ .ready ∧ s.tan.locked = true) := by decide +kernel

/-- The host assists with and without its record ready; an ACK that is owed with the link lost, or alone. -/
theorem meets_RolesChangeHands_final :
    (let s := fun h => { pair15 .active .ready .none false with cfg := [(0x8000, 0x20000000)], tan := { (pair15 .active .ready .none false).tan with hrdy := h } }
     (s true).tanHac = true ∧ (s true).tan.hrdy = true ∧ (s false).tan.hrdy = false ∧ State.reset.tanHac = false) ∧
    (let s := { pair15 .standby .lost .none false with tan := { (pair15 .standby .lost .none false).tan with ackDue := true } }
     s.tan.ackDue = true ∧ s.tan.link ≠ .ready) ∧
    (owed .ackSend (pair15 .standby .ready .none false)).isDue .ackSend = true ∧
    (pair15 .standby .ready .none false).tan.ackDue = false := by decide +kernel


/-! ## Symbols, lands, times; expected values by hand from the rule named -/

/-- R35: CHECK of an empty cell is 0; of a lone DATA bit [0], the next after CHECK, it is x^6 mod x^6 + x + 1 = x + 1; one flipped bit
fails. -/
theorem test_cell_check : cellWord 0 0 0 = 0 ∧ cellWord 0 0 1 = 0x43 ∧ cellGood (cellWord 3 1 0x80000001) = true ∧
    cellGood (cellWord 3 1 0x80000001 ^^^ 0x80000) = false := by decide +kernel

/-- R32: PAR makes the six bits even. -/
theorem test_parity : stateField 0b10000 = 0b100001 ∧ stateField 0b10010 = 0b100100 ∧ stateGood 0b100000 = false := by decide +kernel

/-- R374, R375: 112 host lands in rows of fourteen at 1.00 mm; the first and the last centre. -/
theorem test_lands : hostLands.length = 112 ∧ hostLandAt 1 = (850, 200) ∧ hostLandAt 112 = (2150, 900) := by decide +kernel

/-- R73: a CYCLE frame of 24 words takes effect on tick 210 of its header tick, in the 8 tk words of the full link. -/
theorem test_effect_tick : (State.reset.effectTick { hdr := 0xB4100018, shortTail := false, tick := 0, snap := [], void := false, busy := false }) = 210 := by
  decide +kernel

/-- R63, R67: the eight ticks of a training word carry four bits each, the most significant first. -/
theorem test_training_bits : laneBits 0x6C93A55A 0 = 0x6 ∧ laneBits 0x6C93A55A 7 = 0xA := by decide +kernel

end Sys2Proof.Tests
end

/-! # Commands and control frames: the family of O50, O51 and O1 -/

namespace Sys2Proof.Machine

/-! ## The calendar, once more -/

/-- A command that is owed k ticks from now is in the calendar. -/
theorem State.mem_owe_self (s : State) (k : Nat) (c : Instr) : (s.tick + BitVec.ofNat 64 k, c) ∈ (s.owe k c).due :=
  State.mem_owe.2 (.inr rfl)

/-- A request at the end of the tail is in the calendar on that tick, and the calendar alone changes (R14). -/
theorem State.atTail_eq (s : State) (c : Instr) : s.atTail c = { s with due := (s.atTail c).due } :=
  State.oweAt_eq (s.cancel c) _ c

theorem State.mem_atTail_self (s : State) (c : Instr) : (laterTick s.tick s.link.tail, c) ∈ (s.atTail c).due :=
  State.mem_oweAt.2 (.inr rfl)

/-! ## The record of a raised fault -/

/-- A fault takes the number that R294 gives it among those of its tick. -/
theorem Collector.number_nextSeq (s : State) (src : Byte) : (s.fault.number s.tick src).2 = s.nextSeq src := by
  simp [Collector.number, Collector.above, State.nextSeq, List.countP_eq_length_filter]

/-- First-error capture changes the CAPT mark of a record alone (R293). -/
theorem Collector.capture_record (f : Collector) (r : FaultRec) : ∃ b, (f.capture r).2 = { r with capt := b } := by
  unfold Collector.capture
  split
  · exact ⟨true, rfl⟩
  · split
    · exact ⟨true, rfl⟩
    · exact ⟨r.capt, rfl⟩

/-- A pulse changes nothing of the collector. -/
theorem State.pulse_fault (s : State) (src : Nat) : (s.pulse src).fault = s.fault := by
  obtain ⟨d, hd⟩ := State.pulse_due s src
  rw [hd]

/-- The collector holds the record of a fault that reaches it (R290, R292, R295). -/
theorem State.raiseAt_raises (s : State) (stamp : Tick) (src m : Byte) (typ : BitVec 4) (kind : Byte) (a dt : Word) (inj : Bool) :
    Raises s (s.raiseAt stamp src m typ kind a dt inj) src m kind := by
  unfold State.raiseAt
  split
  rename_i f q hf
  have hq : q = s.nextSeq src := (congrArg Prod.snd hf).symm.trans (Collector.number_nextSeq s src)
  extract_lets mw ha queued grace base r first
  split
  rename_i s1 _ f' r' hc
  obtain ⟨b, hb⟩ := Collector.capture_record f r
  have hr : r' = { r with capt := b } := (congrArg Prod.snd hc).symm.trans hb
  have held (u : State) (hu : r' ∈ u.fault.react ++ u.fault.dq) : Raises s u src m kind := by
    subst hr
    exact ⟨_, hu, rfl, rfl, rfl, hq, rfl⟩
  split
  · exact held _ (by rw [State.owe_eq]; simp)
  · exact held _ (by rw [State.owe_eq]; simp [Collector.log])

/-- Taking a row off the calendar changes the calendar alone. -/
theorem State.settle_eq (s : State) (c : Instr) : s.settle c = { s with due := (s.settle c).due } := rfl

/-- An access error is held by the collector under its source (R288). -/
theorem State.accFault_raises (s : State) (e : AccErr) (m : Master) (typ : BitVec 4) (a : Nat) :
    Raises s (s.accFault e m typ a) e.src (mid m) 0 := State.raiseAt_raises ..

/-- What SRAM reads depends on its bytes alone. -/
theorem State.sram_congr {s u : State} (h : u.mem = s.mem) (a : Nat) : u.sram a = s.sram a := by rw [State.sram, h, State.sram]

theorem State.sramWord_congr {s u : State} (h : u.mem = s.mem) (a : Nat) : u.sramWord a = s.sramWord a := by
  simp only [State.sramWord, State.sram_congr h]

/-- What the collector holds depends on the collector alone. -/
theorem Raises.congr {s u v : State} {src m k : Byte} (h : Raises s u src m k) (he : v.fault = u.fault) : Raises s v src m k := by
  unfold Raises at h ⊢
  rwa [he]

/-- A word write changes SRAM alone. -/
theorem State.putSram_eq (s : State) (a : Nat) (w : Word) : s.putSram a w = { s with mem := (s.putSram a w).mem } :=
  State.putBytes_eq s a _

/-- A word write leaves every byte outside the word. -/
theorem State.sram_putSram_outside {s : State} {a b : Nat} {w : Word} (h : Memory.wf s.mem = true) (hb : b < a ∨ a + 4 ≤ b) :
    (s.putSram a w).sram b = s.sram b := by
  have hl : (wordsBytes [w]).length = 4 := rfl
  rw [State.putSram, State.sram_putBytes h, dif_neg (by omega)]

/-! ## The frame in front of the command queue -/

/-- Shared SRAM, or a slice. -/
def Region.isSram : Region → Bool
  | .shared => true | .slice _ => true | _ => false

theorem Region.isSram_iff {r : Region} : r.isSram = true ↔ r = .shared ∨ ∃ t, r = .slice t := by
  cases r <;> simp [Region.isSram]

/-- COMMAND_EXECUTE on a queue, as a state function. -/
theorem exec_commandExecute_front {s : State} {f : CmdFrame} {r : List CmdFrame} (hc : s.clocked = true) (hq : s.link.queue = f :: r)
    (ho : f.over = false) : exec .commandExecute s = .next ((s.settle .commandExecute).frameNext f) := by
  have hq' : (s.settle .commandExecute).link.queue = f :: r := hq
  simp only [exec_commandExecute, execCommandExecute, State.act_on _ hc, hq', ho, Bool.false_eq_true, if_false]

/-- A frame that is over waits a tick while cells of its words are still to go (R79; log entry 23). -/
theorem exec_commandExecute_leaving {s : State} {f : CmdFrame} {r : List CmdFrame} (hc : s.clocked = true) (hq : s.link.queue = f :: r)
    (ho : f.over = true) (hl : s.leaving f = true) :
    exec .commandExecute s = .next ((s.settle .commandExecute).owe 1 .commandExecute) := by
  have hq' : (s.settle .commandExecute).link.queue = f :: r := hq
  have hl' : (s.settle .commandExecute).leaving f = true := hl
  simp only [exec_commandExecute, execCommandExecute, State.act_on _ hc, hq', ho, hl', if_true]

/-- The last frame leaves the queue once its cells have gone. -/
theorem exec_commandExecute_last {s : State} {f : CmdFrame} (hc : s.clocked = true) (hq : s.link.queue = [f])
    (ho : f.over = true) (hl : s.leaving f = false) :
    exec .commandExecute s = .next ((s.settle .commandExecute).modLink (fun l => { l with queue := [] })) := by
  have hq' : (s.settle .commandExecute).link.queue = [f] := hq
  have hl' : (s.settle .commandExecute).leaving f = false := hl
  simp only [exec_commandExecute, execCommandExecute, State.act_on _ hc, hq', ho, hl', if_true, Bool.false_eq_true, if_false]

/-- A frame whose cells have gone leaves, and the next starts on the same tick. -/
theorem exec_commandExecute_gone {s : State} {f g : CmdFrame} {l : List CmdFrame} (hc : s.clocked = true)
    (hq : s.link.queue = f :: g :: l) (ho : f.over = true) (hl : s.leaving f = false) (hg : g.over = false) :
    exec .commandExecute s = exec .commandExecute { s with link := { s.link with queue := g :: l } } := by
  have hq' : (s.settle .commandExecute).link.queue = f :: g :: l := hq
  have hl' : (s.settle .commandExecute).leaving f = false := hl
  rw [exec_commandExecute_front (s := { s with link := { s.link with queue := g :: l } }) hc rfl hg]
  simp only [exec_commandExecute, execCommandExecute, State.act_on _ hc, hq', ho, hl', if_true, Bool.false_eq_true, if_false]
  rfl

/-- A REGW or BULK frame needs no place in the read queue without a register echo (R86, R97). -/
theorem State.noRoom_write {s : State} {f : CmdFrame} (hf : f.type ≠ 3) (ha : s.link.loopAct ≠ 3) : s.noRoom f = false := by
  simp only [State.noRoom, decide_eq_false hf, decide_eq_false ha, Bool.and_false, Bool.or_self]

/-- A REGR frame waits while the read queue is full (R86). -/
theorem State.noRoom_read {s : State} {f : CmdFrame} (hf : f.type = 3) : s.noRoom f = decide (64 ≤ s.link.readq.length) := by
  simp only [State.noRoom, decide_eq_true hf, Bool.true_or, Bool.and_true]

/-- The frame in front has gone on by one word: the next is due k ticks later, and the access holds the bank or register of address b
on this tick (R78-R80). -/
def MovesOn (s u : State) (f : CmdFrame) (r : List CmdFrame) (k b : Nat) : Prop :=
  u.link.queue = { f with idx := f.idx + 1 } :: r ∧ (s.tick + BitVec.ofNat 64 k, .commandExecute) ∈ u.due ∧
  u.link.touch = (touchOf s.member b).map (fun x => (s.tick, x))

/-- Executing a word leaves all but the link and the calendar as its access made it. -/
theorem State.frameGo_eq (s : State) (f : CmdFrame) :
    s.frameGo f = { (s.frameWord f).state with link := (s.frameGo f).link, due := (s.frameGo f).due } := by
  unfold State.frameGo
  rw [State.owe_eq]
  rfl

@[simp] theorem State.frameGo_mem (s : State) (f : CmdFrame) : (s.frameGo f).mem = (s.frameWord f).state.mem :=
  (congrArg State.mem (s.frameGo_eq f) :)
@[simp] theorem State.frameGo_fault (s : State) (f : CmdFrame) : (s.frameGo f).fault = (s.frameWord f).state.fault :=
  (congrArg State.fault (s.frameGo_eq f) :)
@[simp] theorem State.frameGo_isl (s : State) (f : CmdFrame) : (s.frameGo f).isl = (s.frameWord f).state.isl :=
  (congrArg State.isl (s.frameGo_eq f) :)

/-- Executing a word leaves all of the link but the queue and the touch as its access made it. -/
theorem State.frameGo_link (s : State) (f : CmdFrame) : (s.frameGo f).link =
    { (s.frameWord f).state.link with touch := (s.frameGo f).link.touch, queue := (s.frameGo f).link.queue } := by
  unfold State.frameGo
  rw [State.owe_eq]
  rfl

/-- A frame whose word was accessed goes on. -/
theorem State.frameGo_movesOn {s t : State} {f : CmdFrame} {r : List CmdFrame} {k : Nat}
    (hd : s.frameWord f = { state := t, words := 1, ticks := k }) (hq : t.link.queue = f :: r) (ht : t.tick = s.tick) :
    MovesOn s (s.frameGo f) f r k f.next := by
  have htick (u : State) (hu : u.tick = t.tick) : (s.tick + BitVec.ofNat 64 k, .commandExecute) ∈ (u.owe k .commandExecute).due := by
    rw [← ht, ← hu]
    exact State.mem_owe_self u k _
  unfold State.frameGo
  rw [hd]
  refine ⟨?_, htick _ rfl, ?_⟩
  all_goals rw [State.owe_eq]
  · simp only [State.modLink, hq]
  · rfl

theorem CmdFrame.next_write {f : CmdFrame} (hf : f.type ≠ 3) : f.next = f.addr f.idx := if_neg hf
theorem CmdFrame.next_read {f : CmdFrame} (hf : f.type = 3) : f.next = (f.payload.getD f.idx 0).toNat / 4 * 4 := if_pos hf

/-- Without a register echo a REGW frame writes its word. -/
theorem State.frameWord_regw {s : State} {f : CmdFrame} (hf : f.type = 2) (ha : s.link.loopAct ≠ 3) :
    s.frameWord f = s.regwWord f f.idx := by
  have hne : f.type ≠ 3 := by rw [hf]; decide
  rw [State.frameWord, if_neg hne, if_pos hf, State.echoRead, if_neg (fun h => ha h.1)]

/-- A BULK frame writes its word. -/
theorem State.frameWord_bulk {s : State} {f : CmdFrame} (hf : f.type = 4) : s.frameWord f = s.bulkWord f f.idx := by
  have h3 : f.type ≠ 3 := by rw [hf]; decide
  have h2 : f.type ≠ 2 := by rw [hf]; decide
  rw [State.frameWord, if_neg h3, if_neg h2]

/-- A REGW or BULK word for SRAM is written, in 2 or 1 ticks (R79). -/
theorem State.frameWord_sram {s : State} {f : CmdFrame} {k : Nat × Nat} (hk : k ∈ [(2, 2), (4, 1)]) (hf : f.type.toNat = k.1)
    (ha : s.link.loopAct ≠ 3) (hr : (regionOf s.member (f.addr f.idx)).isSram = true) :
    s.frameWord f = { state := s.putSram (f.addr f.idx) (f.payload.getD f.idx 0), words := 1, ticks := k.2 } := by
  simp only [List.mem_cons, List.not_mem_nil, or_false] at hk
  rcases hk with rfl | rfl
  · rw [State.frameWord_regw (BitVec.eq_of_toNat_eq hf) ha, State.regwWord]
    rcases Region.isSram_iff.1 hr with h | ⟨t, h⟩ <;> rw [h]
  · rw [State.frameWord_bulk (BitVec.eq_of_toNat_eq hf), State.bulkWord]
    rcases Region.isSram_iff.1 hr with h | ⟨t, h⟩ <;> rw [h]

/-- A REGR word of SRAM enters the read queue while that has room, in 2 ticks (R79, R86). -/
theorem State.frameWord_read {s : State} {f : CmdFrame} (hf : f.type = 3) (hl : s.link.readq.length < 64)
    (hr : (regionOf s.member f.next).isSram = true) :
    s.frameWord f = { state := s.modLink (fun l => { l with
      readq := l.readq ++ [{ val := s.sramWord f.next, err := false, wait := none }] }), words := 1, ticks := 2 } := by
  have hd (v : Word) : s.deliver .link v = s.modLink (fun l => { l with readq := l.readq ++ [{ val := v, err := false, wait := none }] }) :=
    if_pos hl
  rw [State.frameWord, if_pos hf, State.linkRead]
  rcases Region.isSram_iff.1 hr with h | ⟨t, h⟩ <;> simp only [h, hd]

/-- A REGW or BULK word at an unmapped address fails (R88, R90). -/
theorem State.frameWord_unmapped {s : State} {f : CmdFrame} (hf : f.type = 2 ∨ f.type = 4) (ha : s.link.loopAct ≠ 3)
    (hr : regionOf s.member (f.addr f.idx) = .none) :
    (s.frameWord f).state = s.linkFails f f.idx .addr (f.addr f.idx) := by
  rcases hf with h | h
  · rw [State.frameWord_regw h ha, State.regwWord, hr]
  · rw [State.frameWord_bulk h, State.bulkWord, hr]

/-- The reference of a frame's word names its SEQ, its TYPE and the word (R88). -/
theorem CmdFrame.xref_fields (f : CmdFrame) (k : Nat) : (f.xref k).extractLsb' 15 4 = f.seq ∧ (f.xref k).extractLsb' 11 4 = f.type ∧
    (f.xref k).extractLsb' 0 11 = BitVec.ofNat 11 k :=
  ⟨(BitVec.extractLsb'_append_eq_of_le (by decide)).trans BitVec.extractLsb'_append_eq_left,
   (BitVec.extractLsb'_append_eq_of_le (by decide)).trans BitVec.extractLsb'_append_eq_right, BitVec.extractLsb'_append_eq_right⟩

/-- The state in which a word of the frame in front has failed (R88). -/
theorem State.linkFails_spec {s : State} {f : CmdFrame} {r : List CmdFrame} (hq : s.link.queue = f :: r) (k : Nat) (e : AccErr) (a : Nat) :
    let u := s.linkFails f k e a
    u.link.xerr = true ∧ u.link.xseq = f.seq ∧ u.link.xtype = f.type ∧ u.link.xword = BitVec.ofNat 11 k ∧ u.mem = s.mem ∧
    (∃ l, u.link.queue = { f with stop := true } :: l) ∧ Raises s u e.src 0x00 0 := by
  obtain ⟨hseq, htype, hword⟩ := f.xref_fields k
  obtain ⟨d, c, hu⟩ := State.accFault_eq (s.linkXerr (f.xref k)) e .link 2 a
  have hr : Raises s (s.linkFails f k e a) e.src 0x00 0 := State.accFault_raises (s.linkXerr (f.xref k)) e .link 2 a
  refine ⟨?_, ?_, ?_, ?_, ?_, ?_, hr⟩
  all_goals rw [State.linkFails, hu]
  · rfl
  · exact hseq
  · exact htype
  · exact hword
  · rfl
  · exact ⟨_, by simp only [State.linkXerr, hq, List.map_cons, hseq, htype, and_self, if_true]; rfl⟩

/-- A frame that has room goes on with its next word. -/
theorem exec_commandExecute_go {s : State} {f : CmdFrame} {r : List CmdFrame} (hc : s.clocked = true) (hq : s.link.queue = f :: r)
    (ho : f.over = false) (hn : s.noRoom f = false) : exec .commandExecute s = .next ((s.settle .commandExecute).frameGo f) := by
  have hn' : (s.settle .commandExecute).noRoom f = false := hn
  rw [exec_commandExecute_front hc hq ho, State.frameNext, hn', if_neg Bool.false_ne_true]

/-- A REGW or BULK word of SRAM is written (R79, R88, R90). -/
theorem commandExecute_sram {s : State} {f : CmdFrame} {r : List CmdFrame} (hc : s.clocked = true) (hq : s.link.queue = f :: r)
    (ho : f.over = false) (ha : s.link.loopAct ≠ 3) {k : Nat × Nat} (hk : k ∈ [(2, 2), (4, 1)]) (hf : f.type.toNat = k.1)
    (hr : (regionOf s.member (f.addr f.idx)).isSram = true) (hm : Memory.wf s.mem = true) : Completes .commandExecute s (fun u =>
      u.sramWord (f.addr f.idx) = f.payload.getD f.idx 0 ∧ (∀ b : Nat, b < f.addr f.idx ∨ f.addr f.idx + 4 ≤ b → u.sram b = s.sram b) ∧
      Memory.wf u.mem = true ∧ MovesOn s u f r k.2 (f.addr f.idx) ∧ u.fault = s.fault ∧ u.isl = s.isl) := by
  have h3 : f.type ≠ 3 := by
    rintro h
    rw [h] at hf
    revert k
    decide
  have hw := State.frameWord_sram (s := s.settle .commandExecute) hk hf ha hr
  have hmov := State.frameGo_movesOn (s := s.settle .commandExecute) (r := r) hw hq rfl
  refine ⟨_, exec_commandExecute_go hc hq ho (State.noRoom_write h3 ha), ?_⟩
  rw [CmdFrame.next_write h3] at hmov
  have hmem : ((s.settle .commandExecute).frameGo f).mem = (s.putSram (f.addr f.idx) (f.payload.getD f.idx 0)).mem := by
    rw [State.frameGo_mem, hw]
    rfl
  refine ⟨?_, fun b hb => ?_, ?_, hmov, ?_, ?_⟩
  · exact (State.sramWord_congr hmem _).trans (State.sramWord_putSram hm)
  · exact (State.sram_congr hmem _).trans (State.sram_putSram_outside hm hb)
  · exact hmem ▸ State.putSram_wf _ _ hm
  · rw [State.frameGo_fault, hw, State.putSram_eq]
    rfl
  · rw [State.frameGo_isl, hw, State.putSram_eq]
    rfl

/-- A REGR word of SRAM enters the read queue (R79, R86, R89). -/
theorem commandExecute_read {s : State} {f : CmdFrame} {r : List CmdFrame} (hc : s.clocked = true) (hq : s.link.queue = f :: r)
    (ho : f.over = false) (hf : f.type = 3) (hl : s.link.readq.length < 64) (hr : (regionOf s.member f.next).isSram = true) :
    Completes .commandExecute s (fun u =>
      u.link.readq = s.link.readq ++ [{ val := s.sramWord f.next, err := false, wait := none }] ∧ MovesOn s u f r 2 f.next ∧
      u.mem = s.mem ∧ u.fault = s.fault) := by
  have hw := State.frameWord_read (s := s.settle .commandExecute) hf hl hr
  have hmov := State.frameGo_movesOn (s := s.settle .commandExecute) (r := r) hw hq rfl
  refine ⟨_, exec_commandExecute_go hc hq ho ?_, ?_⟩
  · rw [State.noRoom_read hf]
    exact decide_eq_false (by omega)
  · refine ⟨?_, hmov, ?_, ?_⟩
    · rw [State.frameGo_link, hw]
      rfl
    · rw [State.frameGo_mem, hw]
      rfl
    · rw [State.frameGo_fault, hw]
      rfl

/-- A frame that cannot go on yet is due again on the next tick. -/
def WaitsATick (s u : State) : Prop := u = { s with due := u.due } ∧ (s.tick + 1, .commandExecute) ∈ u.due

theorem State.settle_owe_waits (s : State) : WaitsATick s ((s.settle .commandExecute).owe 1 .commandExecute) := by
  refine ⟨?_, State.mem_owe_self (s.settle .commandExecute) 1 _⟩
  rw [State.owe_eq]
  rfl

/-- A REGR frame waits a tick for a place in the read queue (R86). -/
theorem commandExecute_readFull {s : State} {f : CmdFrame} {r : List CmdFrame} (hc : s.clocked = true) (hq : s.link.queue = f :: r)
    (ho : f.over = false) (hf : f.type = 3) (hl : 64 ≤ s.link.readq.length) : Completes .commandExecute s (WaitsATick s) := by
  have hn : (s.settle .commandExecute).noRoom f = true := (State.noRoom_read hf).trans (decide_eq_true hl)
  refine ⟨_, exec_commandExecute_front hc hq ho, ?_⟩
  rw [State.frameNext, if_pos hn]
  exact State.settle_owe_waits s

/-- A REGW or BULK word at an unmapped address stops its frame (R88, R90). -/
theorem commandExecute_unmapped {s : State} {f : CmdFrame} {r : List CmdFrame} (hc : s.clocked = true) (hq : s.link.queue = f :: r)
    (ho : f.over = false) (ha : s.link.loopAct ≠ 3) (hf : f.type = 2 ∨ f.type = 4) (hr : regionOf s.member (f.addr f.idx) = .none) :
    Completes .commandExecute s (fun u =>
      u.link.xerr = true ∧ u.link.xseq = f.seq ∧ u.link.xtype = f.type ∧ u.link.xword = BitVec.ofNat 11 f.idx ∧ u.mem = s.mem ∧
      (∃ g, u.link.queue.head? = some g ∧ g.stop = true ∧ g.seq = f.seq) ∧ Raises s u 0x08 0x00 0) := by
  have h3 : f.type ≠ 3 := by rcases hf with h | h <;> rw [h] <;> decide
  have hw := State.frameWord_unmapped (s := s.settle .commandExecute) hf ha hr
  obtain ⟨hx, hseq, htype, hword, hmem, ⟨l, hl⟩, hraise⟩ :=
    State.linkFails_spec (s := s.settle .commandExecute) hq f.idx .addr (f.addr f.idx)
  rw [← hw] at hx hseq htype hword hmem hl hraise
  refine ⟨_, exec_commandExecute_go hc hq ho (State.noRoom_write h3 ha), ?_⟩
  have hhead : ((s.settle .commandExecute).frameGo f).link.queue.head? =
      some { f with stop := true, idx := f.idx + ((s.settle .commandExecute).frameWord f).words } := by
    rw [State.frameGo, State.owe_eq]
    simp only [State.modLink, hl, List.head?_cons]
  have hlink := (s.settle .commandExecute).frameGo_link f
  refine ⟨?_, ?_, ?_, ?_, (State.frameGo_mem _ f).trans hmem, ⟨_, hhead, rfl, rfl⟩, ?_⟩
  · rw [hlink]; exact hx
  · rw [hlink]; exact hseq
  · rw [hlink]; exact htype
  · rw [hlink]; exact hword
  · exact hraise.congr (State.frameGo_fault _ f)

/-! ## Control frames -/

/-- A counter to which nothing is added stays. -/
@[simp] theorem satAdd_zero {w : Nat} (x : BitVec w) : satAdd x 0 = x := by
  have h : min (x.toNat + 0) (2 ^ w - 1) = x.toNat := by have := x.isLt; omega
  rw [satAdd, h, BitVec.ofNat_toNat, BitVec.setWidth_eq]

@[simp] theorem State.clamped_link_zero (s : State) : s.clamped .link 0 = s := by
  simp [State.clamped]

/-- The words that go upstream once the payload and CRC word of a good frame have come (R97). -/
def Link.echoed (l : Link) (h : Word) (p : List Word) : List Word :=
  if l.loopAct = 2 then (twinHeader h :: p) ++ [crc32c (twinHeader h :: p)] else if l.loopAct = 1 then (h :: p) ++ [crc32c (h :: p)]
  else l.twin

theorem State.echoTwin_good (s : State) (f : CurFrame) (p : List Word) : s.echoTwin f p (crc32c (f.hdr :: p)) =
    s.modLink (fun l => { l with twin := s.link.echoed f.hdr p }) := by
  unfold State.echoTwin Link.echoed
  split
  · rfl
  · split <;> rfl

section FrameEnd

variable {s : State} {row : Instr} {type : Nat} {p : List Word} {crc : Word} {act : State → CurFrame → State} {f : CurFrame}

/-- A frame row waits for the effect tick of its frame (R73; log entry 35). -/
theorem State.frameEnd_wait (hw : s.awake = true) (hf : s.link.cur = some f) (ht : frameType f.hdr = type)
    (hl : frameLen f.hdr = p.length) (he : s.tick < s.effectTick f) :
    s.frameEnd row type p crc act = (s.oweAt (s.effectTick f) row).echoTwin f p crc := by
  simp only [State.frameEnd, hw, hf, ht, hl, he, ne_eq, not_true_eq_false, or_self, Bool.not_true, Bool.false_eq_true, if_false, if_true]

/-- A frame with a good CRC that no reset has voided is taken on its effect tick; a frame echo takes CTRL alone (R73, R97). -/
theorem State.frameEnd_take (hw : s.awake = true) (hf : s.link.cur = some f) (ht : frameType f.hdr = type)
    (hl : frameLen f.hdr = p.length) (he : s.effectTick f ≤ s.tick) (hv : f.void = false) (ha : s.link.loopAct ≠ 2 ∨ type = 5) :
    s.frameEnd row type p (crc32c (f.hdr :: p)) act = act { s with due := (s.settle row).due, link := { s.link with
      cur := none, bad := 0, twin := s.link.echoed f.hdr p } } f := by
  have he' : ¬ s.tick < s.effectTick f := by simpa using he
  have ha' : ¬ (s.link.loopAct = 2 ∧ type ≠ 5) := by tauto
  unfold State.frameEnd
  rw [if_neg (by simp [hw]), hf]
  dsimp only
  rw [if_neg (by simp [ht, hl]), if_neg he', if_neg (by simp [hv]), if_neg (by simp), State.echoTwin_good]
  exact if_neg ha'

end FrameEnd

/-- A row of a CTRL frame, with the code of its command (R91). -/
def ctrlRows (p : List Word) (crc : Word) : List (Instr × Nat) :=
  [(.ctrlNop p crc, 0), (.linkReset p crc, 1), (.ctrlRetrain p crc, 2), (.resendReads p crc, 3), (.flushReads p crc, 4),
    (.ctrlLoop p crc, 5)]

/-- Each of the rows is a CTRL frame that acts in its own way. -/
theorem exec_ctrlRow {p : List Word} {crc : Word} {c : Instr × Nat} (hc : c ∈ ctrlRows p crc) (s : State) :
    ∃ act, exec c.1 s = .next (s.ctrl c.1 c.2 p crc act) := by
  simp only [ctrlRows, List.mem_cons, List.not_mem_nil, or_false] at hc
  rcases hc with rfl | rfl | rfl | rfl | rfl | rfl <;> exact ⟨_, rfl⟩

section Taken

variable {s : State} {p : List Word} {f : CurFrame} {row : Instr} {code : Nat} {act : State → State}

/-- A row of another command than the frame's does nothing. -/
theorem State.ctrl_other {crc : Word} (h : ctrlCode p ≠ code) : s.ctrl row code p crc act = s := if_pos h

/-- Before the effect tick of its frame the row waits in the calendar (R73; log entry 35). -/
theorem State.ctrl_wait (hw : s.awake = true) (hf : s.link.cur = some f) (ht : frameType f.hdr = 5) (hl : frameLen f.hdr = p.length)
    (hk : ctrlCode p = code) (he : s.tick < s.effectTick f) : s.ctrl row code p (crc32c (f.hdr :: p)) act =
      { s.oweAt (s.effectTick f) row with link := { s.link with twin := s.link.echoed f.hdr p } } := by
  rw [State.ctrl, if_neg (not_not.2 hk), State.frameEnd_wait hw hf ht hl he, State.echoTwin_good, State.oweAt_eq]
  rfl

/-- A good CTRL frame on its effect tick, before its command acts: it sets E whatever its SEQ (R76). -/
def State.ctrlTaken (s : State) (row : Instr) (f : CurFrame) (p : List Word) : State :=
  { s with due := (s.settle row).due, link := { s.link with
      cur := none, bad := 0, expSeq := frameSeq f.hdr + 1, eFree := false, twin := s.link.echoed f.hdr p } }

/-- On its effect tick a good CTRL frame acts, shows its result, and counts a reserved code as a clamp (R12, R85, R91). -/
theorem State.ctrl_take (hw : s.awake = true) (hf : s.link.cur = some f) (ht : frameType f.hdr = 5) (hl : frameLen f.hdr = p.length)
    (hk : ctrlCode p = code) (he : s.effectTick f ≤ s.tick) (hv : f.void = false) : s.ctrl row code p (crc32c (f.hdr :: p)) act =
      ((act (s.ctrlTaken row f p)).frameDone f 0).clamped .link (b2n (decide (fld (p.getD 0 0) 0 8 ≠ code))) := by
  rw [State.ctrl, if_neg (not_not.2 hk), State.frameEnd_take hw hf ht hl he hv (.inr rfl)]
  rfl

end Taken

/-- A command that is not NOP has its own code. -/
theorem fld_of_ctrlCode {p : List Word} {k : Nat} (h : ctrlCode p = k + 1) : fld (p.getD 0 0) 0 8 = k + 1 := by
  unfold ctrlCode at h
  split at h
  · exact h
  · cases h

/-! ## What the commands of CTRL frames change -/

/-- One function of every island in turn changes the islands alone. -/
theorem State.foldl_modIsl (s : State) (l : List IslandNo) (f : Island → Island) :
    l.foldl (fun (s : State) (n : IslandNo) => s.modIsl n f) s =
      { s with isl := (l.foldl (fun (s : State) (n : IslandNo) => s.modIsl n f) s).isl } := by
  induction l generalizing s with
  | nil => rfl
  | cons n l ih => exact ih (s.modIsl n f)

/-- A start of a timer changes the calendar and the timers alone (R241). -/
theorem State.tmrStart_eq (s : State) (k : Fin 16) : ∃ d e, s.tmrStart k = { s with due := d, evt := e } := by
  have hset (u : State) (w : Nat) : ∃ d e, u.tmrSet k w = { u with due := d, evt := e } := ⟨_, _, State.owe_eq ..⟩
  unfold State.tmrStart
  dsimp only
  split
  · exact hset _ _
  · exact hset _ _
  · exact ⟨_, _, rfl⟩

/-- The restart of the timers changes the calendar and the timers alone (R241). -/
theorem State.tmrRestart_eq (s : State) : ∃ d e, s.tmrRestart = { s with due := d, evt := e } := by
  unfold State.tmrRestart
  refine List.foldlRecOn (motive := fun (u : State) => ∃ d e, u = { s with due := d, evt := e }) timers _ ⟨s.due, s.evt, rfl⟩ ?_
  rintro _ ⟨d, e, rfl⟩ k _
  exact State.tmrStart_eq _ k

/-- What starts on the next tick starts with the tick that stands, where it changes the calendar and the timers alone. -/
theorem State.nextTick_tmrRestart (s : State) : ∃ d e, s.nextTick State.tmrRestart = { s with due := d, evt := e } := by
  obtain ⟨d, e, h⟩ := State.tmrRestart_eq { s with tick := s.tick + 1 }
  exact ⟨d, e, by rw [State.nextTick, h]⟩

/-- What a K0 reset leaves of the state, and the fields that it clears (R370). -/
theorem State.k0_eq (s : State) : ∃ d e i c w, s.k0 = { s with
    due := d, evt := e, isl := i, fault := c, pow := w, link := { s.link with loopReq := 0, loopAct := 0 },
    slate := { s.slate with keydata := Vector.replicate 8 0 } } ∧ w.k1cnt = s.pow.k1cnt := by
  unfold State.k0
  dsimp only
  rw [State.foldl_modIsl]
  obtain ⟨d, e, h⟩ := State.nextTick_tmrRestart _
  rw [h]
  exact ⟨d, e, _, _, _, rfl, rfl⟩

/-- What a K1 reset leaves of the state, and the fields that it clears (R91, R370). -/
theorem State.k1_eq (s : State) (l : List CmdFrame) : ∃ d e i c w, s.k1 l = { s with
    due := d, evt := e, isl := i, fault := c, pow := w,
    link := { s.link with loopReq := 0, loopAct := 0, expSeq := 0, eFree := true, queue := l, readq := [], last := [], replay := false,
                          xseq := 0, xtype := 0, xword := 0, xerr := false },
    slate := { s.slate with keydata := Vector.replicate 8 0 } } ∧ w.k1cnt = s.pow.k1cnt := by
  obtain ⟨d, e, i, c, w, h0, hw⟩ := s.k0_eq
  unfold State.k1
  dsimp only
  rw [State.foldl_modIsl, h0]
  split
  · exact ⟨_, e, _, c, w, rfl, hw⟩
  · exact ⟨d, e, _, c, w, rfl, hw⟩

/-- FLUSH_READS empties the read queue and the last batch; reads that are out lose their reader (R91). -/
theorem State.flushReads_eq (s : State) : ∃ i, s.flushReads = { s with isl := i, link := { s.link with readq := [], last := [] } } := by
  unfold State.flushReads State.dropReads
  rw [State.foldl_modIsl]
  generalize State.isl (List.foldl _ _ _) = i
  exact ⟨i, rfl⟩

/-- The bits of a field, as a number and as bits. -/
theorem ofNat_fld {w : Nat} (x : BitVec w) (lo len : Nat) : BitVec.ofNat len (fld x lo len) = x.extractLsb' lo len := by
  apply BitVec.eq_of_toNat_eq
  simp [fld]

/-- A loopback depth that the link asks for comes into force at the end of the tail; a reserved one falls back to 0 (R97, R101). -/
theorem State.askLoop_link (s : State) (d : Nat) : ∃ e, s.askLoop .link d = { s with
    due := e, clampLink := if 3 < d then satAdd s.clampLink 1 else s.clampLink,
    link := { s.link with loopReq := if 3 < d then 0 else BitVec.ofNat 3 d } } ∧ (laterTick s.tick s.link.tail, .loopApply) ∈ e := by
  have hclamp : s.clampIf .link (decide (3 < d)) = { s with clampLink := if 3 < d then satAdd s.clampLink 1 else s.clampLink } := by
    by_cases hd : 3 < d <;> simp [State.clampIf, hd, State.clamped]
  unfold State.askLoop
  rw [hclamp]
  refine ⟨_, State.atTail_eq _ _, State.mem_atTail_self _ _⟩

section Commands

variable {s : State} {p : List Word} {f : CurFrame} (hw : s.awake = true) (hf : s.link.cur = some f) (ht : frameType f.hdr = 5)
  (hl : frameLen f.hdr = p.length) (he : s.effectTick f ≤ s.tick) (hv : f.void = false)

/-- The link after a good CTRL frame whose command leaves it (R76, R85, R91). -/
def State.ctrlLink (s : State) (f : CurFrame) (p : List Word) : Link := { s.link with
  cur := none, bad := 0, expSeq := frameSeq f.hdr + 1, eFree := false, pseq := frameSeq f.hdr, pres := if f.shortTail then 5 else 0,
  twin := s.link.echoed f.hdr p }

/-- The result of a frame that was taken. -/
theorem State.frameDone_zero (s : State) (f : CurFrame) : s.frameDone f 0 =
    s.modLink (fun l => { l with pseq := frameSeq f.hdr, pres := if f.shortTail then 5 else 0 }) := by
  simp only [State.frameDone, true_and]

include hw hf ht hl he hv

/-- A good CTRL frame of a command with a code of its own acts and shows its result. -/
theorem State.ctrl_act {row : Instr} {k : Nat} {act : State → State} (hk : ctrlCode p = k + 1) :
    s.ctrl row (k + 1) p (crc32c (f.hdr :: p)) act = (act (s.ctrlTaken row f p)).modLink (fun l =>
      { l with pseq := frameSeq f.hdr, pres := if f.shortTail then 5 else 0 }) := by
  rw [State.ctrl_take hw hf ht hl hk he hv, fld_of_ctrlCode hk, State.frameDone_zero]
  simp [b2n]

/-- NOP does nothing more, and a reserved code counts a clamp (R12, R91). -/
theorem exec_ctrlNop_good (hk : ctrlCode p = 0) : Completes (.ctrlNop p (crc32c (f.hdr :: p))) s (fun u => u = { s with
    due := u.due, link := s.ctrlLink f p,
    clampLink := if 5 < fld (p.getD 0 0) 0 8 then satAdd s.clampLink 1 else s.clampLink }) := by
  refine ⟨_, rfl, ?_⟩
  rw [State.ctrl_take hw hf ht hl hk he hv, State.frameDone_zero]
  by_cases h5 : 5 < fld (p.getD 0 0) 0 8
  · have h0 : fld (p.getD 0 0) 0 8 ≠ 0 := by omega
    rw [if_pos h5, decide_eq_true h0]
    rfl
  · have h0 : fld (p.getD 0 0) 0 8 = 0 := by
      rw [ctrlCode, if_pos (by omega)] at hk
      exact hk
    rw [if_neg h5, h0]
    rw [decide_eq_false (not_not.2 rfl), b2n, if_neg Bool.false_ne_true, State.clamped_link_zero]
    rfl

/-- A K1 reset is absorbed while a reset of a higher level is pending (R354). -/
theorem exec_linkReset_absorbed (hk : ctrlCode p = 1) (hp : s.pow.k2due = true ∨ s.flint.resetDue = true) :
    Completes (.linkReset p (crc32c (f.hdr :: p))) s (fun u => u = { s with due := u.due, link := s.ctrlLink f p }) := by
  have hr : (s.ctrlTaken (.linkReset p (crc32c (f.hdr :: p))) f p).resetPends = true :=
    Bool.or_eq_true_iff.2 hp
  refine ⟨_, rfl, ?_⟩
  rw [State.ctrl_act hw hf ht hl he hv hk, State.linkReset, if_pos hr]
  rfl

/-- A K1 reset keeps the frame in front, the banks and SRAM (R91, R370). -/
theorem exec_linkReset_k1 (hk : ctrlCode p = 1) (h2 : s.pow.k2due = false) (h3 : s.flint.resetDue = false) :
    Completes (.linkReset p (crc32c (f.hdr :: p))) s (fun u =>
      u.pow.k1cnt = satAdd s.pow.k1cnt 1 ∧ u.link.expSeq = 0 ∧ u.link.eFree = true ∧ u.link.queue = s.link.queue.take 1 ∧
      u.link.readq = [] ∧ u.link.last = [] ∧ u.link.xerr = false ∧ u.link.xseq = 0 ∧ u.link.loopAct = 0 ∧
      u.slate.keydata = Vector.replicate 8 0 ∧ u.link.pres = (s.ctrlLink f p).pres ∧ u.mem = s.mem ∧ u.cfg = s.cfg) := by
  have hr : (s.ctrlTaken (.linkReset p (crc32c (f.hdr :: p))) f p).resetPends = false := by simp [State.resetPends, State.ctrlTaken, h2, h3]
  obtain ⟨d, e, i, c, w, h1, hcnt⟩ := (s.ctrlTaken (.linkReset p (crc32c (f.hdr :: p))) f p).k1_eq (s.link.queue.take 1)
  have hcnt : w.k1cnt = s.pow.k1cnt := hcnt
  refine ⟨_, rfl, ?_⟩
  rw [State.ctrl_act hw hf ht hl he hv hk, State.linkReset, hr, if_neg Bool.false_ne_true]
  rw [show (s.ctrlTaken (.linkReset p (crc32c (f.hdr :: p))) f p).link.queue = s.link.queue from rfl, h1]
  exact ⟨congrArg (satAdd · 1) hcnt, rfl, rfl, rfl, rfl, rfl, rfl, rfl, rfl, rfl, rfl, rfl, rfl⟩

/-- Retraining starts at the end of the tail (R14, R91). -/
theorem exec_ctrlRetrain_ready (hk : ctrlCode p = 2) (hs : s.link.st = .ready) (hm : s.link.lmode = false) :
    Completes (.ctrlRetrain p (crc32c (f.hdr :: p))) s (fun u =>
      u = { s with due := u.due, link := { s.ctrlLink f p with retrain := true } } ∧
      (laterTick s.tick s.link.tail, .retrainApply) ∈ u.due) := by
  have hno : ¬ ((s.ctrlTaken (.ctrlRetrain p (crc32c (f.hdr :: p))) f p).link.lmode = true ∨
      (s.ctrlTaken (.ctrlRetrain p (crc32c (f.hdr :: p))) f p).link.st ≠ .ready) := by simp [State.ctrlTaken, hs, hm]
  refine ⟨_, rfl, ?_⟩
  rw [State.ctrl_act hw hf ht hl he hv hk, State.askRetrain, if_neg hno]
  refine ⟨?_, State.mem_atTail_self _ _⟩
  rw [State.atTail_eq]
  rfl

/-- RESEND_READS asks for the last batch again (R91; log entry 55). -/
theorem exec_resendReads_good (hk : ctrlCode p = 3) : Completes (.resendReads p (crc32c (f.hdr :: p))) s (fun u =>
    u = { s with due := u.due, link := { s.ctrlLink f p with replay := true } }) := by
  refine ⟨_, rfl, ?_⟩
  rw [State.ctrl_act hw hf ht hl he hv hk]
  rfl

/-- FLUSH_READS leaves no read word (R91). -/
theorem exec_flushReads_good (hk : ctrlCode p = 4) : Completes (.flushReads p (crc32c (f.hdr :: p))) s (fun u =>
    u = { s with due := u.due, isl := u.isl, link := { s.ctrlLink f p with readq := [], last := [] } }) := by
  obtain ⟨i, hi⟩ := (s.ctrlTaken (.flushReads p (crc32c (f.hdr :: p))) f p).flushReads_eq
  refine ⟨_, rfl, ?_⟩
  rw [State.ctrl_act hw hf ht hl he hv hk, hi]
  rfl

/-- CTRL_LOOP asks for a loopback depth (R97, R101). -/
theorem exec_ctrlLoop_good (hk : ctrlCode p = 5) : Completes (.ctrlLoop p (crc32c (f.hdr :: p))) s (fun u =>
    let d := fld (p.getD 1 0) 0 3
    u.link = { s.ctrlLink f p with loopReq := if 3 < d then 0 else (p.getD 1 0).extractLsb' 0 3 } ∧
    u.clampLink = (if 3 < d then satAdd s.clampLink 1 else s.clampLink) ∧
    u = { s with due := u.due, link := u.link, clampLink := u.clampLink } ∧ (laterTick s.tick s.link.tail, .loopApply) ∈ u.due) := by
  obtain ⟨e, hask, hmem⟩ := (s.ctrlTaken (.ctrlLoop p (crc32c (f.hdr :: p))) f p).askLoop_link (fld (p.getD 1 0) 0 3)
  refine ⟨_, rfl, ?_⟩
  rw [State.ctrl_act hw hf ht hl he hv hk, hask, ofNat_fld]
  exact ⟨rfl, rfl, rfl, hmem⟩

end Commands

/-! ## The command queue and CTRL frames (O50) -/

/-- Settles O50: the frame in front of the queue by what its next word does, a CTRL frame by its command; each clause is the lemma
above that names it. -/
theorem commandAndControlFrames : Obligations.CommandAndControlFrames := by
  unfold Obligations.CommandAndControlFrames
  refine ⟨?_, ?_⟩
  · intro s f r hc hq
    refine ⟨?_, ?_, ?_, ?_⟩
    · intro ho hl
      exact ⟨_, exec_commandExecute_leaving hc hq ho hl, s.settle_owe_waits⟩
    · rintro ho hl rfl
      exact ⟨_, exec_commandExecute_last hc hq ho hl, rfl⟩
    · rintro ho hl ⟨g, l, rfl, hg⟩
      exact exec_commandExecute_gone hc hq ho hl hg
    · intro ho ha
      refine ⟨?_, ?_, ?_, ?_⟩
      · intro k hk hf hr hm
        exact commandExecute_sram hc hq ho ha hk hf (Region.isSram_iff.2 hr) hm
      · rintro b hf rfl hl hr
        rw [← CmdFrame.next_read hf] at hr ⊢
        exact commandExecute_read hc hq ho hf hl (Region.isSram_iff.2 hr)
      · intro hf hl
        exact commandExecute_readFull hc hq ho hf hl
      · intro hf hr
        exact commandExecute_unmapped hc hq ho ha hf hr
  · intro s p f hw hf ht hl
    refine ⟨?_, ?_, ?_⟩
    · intro c hc hk he
      obtain ⟨act, hact⟩ := exec_ctrlRow hc s
      exact ⟨_, hact, State.ctrl_wait hw hf ht hl hk he⟩
    · intro c hc hk
      obtain ⟨act, hact⟩ := exec_ctrlRow hc s
      exact hact.trans (congrArg _ (State.ctrl_other hk))
    · intro he hv
      refine ⟨exec_ctrlNop_good hw hf ht hl he hv, exec_linkReset_absorbed hw hf ht hl he hv, exec_linkReset_k1 hw hf ht hl he hv,
        exec_ctrlRetrain_ready hw hf ht hl he hv, exec_resendReads_good hw hf ht hl he hv, exec_flushReads_good hw hf ht hl he hv,
        exec_ctrlLoop_good hw hf ht hl he hv⟩

/-! ## The safe bit of the downstream lanes -/

/-- The lane of island n follows what demands its SAFE bit (R269). -/
def State.laneFollows (s : State) (n : IslandNo) : Prop := s.isl[n].laneDn.safe = s.safeBit n

/-- The downstream lane of an island and the reflex demand on it. -/
def Island.lanes (i : Island) : DLane × DLane := (i.laneDn, i.rfx)

theorem Island.lanes_ite (p : Prop) [Decidable p] (i j : Island) : (if p then i else j).lanes = if p then i.lanes else j.lanes :=
  apply_ite Island.lanes p i j
theorem Island.lanes_ana (i : Island) (a : Analog) : { i with ana := a }.lanes = i.lanes := rfl
theorem Island.lanes_safe (i : Island) (l : SafeLogic) : { i with safe := l }.lanes = i.lanes := rfl
theorem Island.lanes_keep (i : Island) (v : BitVec 16) (on : Bool) : (i.keep v on).lanes = i.lanes := rfl
theorem Island.lanes_enter (i : Island) (now : Tick) (b : BitVec 16) : (i.enter now b).lanes = i.lanes := rfl

/-- What the SAFE bits of the lanes depend on, and the lanes. -/
def State.laneView (s : State) : Safety × Collector × Vector (DLane × DLane) 16 :=
  (s.safe, s.fault, s.isl.map Island.lanes)

theorem State.safe_of_laneView {s u : State} (h : u.laneView = s.laneView) : u.safe = s.safe := congrArg Prod.fst h

/-- Whether a lane follows depends on the lane view alone. -/
theorem State.laneFollows_congr {s u : State} (h : u.laneView = s.laneView) {n : IslandNo} (hs : s.laneFollows n) : u.laneFollows n := by
  simp only [State.laneView, Prod.mk.injEq] at h
  obtain ⟨hsafe, hfault, hisl⟩ := h
  have hn := congrArg (fun v => v[n]) hisl
  simp only [Fin.getElem_fin, Vector.getElem_map, Island.lanes, Prod.mk.injEq] at hn
  obtain ⟨hlane, hrfx⟩ := hn
  unfold State.laneFollows State.safeBit at hs ⊢
  simp only [Fin.getElem_fin] at hs ⊢
  rw [hlane, hrfx, hsafe, hfault]
  exact hs

/-- What changes neither the lanes nor the reflex of an island leaves the SAFE bits. -/
theorem State.laneView_modIsl_at (s : State) (n : IslandNo) (f : Island → Island)
    (h : (f s.isl[n]).lanes = s.isl[n].lanes) : (s.modIsl n f).laneView = s.laneView := by
  have hi : (s.modIsl n f).isl.map Island.lanes = s.isl.map Island.lanes := by
    refine Vector.ext fun k hk => ?_
    by_cases he : n.val = k
    · subst he
      simpa [State.modIsl] using h
    · simp [State.modIsl, he]
  exact congrArg (fun v => (s.safe, s.fault, v)) hi

theorem State.laneView_modIsl (s : State) (n : IslandNo) (f : Island → Island) (h : ∀ i, (f i).lanes = i.lanes) :
    (s.modIsl n f).laneView = s.laneView := s.laneView_modIsl_at n f (h _)

theorem State.laneView_cancel (s : State) (c : Instr) : (s.cancel c).laneView = s.laneView := rfl

theorem State.laneView_owe (s : State) (k : Nat) (c : Instr) : (s.owe k c).laneView = s.laneView := by
  rw [State.owe_eq]
  rfl

theorem State.laneView_setSwitch (s : State) (n : IslandNo) (b : Bool) : (s.setSwitch n b).laneView = s.laneView := by
  unfold State.setSwitch
  dsimp only
  split
  · rfl
  · split
    · rw [State.laneView_owe]
      exact State.laneView_modIsl _ _ _ fun _ => rfl
    · exact State.laneView_modIsl _ _ _ fun _ => rfl

theorem State.laneView_pwmStop (s : State) (n : IslandNo) : (s.pwmStop n).laneView = s.laneView := by
  rw [State.pwmStop, State.laneView_setSwitch]
  exact State.laneView_modIsl _ _ _ fun _ => rfl

theorem State.laneView_pwmOff (s : State) (n : IslandNo) : (s.pwmOff n).laneView = s.laneView := by
  rw [State.pwmOff, State.laneView_setSwitch]
  exact State.laneView_modIsl _ _ _ fun _ => rfl

theorem State.laneView_pwmStart (s : State) (n : IslandNo) : (s.pwmStart n).laneView = s.laneView := by
  unfold State.pwmStart
  dsimp only
  split
  · rw [State.laneView_owe, State.laneView_setSwitch]
    exact State.laneView_modIsl _ _ _ fun _ => rfl
  · rw [State.laneView_owe, State.laneView_owe, State.laneView_setSwitch]
    exact State.laneView_modIsl _ _ _ fun _ => rfl

theorem State.laneView_digOutputs (s : State) (n : IslandNo) (later : Bool) : (s.digOutputs n later).laneView = s.laneView := by
  unfold State.digOutputs
  dsimp only
  repeat' split
  all_goals simp only [State.laneView_setSwitch, State.laneView_pwmStop, State.laneView_pwmOff, State.laneView_pwmStart]

theorem State.laneView_anaOutputs (s : State) (n : IslandNo) : (s.anaOutputs n).laneView = s.laneView := by
  unfold State.anaOutputs
  dsimp only
  split
  · rfl
  · exact State.laneView_modIsl _ _ _ fun _ => rfl

theorem State.laneView_outputs (s : State) (n : IslandNo) (later : Bool) : (s.outputs n later).laneView = s.laneView := by
  unfold State.outputs
  dsimp only
  split
  · exact s.laneView_digOutputs n later
  · split
    · exact s.laneView_anaOutputs n
    · rfl

theorem State.laneView_recapture (s : State) (n : IslandNo) : (s.recapture n).laneView = s.laneView := by
  unfold State.recapture
  split
  · exact State.laneView_modIsl _ _ _ fun _ => rfl
  · rfl

/-- A change of an island's demands that leaves its lane and its reflex demand leaves the SAFE bits (R269). -/
theorem State.laneView_demands (s : State) (n : IslandNo) (f : Island → Island)
    (h : (f s.isl[n]).lanes = s.isl[n].lanes) : (s.demands n f).laneView = s.laneView := by
  unfold State.demands
  rw [State.laneView_outputs, State.laneView_recapture, State.laneView_modIsl_at]
  simp only [Island.lanes_ite, Island.lanes_safe, Island.lanes_enter, Island.lanes_keep, Island.lanes_ana, h, ite_self]

theorem State.laneView_marksEnd (s : State) : s.marksEnd.laneView = s.laneView := by
  unfold State.marksEnd
  split
  · rfl
  · refine List.foldlRecOn (motive := fun (u : State) => u.laneView = s.laneView) islands _ rfl fun u hu n _ => ?_
    split
    · exact (State.laneView_demands u n _ rfl).trans hu
    · exact hu

/-- The lane bits of island n as they stand (R32, R246, R248). -/
def State.laneNow (s : State) (n : IslandNo) : DLane :=
  { out := if s.isl[n].rfx.force then s.isl[n].rfx.out else s.isl[n].outBit, force := s.isl[n].rfx.force, psel := s.isl[n].rfx.psel,
    safe := s.safeBit n }

/-- An update gives an island's lane the bits as they stand. -/
theorem State.laneUpdate_isl (s : State) (n : IslandNo) :
    (s.laneUpdate n).isl = s.isl.set n { s.isl[n] with laneDn := s.laneNow n } := by
  by_cases h : s.laneNow n = s.isl[n].laneDn
  · have hs : s.laneUpdate n = s := if_pos h
    rw [hs, h]
    exact (Vector.set_getElem_self _).symm
  · have hs : s.laneUpdate n = (let u := s.modIsl n fun i => { i with laneDn := s.laneNow n }
        if u.running n then u.sendLane (12 + s.itk) (.down n (s.laneNow n)) else u) := if_neg h
    rw [hs]
    dsimp only
    split <;> rfl

/-- The lane of an island follows its demands after an update, and an update of another leaves it. -/
theorem State.laneFollows_laneUpdate (s : State) (n m : IslandNo) (h : m = n ∨ s.laneFollows m) : (s.laneUpdate n).laneFollows m := by
  have hi := s.laneUpdate_isl n
  rw [State.laneUpdate_eq]
  unfold State.laneFollows State.safeBit at h ⊢
  dsimp only
  rw [hi]
  by_cases he : m = n
  · subst he
    simp [State.laneNow, State.safeBit]
  · have hv : n.val ≠ m.val := fun e => he (Fin.ext e.symm)
    simpa [hv] using h.resolve_left he

/-- After an update of all lanes each follows its demands. -/
theorem State.lanesUpdate_follows (s : State) (n : IslandNo) : s.lanesUpdate.laneFollows n := by
  have key (l : List IslandNo) (u : State) (h : n ∈ l ∨ u.laneFollows n) :
      (l.foldl (fun (s : State) (n : IslandNo) => s.laneUpdate n) u).laneFollows n := by
    induction l generalizing u with
    | nil => exact h.resolve_left (List.not_mem_nil)
    | cons m l ih =>
      rw [List.mem_cons, or_assoc] at h
      refine ih _ ?_
      rcases h with rfl | hl | hf
      · exact .inr (u.laneFollows_laneUpdate n n (.inl rfl))
      · exact .inl hl
      · exact .inr (u.laneFollows_laneUpdate m n (.inr hf))
  exact key islands s (.inl (mem_islands n))

/-- An update of all lanes changes the islands and what is on its way alone. -/
theorem State.lanesUpdate_eq (s : State) : ∃ i t, s.lanesUpdate = { s with isl := i, transit := t } := by
  unfold State.lanesUpdate
  refine List.foldlRecOn (motive := fun (u : State) => ∃ i t, u = { s with isl := i, transit := t }) islands _
    ⟨s.isl, s.transit, rfl⟩ ?_
  rintro _ ⟨i, t, rfl⟩ n _
  exact ⟨_, _, State.laneUpdate_eq _ n⟩

/-- After a demand ends or begins the latches are what was written, and every lane follows (R269). -/
theorem State.safeEnds_spec (s : State) (f : Safety → Safety) :
    (s.safeEnds f).safe = f s.safe ∧ ∀ n : IslandNo, (s.safeEnds f).laneFollows n := by
  obtain ⟨i, t, hu⟩ := State.lanesUpdate_eq { s with safe := f s.safe }
  have hsafe : (s.modSafe f).safe = f s.safe := by
    rw [State.modSafe, hu]
  have hf (n : IslandNo) : (s.modSafe f).laneFollows n := State.lanesUpdate_follows _ n
  rw [State.safeEnds]
  generalize s.modSafe f = u at hsafe hf
  have hv := u.laneView_marksEnd
  exact ⟨(State.safe_of_laneView hv).trans hsafe, fun n => State.laneFollows_congr hv (hf n)⟩

/-! ## Register writes -/

/-- The host-die registers lie below 0xA000. -/
theorem regionOf_reg (m : Member) {a : Nat} (h : a < 0xA000) : regionOf m a = .reg := if_pos h

/-- A write of a host-die register that the master may make puts the word there (R10, R412). -/
theorem exec_registerWrite_put {s : State} {m : Master} {addr : Word} {a : Nat} (w : Word) (hc : s.clocked = true)
    (ha : addr.toNat / 4 * 4 = a) (hr : a < 0xA000) (he : (s.settle (.registerWrite m addr w)).regWriteError m a w = none) :
    exec (.registerWrite m addr w) s = .next ((s.settle (.registerWrite m addr w)).putReg m a w) := by
  have hr' : regionOf (s.settle (.registerWrite m addr w)).member a = .reg := regionOf_reg _ hr
  simp only [exec_registerWrite, execRegisterWrite, State.act_on _ hc, ha, hr', State.writeReg, he]

/-- A register write of the link or a thread that is refused is an access error (R88). -/
theorem exec_registerWrite_refused {s : State} {m : Master} {addr : Word} {a : Nat} {e : AccErr} (w : Word) (hc : s.clocked = true)
    (ha : addr.toNat / 4 * 4 = a) (hr : a < 0xA000) (hu : a ≠ 0x9004 ∧ a ≠ 0x5050)
    (he : (s.settle (.registerWrite m addr w)).regWriteError m a w = some e) :
    exec (.registerWrite m addr w) s = .next ((s.settle (.registerWrite m addr w)).accFault e m 2 a) := by
  have hr' : regionOf (s.settle (.registerWrite m addr w)).member a = .reg := regionOf_reg _ hr
  have hw : (s.settle (.registerWrite m addr w)).refusedWrite m a w = s.settle (.registerWrite m addr w) := by
    rw [State.refusedWrite, if_neg hu.1, if_neg (fun h => hu.2 h.1)]
  simp only [exec_registerWrite, execRegisterWrite, State.act_on _ hc, ha, hr', State.writeReg, he, hw]

/-- What the controller takes up changes the controller and the calendar alone (R313, R317, R321). -/
theorem State.nvmNext_eq (s : State) : ∃ d v, s.nvmNext = { s with due := d, nvm := v } := by
  unfold State.nvmNext
  split
  all_goals
    dsimp only
    repeat' split
  all_goals first | exact ⟨_, _, rfl⟩ | exact ⟨_, _, State.owe_eq ..⟩

/-- A written rate takes its legal neighbour, and a clamp is counted (R12, R22). -/
theorem State.writeRate_eq (s : State) (m : Master) (w : Word) : ∃ d v, s.writeRate m w =
    { s.clampIf m (decide (rateClamp s.link.lmode (fld w 0 18) ≠ fld w 0 18)) with
      rate := BitVec.ofNat 18 (rateClamp s.link.lmode (fld w 0 18)), due := d, nvm := v } := by
  unfold State.writeRate
  dsimp only
  split
  · obtain ⟨d, v, h⟩ := State.nvmNext_eq _
    exact ⟨d, v, h⟩
  · obtain ⟨d, v, h⟩ := State.nvmNext_eq _
    exact ⟨d, v, h⟩

/-- Outside bring-up mode a rate from 25 000 to 200 000 is legal (R22). -/
theorem rateClamp_keep {r : Nat} (hl : 25000 ≤ r) (hh : r ≤ 200000) : rateClamp false r = r := by
  rw [rateClamp, if_neg (by omega), if_neg Bool.false_ne_true, Nat.min_eq_right hh, Nat.max_eq_right hl]

/-- Outside bring-up mode 200 000 is the highest rate (R22). -/
theorem rateClamp_high {r : Nat} (h : 200000 < r) : rateClamp false r = 200000 := by
  rw [rateClamp, if_neg (by omega), if_neg Bool.false_ne_true, Nat.min_eq_left h.le]
  rfl

/-- The link and the threads may write these registers (R412). -/
theorem regWriteError_open {m : Master} (hm : m = .link ∨ ∃ t, m = .thread t) {a : Nat} (ha : a ∈ [0x010, 0x140, 0x4008]) (w : Word)
    (u : State) : u.regWriteError m a w = none := by
  simp only [List.mem_cons, List.not_mem_nil, or_false] at ha
  rcases hm with rfl | ⟨t, rfl⟩ <;> rcases ha with rfl | rfl | rfl <;> rfl

theorem State.putReg_rate (s : State) (m : Master) (w : Word) : s.putReg m 0x010 w 0 = s.writeRate m w := by
  simp [State.putReg, State.writeHost]
theorem State.putReg_safeCmd (s : State) (m : Master) (w : Word) : s.putReg m 0x140 w 0 = s.safeCmdWrite w := by
  simp [State.putReg, State.writeHost]
theorem State.putReg_launchPc (s : State) (m : Master) (w : Word) :
    s.putReg m 0x4008 w 0 = { s with facet := { s.facet with launchPc := w &&& 0xFFFFFFFC } } := by
  simp [State.putReg, State.writeFacet]

/-- A rate in range is taken as it is, and nothing is clamped (R22). -/
theorem registerWrite_rate {s : State} {m : Master} (hc : s.clocked = true) (hm : m = .link ∨ ∃ t, m = .thread t) {w : Word}
    (hb : s.link.lmode = false) (hl : 25000 ≤ fld w 0 18) (hh : fld w 0 18 ≤ 200000) : Completes (.registerWrite m 0x010 w) s (fun u =>
      u.rate = w.extractLsb' 0 18 ∧ u.clampLink = s.clampLink ∧ u.clampT = s.clampT ∧ u.fault = s.fault) := by
  have hk := (congrArg (rateClamp · (fld w 0 18)) hb).trans (rateClamp_keep hl hh)
  obtain ⟨d, v, hu⟩ := (s.settle (.registerWrite m 0x010 w)).writeRate_eq m w
  refine ⟨_, exec_registerWrite_put (a := 0x010) w hc rfl (by decide) (regWriteError_open hm (by decide) w _), ?_⟩
  rw [State.putReg_rate, hu,
    show rateClamp (s.settle (.registerWrite m 0x010 w)).link.lmode (fld w 0 18) = fld w 0 18 from hk, ofNat_fld]
  simp [State.clampIf]

/-- A rate above the range is the highest one, and the clamp is the link's (R12, R22). -/
theorem registerWrite_rateHigh {s : State} (hc : s.clocked = true) {w : Word} (hb : s.link.lmode = false) (hh : 200000 < fld w 0 18) :
    Completes (.registerWrite .link 0x010 w) s (fun u =>
      u.rate = 200000 ∧ u.clampLink = satAdd s.clampLink 1 ∧ u.fault = s.fault) := by
  have hk := (congrArg (rateClamp · (fld w 0 18)) hb).trans (rateClamp_high hh)
  obtain ⟨d, v, hu⟩ := (s.settle (.registerWrite .link 0x010 w)).writeRate_eq .link w
  refine ⟨_, exec_registerWrite_put (a := 0x010) w hc rfl (by decide) (regWriteError_open (.inl rfl) (by decide) w _), ?_⟩
  rw [State.putReg_rate, hu,
    show rateClamp (s.settle (.registerWrite .link 0x010 w)).link.lmode (fld w 0 18) = 200000 from hk,
    State.clampIf, if_pos (decide_eq_true (by omega))]
  exact ⟨rfl, rfl, rfl⟩

/-- SAFE_CMD is written, and every lane follows (R269). -/
theorem registerWrite_safeCmd {s : State} {m : Master} (hc : s.clocked = true) (hm : m = .link ∨ ∃ t, m = .thread t) (w : Word) :
    Completes (.registerWrite m 0x140 w) s (fun u =>
      u.safe = { s.safe with cmd := w.extractLsb' 0 16 } ∧ ∀ n : IslandNo, u.isl[n].laneDn.safe = u.safeBit n) := by
  obtain ⟨hsafe, hlane⟩ := (s.settle (.registerWrite m 0x140 w)).safeEnds_spec (fun z => { z with cmd := w.extractLsb' 0 16 })
  refine ⟨_, exec_registerWrite_put (a := 0x140) w hc rfl (by decide) (regWriteError_open hm (by decide) w _), ?_⟩
  rw [State.putReg_safeCmd, State.safeCmdWrite]
  generalize State.safeEnds _ _ = u at hsafe hlane
  exact ⟨hsafe, hlane⟩

/-- LAUNCH_PC takes the word address (R10, R216). -/
theorem registerWrite_launchPc {s : State} {m : Master} (hc : s.clocked = true) (hm : m = .link ∨ ∃ t, m = .thread t) (w : Word) :
    Completes (.registerWrite m 0x4008 w) s (fun u =>
      u = { s with due := u.due, facet := { s.facet with launchPc := w &&& 0xFFFFFFFC } }) :=
  ⟨_, exec_registerWrite_put (a := 0x4008) w hc rfl (by decide) (regWriteError_open hm (by decide) w _), by
    rw [State.putReg_launchPc]
    rfl⟩

/-- A refused write of a thread is ACC_MASTER and changes no register (R88, R412). -/
theorem registerWrite_denied {s : State} (hc : s.clocked = true) (t : CtxNo) (w : Word) :
    Completes (.registerWrite (.thread t) 0x148 w) s (fun u =>
      u.safe = s.safe ∧ u.isl = s.isl ∧ Raises s u 0x09 (mid (.thread t)) 0) := by
  refine ⟨_, exec_registerWrite_refused (a := 0x148) (e := .master) w hc rfl (by decide) (by decide) rfl, ?_⟩
  obtain ⟨d, f, hu⟩ := State.accFault_eq (s.settle (.registerWrite (.thread t) 0x148 w)) .master (.thread t) 2 0x148
  have hr := State.accFault_raises (s.settle (.registerWrite (.thread t) 0x148 w)) .master (.thread t) 2 0x148
  refine ⟨?_, ?_, hr⟩
  all_goals rw [hu]; rfl

/-- A write at an address that the index does not list is ACC_ADDR and changes no register (R88, R412). -/
theorem registerWrite_unlisted {s : State} (hc : s.clocked = true) (m : Master) (w : Word) :
    Completes (.registerWrite m 0x00C w) s (fun u =>
      u = { s with fault := u.fault, due := u.due } ∧ Raises s u 0x08 (mid m) 0) := by
  refine ⟨_, exec_registerWrite_refused (a := 0x00C) (e := .addr) w hc rfl (by decide) (by decide) rfl, ?_⟩
  obtain ⟨d, f, hu⟩ := State.accFault_eq (s.settle (.registerWrite m 0x00C w)) .addr m 2 0x00C
  have hr := State.accFault_raises (s.settle (.registerWrite m 0x00C w)) .addr m 2 0x00C
  refine ⟨?_, hr⟩
  rw [hu]
  rfl

/-! ## Writes in an island's window -/

/-- The address of an island's register, in words. -/
theorem islReg_toNat (n : IslandNo) : (0x00100000 ||| BitVec.ofNat 32 (0x1000 * n.val) ||| 0x10 : Word).toNat / 4 * 4 = islBase n + 0x10 ∧
    (0x00100000 ||| BitVec.ofNat 32 (0x1000 * n.val) ||| 0x44 : Word).toNat / 4 * 4 = islBase n + 0x44 := by
  revert n
  decide

/-- An island's window belongs to the island while the member has it (R54). -/
theorem regionOf_isl {s : State} {n : IslandNo} (h : s.present n = true) {o : Nat} (ho : o < 0x1000) :
    regionOf s.member (islBase n + o) = .isl n ∧ (islBase n + o) % 0x1000 = o := by
  have hn : n.val < s.member.islands := of_decide_eq_true h
  have hlt := n.isLt
  have hb : (islBase n + o - 0x00100000) / 0x1000 = n.val := by unfold islBase; omega
  refine ⟨?_, by unfold islBase; omega⟩
  rw [regionOf, if_neg (by unfold islBase; omega), if_pos (by unfold islBase; omega), hb, if_pos hn]
  exact congrArg Region.isl (Fin.ext (Nat.mod_eq_of_lt hlt))

/-- A write of LEDGER becomes a request, which reaches the arbiter 4 tk after the next edge of HCK/4 (R20, R21, R54). -/
theorem registerWrite_ledger {s : State} (hc : s.clocked = true) (m : Master) {n : IslandNo} (hp : s.present n = true) (w : Word) :
    Completes (.registerWrite m (0x00100000 ||| BitVec.ofNat 32 (0x1000 * n.val) ||| 0x10) w) s (fun u =>
      u = { s with due := u.due, ledq := s.ledq ++ [(s.tick + BitVec.ofNat 64 ((4 - s.tick.toNat % 4) % 4 + 4), .write n w m)] }) := by
  obtain ⟨hr, ho⟩ := regionOf_isl hp (o := 0x10) (by decide)
  have ha := (islReg_toNat n).1
  generalize (0x00100000 ||| BitVec.ofNat 32 (0x1000 * n.val) ||| 0x10 : Word) = addr at ha ⊢
  have hr' : regionOf (s.settle (.registerWrite m addr w)).member (islBase n + 0x10) = .isl n := hr
  have he : exec (.registerWrite m addr w) s = .next ((s.settle (.registerWrite m addr w)).ledPut (.write n w m)) := by
    simp only [exec_registerWrite, execRegisterWrite, State.act_on _ hc, ha, hr', ho]
    rfl
  exact ⟨_, he, rfl⟩

/-- A cell that is queued for an island changes the island alone. -/
theorem State.send_other (s : State) {n k : IslandNo} (h : k ≠ n) (req : Master) (d : DownData) (a : Word) (x : BitVec 19) :
    (s.send n req d a x).isl[k] = s.isl[k] := s.modIsl_other n k _ h

/-- A cell that waits goes on waiting behind another. -/
theorem Queues.send {s : State} {n : IslandNo} {r r' : Master} {d d' : DownData} {a : Word} {x : BitVec 19} (h : Queues s n r d) :
    Queues (s.send n r' d' a x) n r d := by
  obtain ⟨c, hc, hd, hr, hs⟩ := h
  refine ⟨c, ?_, hd, hr, hs⟩
  rw [State.send, State.sendFrom, State.modIsl_same]
  exact mem_insertDown.2 (.inr hc)

/-- A cell that is queued waits for the island. -/
theorem queues_send (s : State) (n : IslandNo) (r : Master) (d : DownData) (a : Word) (x : BitVec 19) : Queues (s.send n r d a x) n r d :=
  ⟨_, s.send_down n r d a x, rfl, rfl, rfl⟩

/-- A write of a register that lies on the island is a WADDR and a WDATA cell in its queue (R37, R88). -/
theorem registerWrite_island {s : State} (hc : s.clocked = true) (m : Master) {n : IslandNo} (hp : s.present n = true)
    (hrun : s.running n = true) (hq : s.queueFull n = false) (w : Word) :
    Completes (.registerWrite m (0x00100000 ||| BitVec.ofNat 32 (0x1000 * n.val) ||| 0x44) w) s (fun u =>
      Queues u n m (.waddr 0x44) ∧ Queues u n m (.wdata w) ∧ IslandOnly s u n) := by
  obtain ⟨hr, ho⟩ := regionOf_isl hp (o := 0x44) (by decide)
  have ha := (islReg_toNat n).2
  generalize (0x00100000 ||| BitVec.ofNat 32 (0x1000 * n.val) ||| 0x44 : Word) = addr at ha ⊢
  have hr' : regionOf (s.settle (.registerWrite m addr w)).member (islBase n + 0x44) = .isl n := hr
  have hrun' : (s.settle (.registerWrite m addr w)).running n = true := hrun
  have hq' : (s.settle (.registerWrite m addr w)).queueFull n = false := hq
  have he : exec (.registerWrite m addr w) s = .next (((s.settle (.registerWrite m addr w)).send n m (.waddr 0x44)
      (BitVec.ofNat 32 (islBase n + 0x44))).send n m (.wdata w) (BitVec.ofNat 32 (islBase n + 0x44))) := by
    simp only [exec_registerWrite, execRegisterWrite, State.act_on _ hc, ha, hr', State.islCells, hrun', hq', ho]
    rfl
  refine ⟨_, he, (queues_send _ n m _ _ _).send, queues_send _ n m _ _ _, rfl, fun k hk => ?_⟩
  rw [State.send_other _ hk, State.send_other _ hk]
  rfl

/-! ## Reads of TICK_LO -/

/-- A read of TICK_LO gives the low word and keeps the high one (R25). -/
theorem tickLoRead_completes {s : State} (hc : s.clocked = true) {m : Master} (hm : m = .link ∨ ∃ t, m = .thread t) :
    Completes (.tickLoRead m) s (fun u =>
      u.snapHi = s.tick.extractLsb' 32 32 ∧ u = { s with snapHi := u.snapHi, link := u.link, dma := u.dma }) := by
  refine ⟨_, by rw [exec_tickLoRead, execTickLoRead, State.act_on _ hc], ?_⟩
  rcases hm with rfl | ⟨t, rfl⟩
  · unfold State.deliver
    dsimp only
    split <;> exact ⟨rfl, rfl⟩
  · exact ⟨rfl, rfl⟩

/-- For the link the low word enters the read queue while that has room (R25, R86). -/
theorem exec_tickLoRead_link {s : State} (hc : s.clocked = true) (hl : s.link.readq.length < 64) :
    exec (.tickLoRead .link) s = .next { s with
      snapHi := s.tick.extractLsb' 32 32,
      link := { s.link with readq := s.link.readq ++ [{ val := s.tick.extractLsb' 0 32, err := false, wait := none }] } } := by
  rw [exec_tickLoRead, execTickLoRead, State.act_on _ hc]
  exact congrArg _ (if_pos hl)

/-! ## Register accesses (O51) -/

/-- Settles O51: each clause is the lemma above that names its register. -/
theorem registerAccesses : Obligations.RegisterAccesses := by
  unfold Obligations.RegisterAccesses
  intro s m hc hm
  refine ⟨tickLoRead_completes hc hm, exec_tickLoRead_link hc, fun _ => registerWrite_rate hc hm, fun _ => registerWrite_rateHigh hc,
    registerWrite_safeCmd hc hm, registerWrite_launchPc hc hm, fun n w hp => ⟨registerWrite_ledger hc m hp w, fun hr hq =>
      registerWrite_island hc m hp hr hq w⟩, registerWrite_denied hc, registerWrite_unlisted hc m⟩

/-! ## The clock

Only the work of a tick and the next tick move the clock. Everything that they run leaves it as it stands: one rule for each function,
in the order of the model. Parentheses around rfl keep a rule a rewriting rule, so that simp finds it below a fold as well. -/

/-- The tick that stands and what it has come to. -/
def State.time (s : State) : Tick × TickPart := (s.tick, s.part)

/-- An update of other fields leaves the clock. -/
@[simp] theorem State.time_mk (u : State) (pending due transit member snapHi rate cfg isl busy busyOut busySeen rsvOut rsvSeen ledq
    clampLink clampT clampSlate clampDma link slate evt dma moved appendAt nvmRd facet flint safe fault nvm tan pow mem free) :
    (State.mk pending due transit member u.tick u.part snapHi rate cfg isl busy busyOut busySeen rsvOut rsvSeen ledq clampLink clampT
      clampSlate clampDma link slate evt dma moved appendAt nvmRd facet flint safe fault nvm tan pow mem free).time = u.time := rfl

@[simp] theorem State.time_ite (p : Prop) [Decidable p] (s u : State) : (if p then s else u).time = if p then s.time else u.time :=
  apply_ite State.time p s u

@[simp] theorem State.time_fst_ite {α : Type} (p : Prop) [Decidable p] (x y : State × α) :
    (if p then x else y).1.time = if p then x.1.time else y.1.time :=
  apply_ite (fun x : State × α => x.1.time) p x y

/-- Steps that each leave the clock leave it together. -/
@[simp] theorem State.time_foldl {β : Type} (l : List β) (f : State → β → State) (s : State) (hf : ∀ s b, (f s b).time = s.time) :
    (l.foldl f s).time = s.time := by
  induction l generalizing s with
  | nil => rfl
  | cons b l ih => exact (ih (f s b)).trans (hf s b)

/-! ### The shared operations -/

@[simp] theorem State.modIsl_time (s : State) (n : IslandNo) (f : Island → Island) : (s.modIsl n f).time = s.time := (rfl)
@[simp] theorem State.modCtx_time (s : State) (t : CtxNo) (f : Ctx → Ctx) : (s.modCtx t f).time = s.time := (rfl)
@[simp] theorem State.modCh_time (s : State) (c : ChNo) (f : Channel → Channel) : (s.modCh c f).time = s.time := (rfl)
@[simp] theorem State.modPow_time (s : State) (f : Power → Power) : (s.modPow f).time = s.time := (rfl)
@[simp] theorem State.oweAt_time (s : State) (t : Tick) (c : Instr) : (s.oweAt t c).time = s.time := by simp [State.oweAt]
@[simp] theorem State.owe_time (s : State) (k : Nat) (c : Instr) : (s.owe k c).time = s.time := by simp [State.owe]
@[simp] theorem State.cancel_time (s : State) (c : Instr) : (s.cancel c).time = s.time := (rfl)
@[simp] theorem State.settle_time (s : State) (c : Instr) : (s.settle c).time = s.time := (rfl)

@[simp] theorem State.clamped_time (s : State) (m : Master) (k : Nat) : (s.clamped m k).time = s.time := by
  unfold State.clamped
  split <;> simp

@[simp] theorem State.pulseIn_time (s : State) (k src : Nat) : (s.pulseIn k src).time = s.time := by simp [State.pulseIn]
@[simp] theorem State.pulse_time (s : State) (src : Nat) : (s.pulse src).time = s.time := by simp [State.pulse]

@[simp] theorem State.raiseAt_time (s : State) (stamp : Tick) (src m : Byte) (typ : BitVec 4) (kind : Byte) (addr detail : Word)
    (inj : Bool) : (s.raiseAt stamp src m typ kind addr detail inj).time = s.time := by simp [State.raiseAt]

@[simp] theorem State.raise_time (s : State) (src m : Byte) (typ : BitVec 4) (kind : Byte) (addr detail : Word) (inj : Bool) :
    (s.raise src m typ kind addr detail inj).time = s.time := by simp [State.raise]

@[simp] theorem State.raiseBy_time (s : State) (src : Byte) (m : Master) (typ : BitVec 4) (kind : Byte) (addr : Word) :
    (s.raiseBy src m typ kind addr).time = s.time := by simp [State.raiseBy]

@[simp] theorem State.accFault_time (s : State) (e : AccErr) (m : Master) (typ : BitVec 4) (a : Nat) :
    (s.accFault e m typ a).time = s.time := by simp [State.accFault]

@[simp] theorem State.sendFrom_time (s : State) (t : Tick) (n : IslandNo) (req : Master) (d : DownData) (a : Word) (x : BitVec 19) :
    (s.sendFrom t n req d a x).time = s.time := (rfl)

@[simp] theorem State.send_time (s : State) (n : IslandNo) (req : Master) (d : DownData) (a : Word) (x : BitVec 19) :
    (s.send n req d a x).time = s.time := (rfl)

@[simp] theorem State.sendUp_time (s : State) (n : IslandNo) (d : UpData) : (s.sendUp n d).time = s.time := (rfl)
@[simp] theorem State.islandFault_time (s : State) (n : IslandNo) (src kind : Byte) : (s.islandFault n src kind).time = s.time := (rfl)
@[simp] theorem State.sendLane_time (s : State) (k : Nat) (x : Transit) : (s.sendLane k x).time = s.time := (rfl)
@[simp] theorem State.laneUpdate_time (s : State) (n : IslandNo) : (s.laneUpdate n).time = s.time := by simp [State.laneUpdate]

/-! ### Failed cells and fences -/

@[simp] theorem State.dmaFail_time (s : State) (c : ChNo) (err : BitVec 3) (a : Word) (typ : BitVec 4) :
    (s.dmaFail c err a typ).time = s.time := by simp [State.dmaFail]

@[simp] theorem State.linkXerr_time (s : State) (x : BitVec 19) : (s.linkXerr x).time = s.time := (rfl)

@[simp] theorem State.answer_time (s : State) (n : IslandNo) (req : Master) (a : Word) (v : Option Word) :
    (s.answer n req a v).time = s.time := by
  unfold State.answer
  repeat' split
  all_goals simp

@[simp] theorem State.writeFailed_time (s : State) (req : Master) (a : Word) (x : BitVec 19) : (s.writeFailed req a x).time = s.time := by
  unfold State.writeFailed
  split <;> simp

@[simp] theorem State.cmdFailed_time (s : State) (req : Master) (a : Word) (x : BitVec 19) : (s.cmdFailed req a x).time = s.time := by
  unfold State.cmdFailed
  split <;> simp

@[simp] theorem State.cellFailed_time (s : State) (n : IslandNo) (c : DownCell) : (s.cellFailed n c).time = s.time := by
  unfold State.cellFailed
  split <;> simp

@[simp] theorem State.fenceCheck_time (s : State) (t : CtxNo) : (s.fenceCheck t).time = s.time := by
  unfold State.fenceCheck
  split <;> simp

@[simp] theorem State.fenceChecks_time (s : State) : s.fenceChecks.time = s.time := by simp [State.fenceChecks]
@[simp] theorem State.commitCheck_time (s : State) : s.commitCheck.time = s.time := by simp [State.commitCheck]
@[simp] theorem State.shadowCheck_time (s : State) : s.shadowCheck.time = s.time := by simp [State.shadowCheck]
@[simp] theorem State.ackChecks_time (s : State) : s.ackChecks.time = s.time := by simp [State.ackChecks]
@[simp] theorem State.landed_time (s : State) (n : IslandNo) (d : DownData) : (s.landed n d).time = s.time := by simp [State.landed]
@[simp] theorem State.discardCells_time (s : State) (n : IslandNo) : (s.discardCells n).time = s.time := by simp [State.discardCells]

/-! ### Taps, timers and triggers -/

@[simp] theorem State.tapEval_time (s : State) (k : Nat) : (s.tapEval k).time = s.time := by simp [State.tapEval]
@[simp] theorem State.rfxApply_time (s : State) (mask : BitVec 16) : (s.rfxApply mask).time = s.time := by simp [State.rfxApply]
@[simp] theorem State.tmrSet_time (s : State) (k : Fin 16) (w : Nat) : (s.tmrSet k w).time = s.time := by simp [State.tmrSet]
@[simp] theorem State.tmrStop_time (s : State) (k : Fin 16) : (s.tmrStop k).time = s.time := (rfl)

@[simp] theorem State.tmrStart_time (s : State) (k : Fin 16) : (s.tmrStart k).time = s.time := by
  unfold State.tmrStart
  dsimp only
  split <;> simp

@[simp] theorem State.itrig_time (s : State) (n : IslandNo) (op : BitVec 4) : (s.itrig n op).time = s.time := by simp [State.itrig]
@[simp] theorem State.trigsGo_time (s : State) : s.trigsGo.time = s.time := by simp [State.trigsGo]
@[simp] theorem State.tapChanged_time (s : State) : s.tapChanged.time = s.time := by simp [State.tapChanged]

/-! ### Output stages and demands -/

@[simp] theorem State.setSwitch_time (s : State) (n : IslandNo) (b : Bool) : (s.setSwitch n b).time = s.time := by simp [State.setSwitch]
@[simp] theorem State.pwmStop_time (s : State) (n : IslandNo) : (s.pwmStop n).time = s.time := by simp [State.pwmStop]
@[simp] theorem State.pwmStart_time (s : State) (n : IslandNo) : (s.pwmStart n).time = s.time := by simp [State.pwmStart]
@[simp] theorem State.pwmOff_time (s : State) (n : IslandNo) : (s.pwmOff n).time = s.time := by simp [State.pwmOff]

@[simp] theorem State.digOutputs_time (s : State) (n : IslandNo) (later : Bool) : (s.digOutputs n later).time = s.time := by
  simp [State.digOutputs]

@[simp] theorem State.anaOutputs_time (s : State) (n : IslandNo) : (s.anaOutputs n).time = s.time := by simp [State.anaOutputs]
@[simp] theorem State.outputs_time (s : State) (n : IslandNo) (later : Bool) : (s.outputs n later).time = s.time := by simp [State.outputs]
@[simp] theorem State.recapture_time (s : State) (n : IslandNo) : (s.recapture n).time = s.time := by simp [State.recapture]
@[simp] theorem State.wordTakes_time (s : State) (n : IslandNo) (c : OutCmd) : (s.wordTakes n c).time = s.time := by simp [State.wordTakes]

@[simp] theorem State.demands_time (s : State) (n : IslandNo) (f : Island → Island) : (s.demands n f).time = s.time := by
  simp [State.demands]

@[simp] theorem State.laneLand_time (s : State) (n : IslandNo) (d : DLane) : (s.laneLand n d).time = s.time := by simp [State.laneLand]

/-! ### Inputs -/

@[simp] theorem State.modDin_time (s : State) (n : IslandNo) (f : DigIn → DigIn) : (s.modDin n f).time = s.time := (rfl)
@[simp] theorem State.upLane_time (s : State) (n : IslandNo) : (s.upLane n).time = s.time := (rfl)
@[simp] theorem State.requalify_time (s : State) (n : IslandNo) : (s.requalify n).time = s.time := by simp [State.requalify]
@[simp] theorem State.qualify_time (s : State) (n : IslandNo) : (s.qualify n).time = s.time := by simp [State.qualify]
@[simp] theorem State.inputStart_time (s : State) (n : IslandNo) : (s.inputStart n).time = s.time := by simp [State.inputStart]

/-! ### Converters and loop tests -/

@[simp] theorem State.modAdc_time (s : State) (n : IslandNo) (f : Adc → Adc) : (s.modAdc n f).time = s.time := (rfl)
@[simp] theorem State.adcKickAt_time (s : State) (n : IslandNo) (t : Tick) : (s.adcKickAt n t).time = s.time := by simp [State.adcKickAt]
@[simp] theorem State.adcKick_time (s : State) (n : IslandNo) : (s.adcKick n).time = s.time := by simp [State.adcKick]
@[simp] theorem State.roundDue_time (s : State) (n : IslandNo) : (s.roundDue n).time = s.time := by simp [State.roundDue]
@[simp] theorem State.roundGo_time (s : State) (n : IslandNo) : (s.roundGo n).time = s.time := (rfl)

@[simp] theorem State.adcNext_time (s : State) (n : IslandNo) : (s.adcNext n).time = s.time := by
  unfold State.adcNext
  dsimp only
  repeat' split
  all_goals simp

@[simp] theorem State.adcCancel_time (s : State) (n : IslandNo) : (s.adcCancel n).time = s.time := (rfl)
@[simp] theorem State.adcRestart_time (s : State) (n : IslandNo) : (s.adcRestart n).time = s.time := by simp [State.adcRestart]
@[simp] theorem State.adcResume_time (s : State) (n : IslandNo) : (s.adcResume n).time = s.time := by simp [State.adcResume]
@[simp] theorem State.holdEnd_time (s : State) (n : IslandNo) : (s.holdEnd n).time = s.time := by simp [State.holdEnd]

@[simp] theorem State.loopEnd_time (s : State) (n : IslandNo) (st : BitVec 2) (reason : BitVec 4) :
    (s.loopEnd n st reason).time = s.time := by simp [State.loopEnd]

@[simp] theorem State.loopStop_time (s : State) (n : IslandNo) (st : BitVec 2) (reason : BitVec 4) :
    (s.loopStop n st reason).time = s.time := by simp [State.loopStop]

@[simp] theorem State.loopTime_time (s : State) (n : IslandNo) : (s.loopTime n).time = s.time := (rfl)
@[simp] theorem State.loopResume_time (s : State) (n : IslandNo) : (s.loopResume n).time = s.time := by simp [State.loopResume]

/-! ### The ledger and the islands' power -/

@[simp] theorem State.fitRsv_time (s : State) (n : IslandNo) : (s.fitRsv n).time = s.time := (rfl)
@[simp] theorem State.charge_time (s : State) (n : IslandNo) (g : Nat) : (s.charge n g).time = s.time := (rfl)
@[simp] theorem State.sendRung_time (s : State) (n : IslandNo) : (s.sendRung n).time = s.time := by simp [State.sendRung]
@[simp] theorem State.sendRungs_time (s : State) : s.sendRungs.time = s.time := by simp [State.sendRungs]

@[simp] theorem State.admitWithin_time (s : State) (n : IslandNo) (m : Master) (limit : Nat) :
    (s.admitWithin n m limit).time = s.time := by simp [State.admitWithin]

@[simp] theorem State.admitRungs_time (s : State) (n : IslandNo) (m : Master) : (s.admitRungs n m).time = s.time := by
  simp [State.admitRungs]

@[simp] theorem State.readmitAll_time (s : State) (m : Master) : (s.readmitAll m).time = s.time := by simp [State.readmitAll]
@[simp] theorem State.unparkAll_time (s : State) (m : Master) : (s.unparkAll m).time = s.time := by simp [State.unparkAll]

@[simp] theorem State.setRequest_time (s : State) (n : IslandNo) (w : Word) (m : Master) : (s.setRequest n w m).time = s.time := by
  simp [State.setRequest]

@[simp] theorem State.parkCheck_time (s : State) : s.parkCheck.time = s.time := by simp [State.parkCheck]
@[simp] theorem State.parkAll_time (s : State) (m : Master) : (s.parkAll m).time = s.time := by simp [State.parkAll]

@[simp] theorem State.ledTake_time (s : State) (q : LedgerReq) : (s.ledTake q).time = s.time := by
  unfold State.ledTake
  split <;> simp

@[simp] theorem State.ledNext_time (s : State) : s.ledNext.time = s.time := by
  unfold State.ledNext
  repeat' split
  all_goals simp

@[simp] theorem State.ledEdge_time (s : State) : s.ledEdge.time = s.time := by simp [State.ledEdge]
@[simp] theorem State.quarterShown_time (s : State) : s.quarterShown.time = s.time := by simp [State.quarterShown]
@[simp] theorem State.dormantCheck_time (s : State) : s.dormantCheck.time = s.time := by simp [State.dormantCheck]
@[simp] theorem State.grantCharge_time (s : State) : s.grantCharge.time = s.time := by simp [State.grantCharge]
@[simp] theorem State.leaveRunning_time (s : State) (n : IslandNo) : (s.leaveRunning n).time = s.time := (rfl)
@[simp] theorem State.kill_time (s : State) (n : IslandNo) (p : IslPower) : (s.kill n p).time = s.time := by simp [State.kill]
@[simp] theorem State.lose_time (s : State) (n : IslandNo) : (s.lose n).time = s.time := by simp [State.lose]
@[simp] theorem State.killPowered_time (s : State) (n : IslandNo) : (s.killPowered n).time = s.time := by simp [State.killPowered]
@[simp] theorem State.rollWindows_time (s : State) : s.rollWindows.time = s.time := by simp [State.rollWindows]

/-! ### Digital inputs -/

@[simp] theorem State.countEdge_time (s : State) (n : IslandNo) (rise : Bool) : (s.countEdge n rise).time = s.time := by
  simp [State.countEdge]

@[simp] theorem State.edgeSent_time (s : State) (n : IslandNo) (rise : Bool) (stamp : Option Tick) :
    (s.edgeSent n rise stamp).time = s.time := by simp [State.edgeSent]

@[simp] theorem State.inputResume_time (s : State) (n : IslandNo) (first : Tick) : (s.inputResume n first).time = s.time := by
  simp [State.inputResume]

@[simp] theorem State.countLatched_time (s : State) (n : IslandNo) : (s.countLatched n).time = s.time := by simp [State.countLatched]

/-! ### HART -/

@[simp] theorem State.modHart_time (s : State) (n : IslandNo) (f : Hart → Hart) : (s.modHart n f).time = s.time := (rfl)
@[simp] theorem State.hartStop_time (s : State) (n : IslandNo) : (s.hartStop n).time = s.time := (rfl)
@[simp] theorem State.hartIdle_time (s : State) (n : IslandNo) (r : HRes) : (s.hartIdle n r).time = s.time := (rfl)
@[simp] theorem State.hartResume_time (s : State) (n : IslandNo) : (s.hartResume n).time = s.time := by simp [State.hartResume]

/-! ### Cells that islands take and acknowledge -/

@[simp] theorem State.hrawPut_time (s : State) (m : Master) (n : IslandNo) (b : Byte) (last : Bool) (x : BitVec 19) :
    (s.hrawPut m n b last x).time = s.time := by simp [State.hrawPut]

@[simp] theorem State.hartOff_time (s : State) (n : IslandNo) : (s.hartOff n).time = s.time := by simp [State.hartOff]
@[simp] theorem State.sendRecord_time (s : State) (n : IslandNo) : (s.sendRecord n).time = s.time := by simp [State.sendRecord]

@[simp] theorem State.loopDone_time (s : State) (n : IslandNo) (code : BitVec 18) (pass : Bool) (reason : BitVec 4) (depth : Fin 5) :
    (s.loopDone n code pass reason depth).time = s.time := (rfl)

@[simp] theorem State.micaCell_time (s : State) (n : IslandNo) : (s.micaCell n).time = s.time := by simp [State.micaCell]

@[simp] theorem State.writeDropped_time (s : State) (n : IslandNo) (c : DownCell) (rest : List DownCell) :
    (s.writeDropped n c rest).time = s.time := by simp [State.writeDropped]

@[simp] theorem State.loopDropped_time (s : State) (n : IslandNo) (c : DownCell) : (s.loopDropped n c).time = s.time := by
  unfold State.loopDropped
  split <;> simp

@[simp] theorem State.dropDown_time (s : State) (n : IslandNo) (c : DownCell) (rest : List DownCell) :
    (s.dropDown n c rest).time = s.time := by simp [State.dropDown]

@[simp] theorem State.dropUp_time (s : State) (n : IslandNo) (c : UpCell) (rest : List UpCell) : (s.dropUp n c rest).time = s.time := by
  unfold State.dropUp
  repeat' split
  all_goals simp

@[simp] theorem State.ackDown_time (s : State) (n : IslandNo) : (s.ackDown n).time = s.time := by
  unfold State.ackDown
  split <;> simp

@[simp] theorem State.ackUp_time (s : State) (n : IslandNo) : (s.ackUp n).time = s.time := by
  unfold State.ackUp
  split <;> simp

@[simp] theorem State.ackCells_time (s : State) : s.ackCells.time = s.time := by simp [State.ackCells]

/-! ### Memory, locks and contexts -/

@[simp] theorem State.putByte_time (s : State) (a : Nat) (b : Byte) : (s.putByte a b).time = s.time := (rfl)

@[simp] theorem State.putBytes_time (s : State) (a : Nat) (l : List Byte) : (s.putBytes a l).time = s.time := by
  induction l generalizing s a with
  | nil => rfl
  | cons b l ih => simp [State.putBytes, ih]

@[simp] theorem State.putSram_time (s : State) (a : Nat) (w : Word) : (s.putSram a w).time = s.time := by simp [State.putSram]
@[simp] theorem State.modLock_time (s : State) (k : Fin 64) (f : Lock → Lock) : (s.modLock k f).time = s.time := (rfl)
@[simp] theorem State.poisonLock_time (s : State) (k : Fin 64) (t : CtxNo) : (s.poisonLock k t).time = s.time := by simp [State.poisonLock]
@[simp] theorem State.dropLocks_time (s : State) (t : CtxNo) : (s.dropLocks t).time = s.time := by simp [State.dropLocks]

@[simp] theorem State.endCtx_time (s : State) (t : CtxNo) (exit : Word) (killed : Bool) (k : Nat) :
    (s.endCtx t exit killed k).time = s.time := by simp [State.endCtx]

/-! ### The NVM controller -/

@[simp] theorem State.tear_time (s : State) (a len : Nat) : (s.tear a len).time = s.time := (rfl)
@[simp] theorem State.nvmRes_time (s : State) (r : NvmRes) : (s.nvmRes r).time = s.time := (rfl)
@[simp] theorem State.nvmSlice_time (s : State) (k pulse : Nat) : (s.nvmSlice k pulse).time = s.time := (rfl)
@[simp] theorem State.nvmPulse_time (s : State) : s.nvmPulse.time = s.time := by simp [State.nvmPulse]
@[simp] theorem State.nvmRecord_time (s : State) (forDone : Bool) : (s.nvmRecord forDone).time = s.time := by simp [State.nvmRecord]
@[simp] theorem State.modIntent_time (s : State) (f : Intent → Intent) : (s.modIntent f).time = s.time := (rfl)
@[simp] theorem State.counterClear_time (s : State) (k : Fin 7) : (s.counterClear k).time = s.time := by simp [State.counterClear]
@[simp] theorem State.counterWant_time (s : State) (k : Fin 7) : (s.counterWant k).time = s.time := (rfl)
@[simp] theorem State.nvmNext_time (s : State) : s.nvmNext.time = s.time := by simp [State.nvmNext]
@[simp] theorem State.nvmStop_time (s : State) : s.nvmStop.time = s.time := by simp [State.nvmStop]

@[simp] theorem State.nvmBegin_time (s : State) : s.nvmBegin.time = s.time := by
  unfold State.nvmBegin
  split <;> simp

@[simp] theorem State.kres_time (s : State) (r : BitVec 3) : (s.kres r).time = s.time := (rfl)

@[simp] theorem State.nvmAfter_time (s : State) (a : NvmAfter) : (s.nvmAfter a).time = s.time := by
  unfold State.nvmAfter
  split <;> simp

@[simp] theorem State.applyIntent_time (s : State) (j : NvmJob) : (s.applyIntent j).time = s.time := by simp [State.applyIntent]
@[simp] theorem State.bodyDone_time (s : State) (j : NvmJob) : (s.bodyDone j).time = s.time := by simp [State.bodyDone]
@[simp] theorem State.journalTear_time (s : State) : s.journalTear.time = s.time := by simp [State.journalTear]

@[simp] theorem State.nvmCut_time (s : State) (byReset step : Bool) : (s.nvmCut byReset step).time = s.time := by
  unfold State.nvmCut
  -- the torn bytes are a long list: nothing below may unfold them
  have ht := State.tear_time
  generalize State.tear = tear at ht
  split
  · rfl
  · extract_lets u v _ w _ x
    have hu : u.time = s.time := by
      unfold u
      split <;> simp
    clear_value u
    have hv : v.time = u.time := by
      unfold v
      split <;> exact ht ..
    have hw : w.time = u.time := ht ..
    clear_value v w
    have hx : x.time = u.time := by
      unfold x
      split
      · rfl
      · split
        · split
          · exact hv
          · exact hv
        · exact (State.time_mk w ..).trans hw
        · exact State.journalTear_time u
        · exact State.journalTear_time u
        · rfl
        · rfl
    exact (State.nvmStop_time x).trans (hx.trans hu)

@[simp] theorem State.nvmTick_time (s : State) : s.nvmTick.time = s.time := by
  unfold State.nvmTick
  repeat' split
  all_goals simp

@[simp] theorem State.nvmResume_time (s : State) : s.nvmResume.time = s.time := by simp [State.nvmResume]

/-! ### Staging from NVM -/

@[simp] theorem State.modSlate_time (s : State) (f : Slate → Slate) : (s.modSlate f).time = s.time := (rfl)
@[simp] theorem State.slateFail_time (s : State) (err sec : Nat) : (s.slateFail err sec).time = s.time := (rfl)
@[simp] theorem State.slateTake_time (s : State) (w : Word) : (s.slateTake w).time = s.time := by simp [State.slateTake]
@[simp] theorem State.nvmReadFails_time (s : State) : s.nvmReadFails.time = s.time := by simp [State.nvmReadFails]
@[simp] theorem State.nvmStage_time (s : State) : s.nvmStage.time = s.time := by simp [State.nvmStage]
@[simp] theorem State.nvmLoadTick_time (s : State) : s.nvmLoadTick.time = s.time := by simp [State.nvmLoadTick]

/-! ### DMA channels -/

@[simp] theorem State.rstreamTake_time (s : State) (n : IslandNo) : (s.rstreamTake n).1.time = s.time := by
  unfold State.rstreamTake
  split <;> simp

@[simp] theorem State.outCmd_time (s : State) (m : Master) (n : IslandNo) (w a : Word) (x : BitVec 19) :
    (s.outCmd m n w a x).time = s.time := by simp [State.outCmd]

@[simp] theorem State.chDisable_time (s : State) (c : ChNo) : (s.chDisable c).time = s.time := by simp [State.chDisable]

@[simp] theorem State.moveRead_time (s : State) (c : ChNo) : (s.moveRead c).time = s.time := by
  unfold State.moveRead
  dsimp only
  repeat' split
  all_goals simp

@[simp] theorem State.nvmRead_time (s : State) (c : ChNo) : (s.nvmRead c).time = s.time := by simp [State.nvmRead]

/-! ### Tandem -/

@[simp] theorem State.modTan_time (s : State) (f : Tandem → Tandem) : (s.modTan f).time = s.time := (rfl)
@[simp] theorem State.sendShadow_time (s : State) (on : Bool) : (s.sendShadow on).time = s.time := by simp [State.sendShadow]
@[simp] theorem State.toStandby_time (s : State) : s.toStandby.time = s.time := by simp [State.toStandby]
@[simp] theorem State.tanLinkFor_time (s : State) : s.tanLinkFor.time = s.time := by simp [State.tanLinkFor]
@[simp] theorem State.soloIsland_time (s : State) (n : IslandNo) : (s.soloIsland n).time = s.time := by simp [State.soloIsland]

@[simp] theorem State.roleRow_time (s : State) : s.roleRow.time = s.time := by
  unfold State.roleRow
  dsimp only
  repeat' split
  all_goals simp

/-! ### Flint -/

@[simp] theorem State.modFlint_time (s : State) (ch : FlintChan) (f : FlintCh → FlintCh) : (s.modFlint ch f).time = s.time := by
  unfold State.modFlint
  split <;> simp

@[simp] theorem State.flintWindow_time (s : State) (ch : FlintChan) : (s.flintWindow ch).time = s.time := by simp [State.flintWindow]
@[simp] theorem State.flintStart_time (s : State) (ch : FlintChan) : (s.flintStart ch).time = s.time := by simp [State.flintStart]

/-! ### The collector -/

@[simp] theorem State.modFault_time (s : State) (f : Collector → Collector) : (s.modFault f).time = s.time := (rfl)
@[simp] theorem State.haltWait_time (s : State) : s.haltWait.time = s.time := by simp [State.haltWait]

/-! ### Confirmation of a boot -/

@[simp] theorem State.bootConfirm_time (s : State) : s.bootConfirm.time = s.time := (rfl)

@[simp] theorem State.bootWrite_time (s : State) (m : Master) (budget : BitVec 16) (confirm : Bool) :
    (s.bootWrite m budget confirm).time = s.time := by simp [State.bootWrite]

/-! ### The switch of a commit -/

@[simp] theorem State.islandPhase_time (s o : State) (n : IslandNo) : (s.islandPhase o n).time = s.time := by
  unfold State.islandPhase
  dsimp only
  repeat' split
  all_goals simp

@[simp] theorem State.orphan_time (s o : State) (i : Fin 64) : (s.orphan o i).time = s.time := by simp [State.orphan]
@[simp] theorem State.wire_time (s o : State) : (s.wire o).time = s.time := by simp [State.wire]
@[simp] theorem State.dmaSwitch_time (s o : State) : (s.dmaSwitch o).time = s.time := by simp [State.dmaSwitch]
@[simp] theorem State.flintSwitch_time (s o : State) (ch : FlintChan) : (s.flintSwitch o ch).time = s.time := by simp [State.flintSwitch]
@[simp] theorem State.takeSlate_time (s : State) : s.takeSlate.time = s.time := by simp [State.takeSlate]
@[simp] theorem State.commitSwitch_time (o : State) : o.commitSwitch.time = o.time := by simp [State.commitSwitch]
@[simp] theorem State.commitDue_time (s : State) : s.commitDue.time = s.time := by simp [State.commitDue]

/-! ### The end of a stop -/

@[simp] theorem State.resetWrite_time (s : State) (w : Word) : (s.resetWrite w).time = s.time := by simp [State.resetWrite]
@[simp] theorem State.shipImage_time (s : State) (n : IslandNo) : (s.shipImage n).time = s.time := by simp [State.shipImage]
@[simp] theorem State.shipImages_time (s : State) : s.shipImages.time = s.time := by simp [State.shipImages]
@[simp] theorem State.hostResumed_time (s : State) : s.hostResumed.time = s.time := by simp [State.hostResumed]

@[simp] theorem State.islandsResumed_time (s : State) (first : Tick) : (s.islandsResumed first).time = s.time := by
  simp [State.islandsResumed]

@[simp] theorem State.resumed_time (s : State) : s.resumed.time = s.time := by
  unfold State.resumed
  split <;> simp

@[simp] theorem State.resumeEnds_time (s : State) : s.resumeEnds.time = s.time := by simp [State.resumeEnds]

/-! ### The boot ROM -/

@[simp] theorem State.bootGo_time (s : State) (step phase : Nat) : (s.bootGo step phase).time = s.time := (rfl)
@[simp] theorem State.bootWait_time (s : State) (k : Nat) : (s.bootWait k).time = s.time := (rfl)

@[simp] theorem State.bootBad_time (s : State) (b : Bank) : (s.bootBad b).time = s.time := by
  unfold State.bootBad
  split <;> simp

@[simp] theorem State.bootReject_time (s : State) (b : Bank) : (s.bootReject b).time = s.time := by
  unfold State.bootReject
  split <;> simp

@[simp] theorem State.bootFresh_time (s : State) : s.bootFresh.time = s.time := (rfl)
@[simp] theorem State.bootTrialFailed_time (s : State) (b : Bank) : (s.bootTrialFailed b).time = s.time := by simp [State.bootTrialFailed]

@[simp] theorem State.bootSelect_time (s : State) : s.bootSelect.time = s.time := by
  unfold State.bootSelect
  dsimp only
  split <;> simp

@[simp] theorem State.bootTasks_time (s : State) : s.bootTasks.time = s.time := (rfl)
@[simp] theorem State.bootSlate_time (s : State) : s.bootSlate.time = s.time := by simp [State.bootSlate]
@[simp] theorem State.bootBoots_time (s : State) (b : Bank) : (s.bootBoots b).time = s.time := (rfl)
@[simp] theorem State.bootNone_time (s : State) : s.bootNone.time = s.time := (rfl)

@[simp] theorem State.bootChosen_time (s : State) : s.bootChosen.time = s.time := by
  unfold State.bootChosen
  split <;> simp

@[simp] theorem State.bootTrial_time (s : State) (b : Bank) : (s.bootTrial b).time = s.time := by simp [State.bootTrial]
@[simp] theorem State.bootTrialDone_time (s : State) (b : Bank) : (s.bootTrialDone b).time = s.time := by simp [State.bootTrialDone]
@[simp] theorem State.bootSlateFail_time (s : State) : s.bootSlateFail.time = s.time := by simp [State.bootSlateFail]

@[simp] theorem State.bootRun_time (s : State) : s.bootRun.time = s.time := by
  unfold State.bootRun
  dsimp only
  rw [State.modCtx_time, State.bootGo_time]
  refine State.time_foldl _ _ s fun u k => ?_
  split
  · exact State.putSram_time ..
  · exact State.putSram_time ..
  · rfl

@[simp] theorem State.bootSession_time (s : State) : s.bootSession.time = s.time := by
  unfold State.bootSession
  split <;> simp

@[simp] theorem State.bootTick_time (s : State) : s.bootTick.time = s.time := by
  unfold State.bootTick
  repeat' split
  all_goals simp

/-! ### Loop tests on an island -/

@[simp] theorem State.testLand_time (s : State) (n : IslandNo) (depth : Fin 5) : (s.testLand n depth).time = s.time := by
  simp [State.testLand]

/-! ### Register writes that become cells -/

@[simp] theorem State.clampIf_time (s : State) (m : Master) (p : Bool) : (s.clampIf m p).time = s.time := by simp [State.clampIf]

@[simp] theorem State.adcPut_time (s : State) (m : Master) (n : IslandNo) (w : Word) (x : BitVec 19) :
    (s.adcPut m n w x).time = s.time := by simp [State.adcPut]

@[simp] theorem State.ownCellPut_time (s : State) (m : Master) (n : IslandNo) (o : Nat) (w : Word) (x : BitVec 19) :
    (s.ownCellPut m n o w x).time = s.time := by simp [State.ownCellPut]

/-! ### Facet instructions -/

@[simp] theorem State.stepPc_time (s : State) (t : CtxNo) : (s.stepPc t).time = s.time := (rfl)
@[simp] theorem State.setReg_time (s : State) (t : CtxNo) (rd : RegNo) (v : Word) : (s.setReg t rd v).time = s.time := (rfl)
@[simp] theorem State.stallOn_time (s : State) (t : CtxNo) (x : Stall) : (s.stallOn t x).time = s.time := (rfl)

@[simp] theorem State.exception_time (s : State) (t : CtxNo) (e : Exc) (typ : BitVec 4) (a : Word) :
    (s.exception t e typ a).time = s.time := by
  unfold State.exception
  split <;> simp

@[simp] theorem State.illegal_time (s : State) (t : CtxNo) : (s.illegal t).time = s.time := by simp [State.illegal]

@[simp] theorem State.storeSend_time (s : State) (t : CtxNo) (n : IslandNo) (a v : Word) (lanes : BitVec 4) :
    (s.storeSend t n a v lanes).time = s.time := by simp [State.storeSend]

@[simp] theorem State.storeIsl_time (s : State) (t : CtxNo) (n : IslandNo) (a v : Word) (lanes : BitVec 4) :
    (s.storeIsl t n a v lanes).time = s.time := by simp [State.storeIsl]

@[simp] theorem State.post_time (s : State) (t : CtxNo) (w : Stall) : (s.post t w).time = s.time := by
  unfold State.post
  split <;> simp

@[simp] theorem State.posts_time (s : State) (t : CtxNo) : (s.posts t).time = s.time := by
  unfold State.posts
  dsimp only
  repeat' split
  all_goals simp

/-! ### The upstream words of the link -/

@[simp] theorem State.modLink_time (s : State) (f : Link → Link) : (s.modLink f).time = s.time := (rfl)
@[simp] theorem State.batch_time (s : State) (k : Nat) : (s.batch k).1.time = s.time := (rfl)
@[simp] theorem State.statusOut_time (s : State) : s.statusOut.1.time = s.time := (rfl)

@[simp] theorem State.twinWord_time (s : State) (f : CurFrame) (j : Nat) : (s.twinWord f j).1.time = s.time := by
  unfold State.twinWord
  repeat' split
  all_goals simp

@[simp] theorem State.twinTick_time (s : State) : s.twinTick.time = s.time := by
  unfold State.twinTick
  split <;> simp

@[simp] theorem State.crcCheck_time (s : State) : s.crcCheck.time = s.time := by
  unfold State.crcCheck
  split <;> simp

/-! ### Slots, lanes and the parts of a tick -/

@[simp] theorem State.cellLeft_time (s : State) (n : IslandNo) (c : DownCell) : (s.cellLeft n c).time = s.time := by
  unfold State.cellLeft
  extract_lets u v
  have hu : u.time = s.time := by
    unfold u
    split <;> simp
  clear_value u
  have hv : v.time = u.time := by
    unfold v
    cases c.data with
    | cmd q =>
      cases q with
      | echo x => dsimp only; split <;> simp
      | prep => dsimp only; split <;> simp
      | _ => rfl
    | _ => rfl
  split
  · exact (State.owe_time ..).trans (hv.trans hu)
  · exact hv.trans hu

@[simp] theorem State.slotDownOf_time (s : State) (n : IslandNo) : (s.slotDownOf n).time = s.time := by
  unfold State.slotDownOf
  split <;> simp

@[simp] theorem State.slotUpOf_time (s : State) (n : IslandNo) : (s.slotUpOf n).time = s.time := by
  unfold State.slotUpOf
  split <;> simp

@[simp] theorem State.slotsDown_time (s : State) : s.slotsDown.time = s.time := by simp [State.slotsDown]
@[simp] theorem State.slotsUp_time (s : State) : s.slotsUp.time = s.time := by simp [State.slotsUp]

@[simp] theorem State.landDown_time (s : State) (n : IslandNo) : (s.landDown n).1.time = s.time := by
  unfold State.landDown
  dsimp only
  repeat' split
  all_goals simp

@[simp] theorem State.landUp_time (s : State) (n : IslandNo) : (s.landUp n).1.time = s.time := by
  unfold State.landUp
  dsimp only
  split <;> simp

@[simp] theorem State.landCells_time (s : State) : s.landCells.time = s.time := by simp [State.landCells]
@[simp] theorem State.levels_time (s : State) (n : IslandNo) (l : ULane) : (s.levels n l).time = s.time := by simp [State.levels]

@[simp] theorem State.pulseStamped_time (s : State) (src : Nat) (stamp : Option Tick) : (s.pulseStamped src stamp).time = s.time := by
  unfold State.pulseStamped
  split <;> simp

@[simp] theorem State.arrive_time (s : State) (d : Transit) : (s.arrive d).time = s.time := by
  unfold State.arrive
  split <;> simp

@[simp] theorem State.symbol_time (s : State) (n : IslandNo) : (s.symbol n).time = s.time := by simp [State.symbol]
@[simp] theorem State.symbols_time (s : State) : s.symbols.time = s.time := by simp [State.symbols]
@[simp] theorem State.lanes_time (s : State) : s.lanes.time = s.time := by simp [State.lanes]

@[simp] theorem State.fetchFails_time (s : State) (t : CtxNo) : (s.fetchFails t).time = s.time := by
  unfold State.fetchFails
  dsimp only
  split <;> simp

@[simp] theorem State.issues_time (s : State) (t : CtxNo) (c : Instr) : (s.issues t c).1.time = s.time := by simp [State.issues]

@[simp] theorem State.facetSlot_time (s : State) : s.facetSlot.1.time = s.time := by
  unfold State.facetSlot
  dsimp only
  repeat' split
  all_goals simp

@[simp] theorem State.slotPosts_time (s : State) : s.slotPosts.time = s.time := by simp [State.slotPosts]

@[simp] theorem State.moverTick_time (s : State) : s.moverTick.1.time = s.time := by
  unfold State.moverTick
  repeat' split
  all_goals simp

/-! ## The work of a tick, and the next tick -/

@[simp] theorem State.results_time (s : State) : s.results.time = s.time := (rfl)

/-- The block's own work stands on the tick it is done on. -/
theorem State.work_time (s : State) : s.work.time = (s.tick, .work) :=
  calc s.work.time = ({ s with part := .work } : State).time := by simp [State.work]
    _ = (s.tick, .work) := rfl

/-- The next tick begins with its rows; what comes before and after the count leaves the clock as it is. -/
theorem State.nextHck_time (s : State) : s.nextHck.time = (s.tick + 1, .rows) := by
  have hsent : (if s.pow.deferral then s else s.shipImages.slotsUp).time = s.time := by simp
  unfold State.nextHck
  generalize (if s.pow.deferral then s else s.shipImages.slotsUp) = u at hsent
  have hnext : (u.tick + 1, TickPart.rows) = (s.tick + 1, .rows) := congrArg (fun t => (t.1 + 1, TickPart.rows)) hsent
  dsimp only
  split
  · exact hnext
  · simp only [State.landCells_time, State.results_time, State.symbols_time, State.lanes_time, State.slotsDown_time, State.trigsGo_time,
      State.ackCells_time, State.commitDue_time, State.resumed_time, State.quarterShown_time, State.rollWindows_time]
    exact hnext

/-! ## An idle step -/

theorem State.ticks_iff {s : State} : s.ticks = true ↔ s.pow.hck = true ∧ s.pow.k4 = false := by
  simp [State.ticks]

/-- Without HCK, and in a K4 reset, nothing happens (R13, R350). -/
theorem State.idle_off {s : State} (h : s.pow.hck = false ∨ s.pow.k4 = true) : s.idle = s := by
  rcases h with h | h <;> simp [State.idle, State.ticks, h]

theorem State.idle_due {s : State} (h : s.ticks = true) (hd : s.dueNow ≠ []) : s.idle = s.callDue := by
  simp [State.idle, h, hd]

theorem State.idle_work {s : State} (h : s.ticks = true) (hd : s.dueNow = []) (hp : s.part = .rows) (hf : s.pow.deferral = false) :
    s.idle = s.work := by
  simp [State.idle, h, hd, hp, hf]

theorem State.idle_next {s : State} (h : s.ticks = true) (hd : s.dueNow = []) (hp : s.part = .work ∨ s.pow.deferral = true) :
    s.idle = s.nextHck := by
  rcases hp with hp | hp <;> simp [State.idle, h, hd, hp]

/-! ## A step (O1) -/

/-- Settles O1: the front of the queue by definition, an idle step by its cases; the clock after the work and after the next tick is
that of the two lemmas above. -/
theorem stepRunsFrontCommand : Obligations.StepRunsFrontCommand := by
  unfold Obligations.StepRunsFrontCommand
  intro s
  refine ⟨fun c q => rfl, ?_, ?_, ?_, ?_, ?_⟩
  · intro hq
    rw [step, hq]
  · exact State.idle_off
  · intro hh hk hd
    exact State.idle_due (State.ticks_iff.2 ⟨hh, hk⟩) hd
  · intro hh hk hd hp hf
    rw [State.idle_work (State.ticks_iff.2 ⟨hh, hk⟩) hd hp hf]
    exact Prod.mk.inj s.work_time
  · intro hh hk hd hp
    rw [State.idle_next (State.ticks_iff.2 ⟨hh, hk⟩) hd hp]
    exact Prod.mk.inj s.nextHck_time

end Sys2Proof.Machine

/-! # The clock, the supplies, the ledger and the store -/

namespace Sys2Proof.Machine

/-! ## What the stages of one island leave

The stages of an island change that island, its own rows in the calendar, what is on its way, and clamp counters. What lies beside them is
a state with these parts blanked; a step leaves it where the two blanked states are equal. -/

/-- The island without its input stage, converter, modem, loopback, diagnostics and upstream cells. -/
def Island.unmeasured (i : Island) : Island :=
  { i with din := DigIn.reset, adc := Adc.reset, hart := Hart.reset, loop := Loopback.reset, diag := 0, up := [] }

/-- The island without its output stage either: the switch, the analog stage, service hold, the word in force and what safe states keep. -/
def Island.unstaged (i : Island) : Island :=
  { i.unmeasured with dout := DigOut.reset, ana := Analog.reset, hold := false, cmd := OutCmd.reset, safe := SafeLogic.reset }

/-- The island without what its output stage gives to the terminal: the switch with its windows and periods, and the code of the DAC. -/
def Island.undriven (i : Island) : Island :=
  { i with dout := { i.dout with sw := false, inrush := false, swAt := 0, run := false, duty := 0, effPer := 0, phaseAt := 0 },
           ana := { i.ana with driven := 0, changed := 0 } }

/-- The state with island n blanked by g, and with the rows of islands' own courses, what is on its way and clamp counters blanked. -/
def State.beside (s : State) (g : Island → Island) (n : IslandNo) : State :=
  { s with due := s.due.filter (fun e => (courseOf e.2).isNone), transit := [], clampLink := 0, clampT := Vector.replicate 8 0,
           clampSlate := 0, clampDma := 0, isl := s.isl.set n (g s.isl[n]) }

theorem Island.unmeasured_eq (i : Island) : i.unmeasured =
    { i with din := DigIn.reset, adc := Adc.reset, hart := Hart.reset, loop := Loopback.reset, diag := 0, up := [] } := (rfl)

theorem Island.unstaged_eq (i : Island) : i.unstaged =
    { i.unmeasured with dout := DigOut.reset, ana := Analog.reset, hold := false, cmd := OutCmd.reset, safe := SafeLogic.reset } := (rfl)

theorem Island.undriven_eq (i : Island) : i.undriven =
    { i with dout := { i.dout with sw := false, inrush := false, swAt := 0, run := false, duty := 0, effPer := 0, phaseAt := 0 },
             ana := { i.ana with driven := 0, changed := 0 } } := (rfl)

section Beside

variable {s u : State} {g : Island → Island} {n : IslandNo}

/-- What does not depend on the blanked parts is the same where what lies beside them is. -/
theorem State.beside_other (h : u.beside g n = s.beside g n) {k : IslandNo} (hk : k ≠ n) : u.isl[k] = s.isl[k] := by
  have hv : n.val ≠ k.val := fun e => hk (Fin.ext e.symm)
  have hi := congrArg (fun v : State => v.isl[k]) h
  simpa [State.beside, hv] using hi

theorem State.beside_same (h : u.beside g n = s.beside g n) : g u.isl[n] = g s.isl[n] := by
  have hi := congrArg (fun v : State => v.isl[n]) h
  simpa [State.beside] using hi

/-- A row of no island's own course is owed where it was. -/
theorem State.beside_due (h : u.beside g n = s.beside g n) {e : Tick × Instr} (he : courseOf e.2 = none) : e ∈ u.due ↔ e ∈ s.due := by
  have hd := congrArg (fun v : State => e ∈ v.due) h
  simpa [State.beside, he] using hd

/-- What leaves the island but for some parts leaves it but for more of them. -/
theorem State.beside_mono {g' : Island → Island} (hg : ∀ i, g' (g i) = g' i) (h : u.beside g n = s.beside g n) :
    u.beside g' n = s.beside g' n := by
  have hb (v : State) : v.beside g' n = (v.beside g n).beside g' n := by simp [State.beside, hg]
  rw [hb u, hb s, h]

theorem State.beside_unstaged (h : u.beside Island.unmeasured n = s.beside Island.unmeasured n) :
    u.beside Island.unstaged n = s.beside Island.unstaged n := State.beside_mono (fun _ => by rfl) h

theorem State.beside_modIsl (s : State) (g : Island → Island) (n : IslandNo) (f : Island → Island) (h : ∀ i, g (f i) = g i) :
    (s.modIsl n f).beside g n = s.beside g n := by
  simp [State.beside, State.modIsl, h]

theorem State.beside_oweAt (s : State) (g : Island → Island) (n : IslandNo) (t : Tick) (c : Instr) (h : courseOf c ≠ none) :
    (s.oweAt t c).beside g n = s.beside g n := by
  unfold State.oweAt
  split
  · rfl
  · simp [State.beside, h]

theorem State.beside_owe (s : State) (g : Island → Island) (n : IslandNo) (k : Nat) (c : Instr) (h : courseOf c ≠ none) :
    (s.owe k c).beside g n = s.beside g n := s.beside_oweAt g n _ c h

theorem State.beside_cancel (s : State) (g : Island → Island) (n : IslandNo) (c : Instr) (h : courseOf c ≠ none) :
    (s.cancel c).beside g n = s.beside g n := by
  have hd : (s.cancel c).due.filter (fun e => (courseOf e.2).isNone) = s.due.filter (fun e => (courseOf e.2).isNone) := by
    simp only [State.cancel, List.filter_filter]
    refine List.filter_congr fun e _ => ?_
    by_cases he : e.2 = c
    · simp [he, Option.isSome_iff_ne_none.2 h]
    · simp [he]
  unfold State.beside
  rw [hd]
  rfl

@[simp] theorem State.beside_sendLane (s : State) (g : Island → Island) (n : IslandNo) (k : Nat) (x : Transit) :
    (s.sendLane k x).beside g n = s.beside g n := rfl

@[simp] theorem State.beside_clamped (s : State) (g : Island → Island) (n : IslandNo) (m : Master) (k : Nat) :
    (s.clamped m k).beside g n = s.beside g n := by
  unfold State.clamped
  split <;> rfl

@[simp] theorem State.beside_ite (p : Prop) [Decidable p] (s u : State) (g : Island → Island) (n : IslandNo) :
    (if p then s else u).beside g n = if p then s.beside g n else u.beside g n := apply_ite (State.beside · g n) p s u

end Beside

/-! ### Rows of an island's own course -/

@[simp] theorem courseOf_qualifiedEdge (n : IslandNo) : courseOf (.qualifiedEdge n) = some n := (rfl)
@[simp] theorem courseOf_longHold (n : IslandNo) : courseOf (.longHold n) = some n := (rfl)
@[simp] theorem courseOf_gateEnd (n : IslandNo) : courseOf (.gateEnd n) = some n := (rfl)
@[simp] theorem courseOf_conversionStart (n : IslandNo) : courseOf (.conversionStart n) = some n := (rfl)
@[simp] theorem courseOf_roundStart (n : IslandNo) : courseOf (.roundStart n) = some n := (rfl)
@[simp] theorem courseOf_calibrationStart (n : IslandNo) : courseOf (.calibrationStart n) = some n := (rfl)
@[simp] theorem courseOf_hartCharEnd (n : IslandNo) : courseOf (.hartCharEnd n) = some n := (rfl)
@[simp] theorem courseOf_hartRxEnd (n : IslandNo) : courseOf (.hartRxEnd n) = some n := (rfl)
@[simp] theorem courseOf_hartTimeout (n : IslandNo) : courseOf (.hartTimeout n) = some n := (rfl)
@[simp] theorem courseOf_inrushEnd (n : IslandNo) : courseOf (.inrushEnd n) = some n := (rfl)
@[simp] theorem courseOf_pwmPeriodStart (n : IslandNo) : courseOf (.pwmPeriodStart n) = some n := (rfl)
@[simp] theorem courseOf_pwmPhaseEnd (n : IslandNo) : courseOf (.pwmPhaseEnd n) = some n := (rfl)

/-! ### The input stage, the converter and the modem -/

@[simp] theorem State.modDin_beside (s : State) (n : IslandNo) (f : DigIn → DigIn) :
    (s.modDin n f).beside Island.unmeasured n = s.beside Island.unmeasured n := s.beside_modIsl _ n _ fun _ => rfl
@[simp] theorem State.modAdc_beside (s : State) (n : IslandNo) (f : Adc → Adc) :
    (s.modAdc n f).beside Island.unmeasured n = s.beside Island.unmeasured n := s.beside_modIsl _ n _ fun _ => rfl
@[simp] theorem State.modHart_beside (s : State) (n : IslandNo) (f : Hart → Hart) :
    (s.modHart n f).beside Island.unmeasured n = s.beside Island.unmeasured n := s.beside_modIsl _ n _ fun _ => rfl
@[simp] theorem State.sendUp_beside (s : State) (n : IslandNo) (d : UpData) :
    (s.sendUp n d).beside Island.unmeasured n = s.beside Island.unmeasured n := s.beside_modIsl _ n _ fun _ => rfl
@[simp] theorem State.islandFault_beside (s : State) (n : IslandNo) (src kind : Byte) :
    (s.islandFault n src kind).beside Island.unmeasured n = s.beside Island.unmeasured n := by simp [State.islandFault]
@[simp] theorem State.upLane_beside (s : State) (n : IslandNo) :
    (s.upLane n).beside Island.unmeasured n = s.beside Island.unmeasured n := rfl
@[simp] theorem State.requalify_beside (s : State) (n : IslandNo) :
    (s.requalify n).beside Island.unmeasured n = s.beside Island.unmeasured n := by
  simp [State.requalify, State.beside_oweAt, State.beside_cancel]
@[simp] theorem State.qualify_beside (s : State) (n : IslandNo) :
    (s.qualify n).beside Island.unmeasured n = s.beside Island.unmeasured n := by simp [State.qualify]
@[simp] theorem State.inputStart_beside (s : State) (n : IslandNo) :
    (s.inputStart n).beside Island.unmeasured n = s.beside Island.unmeasured n := by
  simp [State.inputStart, State.beside_cancel]
@[simp] theorem State.gateStart_beside (s : State) (n : IslandNo) :
    (s.gateStart n).beside Island.unmeasured n = s.beside Island.unmeasured n := by
  simp [State.gateStart, State.beside_owe, State.beside_cancel]
@[simp] theorem State.edgeSent_beside (s : State) (n : IslandNo) (rise : Bool) (stamp : Option Tick) :
    (s.edgeSent n rise stamp).beside Island.unmeasured n = s.beside Island.unmeasured n := by simp [State.edgeSent]
@[simp] theorem State.inputResume_beside (s : State) (n : IslandNo) (first : Tick) :
    (s.inputResume n first).beside Island.unmeasured n = s.beside Island.unmeasured n := by
  simp [State.inputResume, State.beside_modIsl, Island.unmeasured_eq]

@[simp] theorem State.adcKickAt_beside (s : State) (n : IslandNo) (t : Tick) :
    (s.adcKickAt n t).beside Island.unmeasured n = s.beside Island.unmeasured n := by
  simp [State.adcKickAt, State.beside_oweAt]
@[simp] theorem State.adcKick_beside (s : State) (n : IslandNo) :
    (s.adcKick n).beside Island.unmeasured n = s.beside Island.unmeasured n := by simp [State.adcKick]
@[simp] theorem State.roundDue_beside (s : State) (n : IslandNo) :
    (s.roundDue n).beside Island.unmeasured n = s.beside Island.unmeasured n := by simp [State.roundDue, State.beside_oweAt]
@[simp] theorem State.roundGo_beside (s : State) (n : IslandNo) :
    (s.roundGo n).beside Island.unmeasured n = s.beside Island.unmeasured n := by simp [State.roundGo]
@[simp] theorem State.adcNext_beside (s : State) (n : IslandNo) :
    (s.adcNext n).beside Island.unmeasured n = s.beside Island.unmeasured n := by
  unfold State.adcNext
  dsimp only
  repeat' split
  all_goals simp [State.beside_oweAt]
@[simp] theorem State.adcCancel_beside (s : State) (n : IslandNo) :
    (s.adcCancel n).beside Island.unmeasured n = s.beside Island.unmeasured n := by simp [State.adcCancel, State.beside_cancel]
@[simp] theorem State.adcRestart_beside (s : State) (n : IslandNo) :
    (s.adcRestart n).beside Island.unmeasured n = s.beside Island.unmeasured n := by
  simp [State.adcRestart, State.beside_oweAt, State.beside_owe]
@[simp] theorem State.adcResume_beside (s : State) (n : IslandNo) :
    (s.adcResume n).beside Island.unmeasured n = s.beside Island.unmeasured n := by simp [State.adcResume]

@[simp] theorem State.hartStop_beside (s : State) (n : IslandNo) :
    (s.hartStop n).beside Island.unmeasured n = s.beside Island.unmeasured n := by simp [State.hartStop, State.beside_cancel]
@[simp] theorem State.hartOff_beside (s : State) (n : IslandNo) :
    (s.hartOff n).beside Island.unmeasured n = s.beside Island.unmeasured n := by simp [State.hartOff]
@[simp] theorem State.hartIdle_beside (s : State) (n : IslandNo) (r : HRes) :
    (s.hartIdle n r).beside Island.unmeasured n = s.beside Island.unmeasured n := by simp [State.hartIdle]
@[simp] theorem State.hartResume_beside (s : State) (n : IslandNo) :
    (s.hartResume n).beside Island.unmeasured n = s.beside Island.unmeasured n := by simp [State.hartResume]
@[simp] theorem State.loopTime_beside (s : State) (n : IslandNo) :
    (s.loopTime n).beside Island.unmeasured n = s.beside Island.unmeasured n := s.beside_modIsl _ n _ fun _ => rfl
@[simp] theorem State.loopResume_beside (s : State) (n : IslandNo) :
    (s.loopResume n).beside Island.unmeasured n = s.beside Island.unmeasured n := by simp [State.loopResume]

/-! ### The output stage -/

@[simp] theorem State.setSwitch_beside (s : State) (n : IslandNo) (b : Bool) :
    (s.setSwitch n b).beside Island.undriven n = s.beside Island.undriven n := by
  simp [State.setSwitch, State.beside_owe, State.beside_cancel, State.beside_modIsl, Island.undriven_eq]
@[simp] theorem State.pwmStop_beside (s : State) (n : IslandNo) :
    (s.pwmStop n).beside Island.undriven n = s.beside Island.undriven n := by
  simp [State.pwmStop, State.beside_cancel, State.beside_modIsl, Island.undriven_eq]
@[simp] theorem State.pwmOff_beside (s : State) (n : IslandNo) :
    (s.pwmOff n).beside Island.undriven n = s.beside Island.undriven n := by
  simp [State.pwmOff, State.beside_cancel, State.beside_modIsl, Island.undriven_eq]
@[simp] theorem State.pwmStart_beside (s : State) (n : IslandNo) :
    (s.pwmStart n).beside Island.undriven n = s.beside Island.undriven n := by
  simp [State.pwmStart, State.beside_owe, State.beside_cancel, State.beside_modIsl, Island.undriven_eq]
@[simp] theorem State.digOutputs_beside (s : State) (n : IslandNo) (later : Bool) :
    (s.digOutputs n later).beside Island.undriven n = s.beside Island.undriven n := by simp [State.digOutputs]
@[simp] theorem State.anaOutputs_beside (s : State) (n : IslandNo) :
    (s.anaOutputs n).beside Island.undriven n = s.beside Island.undriven n := by
  simp [State.anaOutputs, State.beside_modIsl, Island.undriven_eq]
@[simp] theorem State.outputs_beside (s : State) (n : IslandNo) (later : Bool) :
    (s.outputs n later).beside Island.undriven n = s.beside Island.undriven n := by simp [State.outputs]

theorem Island.unstaged_undriven (i : Island) : i.undriven.unstaged = i.unstaged := (rfl)
@[simp] theorem State.outputs_unstaged (s : State) (n : IslandNo) (later : Bool) :
    (s.outputs n later).beside Island.unstaged n = s.beside Island.unstaged n :=
  State.beside_mono Island.unstaged_undriven (s.outputs_beside n later)
@[simp] theorem State.recapture_beside (s : State) (n : IslandNo) :
    (s.recapture n).beside Island.unstaged n = s.beside Island.unstaged n := by
  simp [State.recapture, State.beside_modIsl, Island.unstaged_eq, Island.unmeasured_eq]
@[simp] theorem State.reclip_beside (s : State) (n : IslandNo) (old : Island) :
    (s.reclip n old).beside Island.unstaged n = s.beside Island.unstaged n := by simp [State.reclip, State.clip]

theorem Island.unstaged_ite (p : Prop) [Decidable p] (i j : Island) : (if p then i else j).unstaged = if p then i.unstaged else j.unstaged :=
  apply_ite Island.unstaged p i j
theorem Island.unstaged_ana (i : Island) (a : Analog) : { i with ana := a }.unstaged = i.unstaged := (rfl)
theorem Island.unstaged_safe (i : Island) (l : SafeLogic) : { i with safe := l }.unstaged = i.unstaged := (rfl)
theorem Island.unstaged_keep (i : Island) (v : BitVec 16) (on : Bool) : (i.keep v on).unstaged = i.unstaged := (rfl)
theorem Island.unstaged_enter (i : Island) (now : Tick) (b : BitVec 16) : (i.enter now b).unstaged = i.unstaged := (rfl)

/-- A demand that begins or ends changes what the stages of its island do alone. -/
theorem State.demands_beside (s : State) (n : IslandNo) (f : Island → Island) (h : ∀ i, (f i).unstaged = i.unstaged) :
    (s.demands n f).beside Island.unstaged n = s.beside Island.unstaged n := by
  unfold State.demands
  rw [State.outputs_unstaged, State.recapture_beside]
  simp [State.beside, State.modIsl, Island.unstaged_ite, Island.unstaged_safe, Island.unstaged_keep, Island.unstaged_enter,
    Island.unstaged_ana, h]

/-! ### Service hold and loopbacks -/

@[simp] theorem State.holdEnd_beside (s : State) (n : IslandNo) :
    (s.holdEnd n).beside Island.unstaged n = s.beside Island.unstaged n := by
  have hrestart (v : State) := State.beside_unstaged (v.adcRestart_beside n)
  have hstart (v : State) := State.beside_unstaged (v.inputStart_beside n)
  simp [State.holdEnd, hrestart, hstart, State.beside_modIsl, Island.unstaged_eq, Island.unmeasured_eq]

@[simp] theorem State.loopEnd_beside (s : State) (n : IslandNo) (st : BitVec 2) (reason : BitVec 4) :
    (s.loopEnd n st reason).beside Island.unstaged n = s.beside Island.unstaged n := by
  simp [State.loopEnd, State.beside_modIsl, Island.unstaged_eq, Island.unmeasured_eq]

/-! ## The islands in turn -/

/-- Each island in turn: what the steps of the islands before n keep holds when n takes its own, and what the steps behind it keep holds
at the end. -/
theorem foldl_islands {step : State → IslandNo → State} {Before After : State → Prop} (n : IslandNo) {s : State} (hs : Before s)
    (hbefore : ∀ v k, k ≠ n → Before v → Before (step v k)) (hat : ∀ v, Before v → After (step v n))
    (hafter : ∀ v k, k ≠ n → After v → After (step v k)) : After (islands.foldl step s) := by
  obtain ⟨as, bs, hl⟩ := List.append_of_mem (mem_islands n)
  have hnd : islands.Nodup := List.nodup_finRange 16
  rw [hl, List.nodup_append, List.nodup_cons] at hnd
  obtain ⟨-, ⟨hnb, -⟩, hdis⟩ := hnd
  rw [hl, List.foldl_append, List.foldl_cons]
  refine List.foldlRecOn (motive := After) bs step (hat _ ?_) fun v hv k hk => hafter v k (fun e => hnb (e ▸ hk)) hv
  exact List.foldlRecOn (motive := Before) as step hs fun v hv k hk => hbefore v k (fun e => hdis k hk n (by simp) e) hv

/-- What every island's step keeps holds behind them all. -/
theorem foldl_islands_keep {step : State → IslandNo → State} {P : State → Prop} {s : State} (hs : P s) (hstep : ∀ v k, P v → P (step v k)) :
    P (islands.foldl step s) :=
  List.foldlRecOn (motive := P) islands step hs fun v hv k _ => hstep v k hv

/-! ## The engine of the store -/

/-- The next pulse begins and ends on its tick, or it waits for STEP; it is held while a reset waits (R308, R311, R354). -/
theorem State.nvmPulse_eq (s : State) : ∃ st e h k, s.nvmPulse = { s with
      nvm := { s.nvm with st := st, sliceAt := e, held := h, hwstep := k } } ∧
    (st = .stepWait ∨ st = (if s.nvm.redo then .recovering else .busy) ∧ h = s.resetWaits) := by
  unfold State.nvmPulse
  split
  · exact ⟨.stepWait, s.nvm.sliceAt, s.nvm.held, _, rfl, .inl rfl⟩
  · exact ⟨_, _, _, s.nvm.hwstep, rfl, .inr ⟨rfl, rfl⟩⟩

/-- A record of the journal is programmed next, behind the erase of a sector where it opens one (R314). -/
theorem State.nvmRecord_eq (s : State) (b : Bool) : ∃ ph st e h k, s.nvmRecord b = { s with
      nvm := { s.nvm with phase := ph, pulses := 0, st := st, sliceAt := e, held := h, hwstep := k } } ∧
    (ph = .journalErase b ∨ ph = if b then .done else .intent) ∧ (st = .stepWait ∨ st = if s.nvm.redo then .recovering else .busy) := by
  unfold State.nvmRecord
  dsimp only
  obtain ⟨st, e, h, k, hp, hst⟩ := State.nvmPulse_eq { s with nvm := { s.nvm with
    phase := if decide (s.nvm.jpos % 128 = 0) && !s.blank s.journalNext 4096 then .journalErase b else if b then .done else .intent,
    pulses := 0 } }
  refine ⟨_, st, e, h, k, hp, ?_, hst.imp id And.left⟩
  split
  · exact .inl rfl
  · exact .inr rfl

/-- What is pending for an idle controller is owed. -/
def State.nvmTakes (s : State) : State :=
  if !s.nvmFit || decide (s.nvm.jobs ≠ []) || decide (s.pow.k4) then s
  else if s.nvm.st = .recovering then s.owe 0 .intentRecovery
  else if s.nvm.st ≠ .idle then s
  else if s.nvm.rejectA then s.owe 0 (.markRejected (.thread 0) .bankA)
  else if s.nvm.rejectB then s.owe 0 (.markRejected (.thread 0) .bankB)
  else if counters.any (fun k => s.counterPend k) then s.owe 0 .counterIncrement
  else s

theorem State.nvmTakes_eq (s : State) : ∃ d, s.nvmTakes = { s with due := d } := by
  have keeps : ∃ d, s = { s with due := d } := ⟨s.due, rfl⟩
  have owes (c : Instr) : ∃ d, s.owe 0 c = { s with due := d } := ⟨_, s.owe_eq 0 c⟩
  unfold State.nvmTakes
  repeat' split
  exacts [keeps, owes _, keeps, owes _, owes _, owes _, keeps]

/-- Nothing is left to recover (R313). -/
def State.recovered (s : State) : Prop := s.nvm.st = .recovering ∧ s.nvm.jobs = [] ∧ s.nvm.intents = [] ∧ !s.nvm.jtorn

theorem State.nvmNext_recovered {s : State} (h : s.recovered) : s.nvmNext = State.nvmTakes { s with nvm := { s.nvm with st := .idle } } := by
  unfold State.recovered at h
  unfold State.nvmNext
  rw [if_pos h]
  rfl
theorem State.nvmNext_other {s : State} (h : ¬ s.recovered) : s.nvmNext = s.nvmTakes := by
  unfold State.recovered at h
  unfold State.nvmNext
  rw [if_neg h]
  rfl

/-- What the controller takes up changes its state, to IDLE once nothing is open, and the calendar (R313, R317, R321). -/
theorem State.nvmNext_st (s : State) : ∃ d st, s.nvmNext = { s with due := d, nvm := { s.nvm with st := st } } ∧
    (st = s.nvm.st ∨ s.nvm.st = .recovering ∧ s.nvm.intents = [] ∧ s.nvm.jtorn = false ∧ st = .idle) := by
  by_cases h : s.recovered
  · obtain ⟨d, hd⟩ := State.nvmTakes_eq { s with nvm := { s.nvm with st := .idle } }
    obtain ⟨hst, -, hi, hj⟩ := id h
    exact ⟨d, .idle, (State.nvmNext_recovered h).trans hd, .inr ⟨hst, hi, by simpa using hj, rfl⟩⟩
  · obtain ⟨d, hd⟩ := s.nvmTakes_eq
    exact ⟨d, s.nvm.st, (State.nvmNext_other h).trans hd, .inl rfl⟩

theorem State.nvmStop_eq (s : State) : ∃ d st z, s.nvmStop = { s with due := d, slate := z, nvm := { s.nvm with
      jobs := [], st := st, stopAfter := none, redo := false, isKey := false, held := false } } ∧ (s.nvm.intents = [] → st = .idle) := by
  unfold State.nvmStop
  dsimp only
  obtain ⟨d, st, h, hst⟩ := State.nvmNext_st { s with
    nvm := { s.nvm with jobs := [], st := if s.nvm.intents = [] then .idle else .recovering, stopAfter := none, redo := false, isKey := false, held := false },
    slate := if s.nvm.isKey then { s.slate with kbusy := false, keydata := Vector.replicate 8 0 } else s.slate }
  refine ⟨d, st, _, h, fun hi => ?_⟩
  rcases hst with hst | ⟨-, -, -, hst⟩
  · rw [hst]
    exact if_pos hi
  · exact hst

theorem State.tear_eq (s : State) (a n : Nat) : ∃ m k, s.tear a n = { s with nvm := { s.nvm with mem := m }, free := k } :=
  ⟨_, _, rfl⟩
theorem State.journalTear_eq (s : State) : ∃ m p k, s.journalTear = { s with nvm := { s.nvm with mem := m, jpos := p }, free := k } := by
  unfold State.journalTear
  exact ⟨_, _, _, rfl⟩
theorem State.tearTarget_eq (s : State) (j : NvmJob) : ∃ m k, s.tearTarget j = { s with nvm := { s.nvm with mem := m }, free := k } := by
  unfold State.tearTarget
  split <;> exact State.tear_eq ..

/-- A cut changes the controller, the calendar, a key operation of the slate's block and what is undefined (R310). -/
theorem State.nvmCut_eq (s : State) (byReset step : Bool) : ∃ d z v k, s.nvmCut byReset step =
    { s with due := d, slate := z, nvm := v, free := k } := by
  unfold State.nvmCut
  -- the torn bytes are a long list: nothing below may unfold them
  have ht := State.tear_eq
  generalize State.tear = tear at ht
  split
  · exact ⟨s.due, s.slate, s.nvm, s.free, rfl⟩
  · extract_lets u v _ w _ x
    have hu : ∃ m, u = { s with nvm := m } := by
      unfold u
      split
      · exact ⟨_, rfl⟩
      · exact ⟨s.nvm, rfl⟩
    obtain ⟨m, hu⟩ := hu
    clear_value u
    subst hu
    have hv : ∃ m k, v = { s with nvm := m, free := k } := by
      unfold v
      split <;>
      · obtain ⟨m, k, h⟩ := ht _ _ _
        exact ⟨_, k, h⟩
    have hw : ∃ m k, w = { s with nvm := m, free := k } := by
      obtain ⟨m, k, h⟩ := ht { s with nvm := m } (State.journalNext { s with nvm := m }) 4096
      exact ⟨_, k, h⟩
    obtain ⟨mv, kv, hv⟩ := hv
    obtain ⟨mw, kw, hw⟩ := hw
    clear_value v w
    subst hv hw
    have hx : ∃ m k, x = { s with nvm := m, free := k } := by
      obtain ⟨_, _, _, hj⟩ := State.journalTear_eq { s with nvm := m }
      unfold x
      split
      · exact ⟨m, s.free, rfl⟩
      · split
        · split
          · exact ⟨_, kv, rfl⟩
          · exact ⟨_, kv, rfl⟩
        · exact ⟨_, kw, rfl⟩
        · exact ⟨_, _, hj⟩
        · exact ⟨_, _, hj⟩
        · exact ⟨m, s.free, rfl⟩
        · exact ⟨m, s.free, rfl⟩
    obtain ⟨mx, kx, hx⟩ := hx
    obtain ⟨d, st, z, hstop, -⟩ := x.nvmStop_eq
    rw [hstop, hx]
    exact ⟨d, z, _, kx, rfl⟩

/-- A record takes the journal's next slot (R312). -/
theorem State.journalPut_eq (s : State) (b : Bool) (i : Intent) : ∃ m, s.journalPut b i = { s with
    nvm := { s.nvm with mem := m, jpos := (s.nvm.jpos + 1) % s.member.nvmAt 2048 } } := ⟨_, rfl⟩

/-- A body begins with its first pulse, an erase with the first verify (R308). -/
theorem State.bodyBegin_eq (s : State) (j : NvmJob) : ∃ ph st e h k, s.bodyBegin j = { s with
      nvm := { s.nvm with phase := ph, pulses := 0, units := 0, st := st, sliceAt := e, held := h, hwstep := k } } ∧
    (j.kind = .erase → ph = .check ∧ e = s.tick + 1024) := by
  unfold State.bodyBegin
  extract_lets _ u
  split
  · exact ⟨.check, _, _, s.nvm.held, s.nvm.hwstep, rfl, fun _ => ⟨rfl, rfl⟩⟩
  · rename_i hk
    obtain ⟨st, e, h, k, hu, -⟩ := u.nvmPulse_eq
    exact ⟨.body, st, e, h, k, hu, fun he => absurd (.inl he) hk⟩

theorem State.keyed_eq (s : State) (r : BitVec 3) : ∃ z, (if s.nvm.isKey then s.kres r else s) = { s with slate := z } := by
  split
  · exact ⟨_, rfl⟩
  · exact ⟨s.slate, rfl⟩

theorem Nvm.rewritten_eq (v : Nvm) (m : Member) (j : NvmJob) : ∃ a b, v.rewritten m j = { v with badA := a, badB := b } := by
  unfold Nvm.rewritten
  repeat' split
  · exact ⟨false, v.badB, rfl⟩
  · exact ⟨v.badA, false, rfl⟩
  · exact ⟨v.badA, v.badB, rfl⟩

/-- An intent whose effect is not told apart. -/
def Intent.unapplied (i : Intent) : Intent := { i with applied := false }

/-- The effect of a plain body is its flash alone: its intent is marked. -/
theorem State.applyIntent_plain (s : State) {j : NvmJob} (hj : j.after = .plain) : ∃ l, s.applyIntent j = { s with
    nvm := { s.nvm with intents := l } } ∧ l.map Intent.unapplied = s.nvm.intents.map Intent.unapplied := by
  unfold State.applyIntent
  rw [hj]
  split
  · exact ⟨s.nvm.intents, rfl, rfl⟩
  · refine ⟨_, rfl, ?_⟩
    rw [List.map_map]
    refine List.map_congr_left fun i _ => ?_
    rw [Function.comp_apply]
    split <;> rfl

/-- Behind a plain body comes its DONE record (R312). -/
theorem State.bodyDone_plain (s : State) {j : NvmJob} (hj : j.after = .plain) : ∃ z l ph st e h k, s.bodyDone j = { s with
      slate := z, nvm := { s.nvm with intents := l, phase := ph, pulses := 0, st := st, sliceAt := e, held := h, hwstep := k } } ∧
    (ph = .journalErase true ∨ ph = .done) := by
  unfold State.bodyDone
  obtain ⟨z, hz⟩ := s.keyed_eq 0
  rw [hz]
  dsimp only
  rw [if_neg (by simp [hj])]
  obtain ⟨l, hl, -⟩ := State.applyIntent_plain { s with slate := z } hj
  rw [hl]
  obtain ⟨ph, st, e, h, k, hr, hph, -⟩ := State.nvmRecord_eq { s with slate := z, nvm := { s.nvm with intents := l } } true
  exact ⟨z, l, ph, st, e, h, k, hr, hph⟩

/-- A body whose verify has failed for good is closed with FAILED (R308). -/
theorem State.nvmFail_body (s : State) (a : Nat) {j : NvmJob} {l : List NvmJob} (hp : s.nvm.phase = .body) (hj : j.after ≠ .journal) :
    (s.nvmFail a (j :: l)).nvm.res = NvmRes.verify.code ∧ (s.nvmFail a (j :: l)).nvm.status = 3 ∧
      (s.nvmFail a (j :: l)).nvm.jobs = [j] ∧ Raises s (s.nvmFail a (j :: l)) 0x20 (mid .nvm) 0 := by
  unfold State.nvmFail
  extract_lets _ u v w
  have hv : Raises s v 0x20 (mid .nvm) 0 := u.raiseAt_raises ..
  obtain ⟨d, f, hu⟩ : ∃ d f, v = { u with due := d, fault := f } := u.raiseBy_eq ..
  obtain ⟨z, hw⟩ : ∃ z, w = { v with slate := z } := v.keyed_eq 3
  have hwp : w.nvm.phase = .body := by rw [hw, hu]; exact hp
  have hwr : w.nvm.res = NvmRes.verify.code := by rw [hw, hu]; rfl
  replace hv : Raises s w 0x20 (mid .nvm) 0 := hv.congr (congrArg State.fault hw :)
  rw [if_pos ⟨hwp, by simpa using hj⟩]
  obtain ⟨ph, st, e, h, k, hr, -⟩ := State.nvmRecord_eq { w with nvm := { w.nvm with status := 3, jobs := (j :: l).take 1 } } true
  rw [hr]
  exact ⟨hwr, rfl, rfl, hv.congr rfl⟩

/-! ## What leaves the declared rate -/

@[simp] theorem State.rate_ite (p : Prop) [Decidable p] (s u : State) : (if p then s else u).rate = if p then s.rate else u.rate :=
  apply_ite State.rate p s u

/-- Steps that each leave the rate leave it together. -/
theorem State.rate_foldl {β : Type} (l : List β) (f : State → β → State) (s : State) (hf : ∀ s b, (f s b).rate = s.rate) :
    (l.foldl f s).rate = s.rate := by
  induction l generalizing s with
  | nil => rfl
  | cons b l ih => exact (ih (f s b)).trans (hf s b)

theorem State.rate_of_beside {s u : State} {g : Island → Island} {n : IslandNo} (h : u.beside g n = s.beside g n) : u.rate = s.rate :=
  (congrArg State.rate h :)

@[simp] theorem State.oweAt_rate (s : State) (t : Tick) (c : Instr) : (s.oweAt t c).rate = s.rate := by rw [State.oweAt_eq]
@[simp] theorem State.owe_rate (s : State) (k : Nat) (c : Instr) : (s.owe k c).rate = s.rate := by rw [State.owe_eq]
@[simp] theorem State.pulseIn_rate (s : State) (k src : Nat) : (s.pulseIn k src).rate = s.rate := by
  obtain ⟨d, h⟩ := s.pulseIn_due k src
  rw [h]
@[simp] theorem State.raiseBy_rate (s : State) (src : Byte) (m : Master) (typ : BitVec 4) (kind : Byte) (a : Word) :
    (s.raiseBy src m typ kind a).rate = s.rate := by
  obtain ⟨d, f, h⟩ := s.raiseBy_eq src m typ kind a
  rw [h]
@[simp] theorem State.raiseAt_rate (s : State) (stamp : Tick) (src m : Byte) (typ : BitVec 4) (kind : Byte) (a dt : Word) (inj : Bool) :
    (s.raiseAt stamp src m typ kind a dt inj).rate = s.rate := by
  obtain ⟨d, f, h⟩ := s.raiseAt_eq stamp src m typ kind a dt inj
  rw [h]

/-! ### Contexts, channels, the controller -/

@[simp] theorem State.poisonLock_rate (s : State) (k : Fin 64) (t : CtxNo) : (s.poisonLock k t).rate = s.rate := by
  simp [State.poisonLock]
@[simp] theorem State.endCtx_rate (s : State) (t : CtxNo) (exit : Word) (killed : Bool) (k : Nat) :
    (s.endCtx t exit killed k).rate = s.rate := by
  have hlocks (u : State) : (u.dropLocks t).rate = u.rate := State.rate_foldl _ _ u fun u k => by simp
  simp only [State.endCtx, State.pulseIn_rate, hlocks]
  rw [State.foldl_modIsl]
  rfl
@[simp] theorem State.ownerLost_rate (s : State) (m : Master) : (s.ownerLost m).rate = s.rate := by simp [State.ownerLost]
@[simp] theorem State.killCtx_rate (s : State) (t : CtxNo) : (s.killCtx t).rate = s.rate := by simp [State.killCtx, State.noThreadEnd]
@[simp] theorem State.chDisable_rate (s : State) (c : ChNo) : (s.chDisable c).rate = s.rate := by
  simp only [State.chDisable]
  rw [State.foldl_modIsl]
  rfl

@[simp] theorem State.nvmNext_rate (s : State) : s.nvmNext.rate = s.rate := by
  obtain ⟨d, v, h⟩ := s.nvmNext_eq
  rw [h]
@[simp] theorem State.nvmCut_rate (s : State) (byReset step : Bool) : (s.nvmCut byReset step).rate = s.rate := by
  obtain ⟨d, z, v, k, h⟩ := s.nvmCut_eq byReset step
  rw [h]

/-! ### Resets -/

@[simp] theorem State.nextTick_rate (s : State) (f : State → State) (h : ∀ s, (f s).rate = s.rate) : (s.nextTick f).rate = s.rate :=
  h { s with tick := s.tick + 1 }
@[simp] theorem State.modFlint_rate (s : State) (ch : FlintChan) (f : FlintCh → FlintCh) : (s.modFlint ch f).rate = s.rate := by
  cases ch <;> rfl
@[simp] theorem State.flintStart_rate (s : State) (ch : FlintChan) : (s.flintStart ch).rate = s.rate := by
  simp [State.flintStart, State.flintWindow]
@[simp] theorem State.loopEnd_rate (s : State) (n : IslandNo) (st : BitVec 2) (reason : BitVec 4) : (s.loopEnd n st reason).rate = s.rate :=
  State.rate_of_beside (s.loopEnd_beside n st reason)
@[simp] theorem State.k1_rate (s : State) (l : List CmdFrame) : (s.k1 l).rate = s.rate := by
  obtain ⟨_, _, _, _, _, h, _⟩ := s.k1_eq l
  rw [h]

@[simp] theorem State.nvmReset_rate (s : State) : s.nvmReset.rate = s.rate := by simp [State.nvmReset]

@[simp] theorem State.facetReset_rate (s : State) : s.facetReset.rate = s.rate := by
  have hkill := State.rate_foldl contexts _ s State.killCtx_rate
  unfold State.facetReset
  generalize contexts.foldl (fun (s : State) (t : CtxNo) => s.killCtx t) s = u at hkill ⊢
  dsimp only
  rw [State.oweAt_rate]
  refine (State.rate_foldl contexts _ _ ?_).trans hkill
  intro v t
  exact v.modCtx_rate t _

/-- The chains that start by themselves are owed one tick later. -/
def State.autoStarts (s : State) : State :=
  channels.foldl (fun (s : State) (c : ChNo) => if s.chAuto c ∧ s.slate.committed then s.owe 1 (.autoStart c) else s) s

theorem State.autoStarts_rate (s : State) : s.autoStarts.rate = s.rate := by
  refine State.rate_foldl channels _ s fun v c => ?_
  split
  · exact v.owe_rate 1 _
  · rfl

theorem State.dmaReset_eq (s : State) :
    s.dmaReset = State.autoStarts { channels.foldl (fun (s : State) (c : ChNo) => s.chDisable c) s with
      dma := Vector.replicate 16 Channel.reset, nvmRd := none, appendAt := none } := (rfl)

@[simp] theorem State.dmaReset_rate (s : State) : s.dmaReset.rate = s.rate := by
  have hdis := State.rate_foldl channels (fun (s : State) (c : ChNo) => s.chDisable c) s State.chDisable_rate
  rw [State.dmaReset_eq, State.autoStarts_rate]
  generalize channels.foldl (fun (s : State) (c : ChNo) => s.chDisable c) s = u at hdis ⊢
  exact hdis

@[simp] theorem State.sessionReset_rate (s : State) : s.sessionReset.rate = s.rate := by
  simp [State.sessionReset, State.modSlate]

@[simp] theorem State.loopReset_rate (s : State) : s.loopReset.rate = s.rate :=
  State.rate_foldl _ _ s fun u n => u.loopEnd_rate n 0 0

/-- A K2 reset keeps the declared rate (R22, R370). -/
@[simp] theorem State.k2_rate (s : State) (c : Cause) : (s.k2 c).rate = s.rate := by
  simp [State.k2, State.flintRestart]

theorem State.marksEnd_rate (s : State) : s.marksEnd.rate = s.rate := by
  have hmark (u : State) (n : IslandNo) :
      (u.demands n (fun i => { i with safe := { i.safe with mark := false } })).rate = u.rate :=
    State.rate_of_beside (u.demands_beside n _ fun _ => rfl)
  simp [State.marksEnd, State.rate_foldl, hmark]

/-! ### Frames that are not taken -/

@[simp] theorem State.modLink_rate (s : State) (f : Link → Link) : (s.modLink f).rate = s.rate := rfl
@[simp] theorem State.clamped_rate (s : State) (m : Master) (k : Nat) : (s.clamped m k).rate = s.rate := by
  unfold State.clamped
  split <;> rfl
@[simp] theorem State.echoTwin_rate (s : State) (f : CurFrame) (p : List Word) (crc : Word) : (s.echoTwin f p crc).rate = s.rate := by
  simp [State.echoTwin]
@[simp] theorem State.badFrame_rate (s : State) (hdr : Word) (t : Tick) : (s.badFrame hdr t).rate = s.rate := by
  simp [State.badFrame, State.linkFault, State.untrain, State.dropFrame]

/-- The end of a frame leaves the rate where the command that it brings leaves it. -/
theorem State.frameEnd_rate (s : State) (row : Instr) (type : Nat) (p : List Word) (crc : Word) {act : State → CurFrame → State}
    (hact : ∀ s f, (act s f).rate = s.rate) : (s.frameEnd row type p crc act).rate = s.rate := by
  unfold State.frameEnd
  split
  · rfl
  · split
    · simp [State.mirror]
    · simp [hact, State.frameDone, State.linkFault]

theorem State.linkReset_rate (s : State) : s.linkReset.rate = s.rate := by
  simp [State.linkReset, State.modPow]

/-! ## O7: HOST.TICKRATE -/

/-- The rate that a write declares: 0, or the nearest rate of the mode (R22). -/
theorem State.writeRate_toNat (s : State) (m : Master) (w : Word) : (s.writeRate m w).rate.toNat = rateClamp s.link.lmode (fld w 0 18) := by
  obtain ⟨d, v, hu⟩ := s.writeRate_eq m w
  rw [hu]
  have hlt : fld w 0 18 < 2 ^ 18 := (w.extractLsb' 0 18).isLt
  refine Nat.mod_eq_of_lt ?_
  unfold rateClamp
  split
  · decide
  · split <;> omega

@[simp] theorem State.lanesUpdate_rate (s : State) : s.lanesUpdate.rate = s.rate := by
  obtain ⟨i, t, h⟩ := s.lanesUpdate_eq
  rw [h]

theorem State.haltReset_rate (s : State) : s.haltReset.rate = s.rate := by
  obtain ⟨_, _, _, _, _, h, _⟩ := s.k0_eq
  simp [State.haltReset, h, State.modPow]

theorem State.recoverHalt_rate (s : State) : s.recoverHalt.rate = s.rate := by
  simp [State.recoverHalt, State.marksEnd_rate, State.haltReset_rate]

theorem State.readReg_rate (s : State) : s.readReg s.tick 0x010 = some (s, s.rate.setWidth 32) := rfl

/-- A K4 reset loses the rate (R22). -/
theorem State.k4Assert_rate {s : State} (h : s.pow.k4 = false) (c : Cause) : (s.k4Assert c).rate = 0 := by
  unfold State.k4Assert
  rw [if_neg (by simp [h])]
  generalize s.nvmCut true s.stepping = u
  rfl

/-- A K3 reset loses the rate (R22). -/
theorem State.k3_rate (s : State) : s.k3.rate = 0 := by
  unfold State.k3 State.dropK2
  rfl

theorem registerWrite_rate_nearest {s : State} (hc : s.clocked = true) {m : Master} (hm : m = .link ∨ ∃ t, m = .thread t) (w : Word) :
    Completes (.registerWrite m 0x010 w) s (fun u => u.rate.toNat = rateClamp s.link.lmode (fld w 0 18)) := by
  refine ⟨_, exec_registerWrite_put (a := 0x010) w hc rfl (by decide) (regWriteError_open hm (by decide) w _), ?_⟩
  rw [State.putReg_rate]
  exact State.writeRate_toNat _ m w

theorem haltRecovery_rate (s : State) : Completes .haltRecovery s (fun u => u.rate = s.rate) := by
  refine ⟨_, rfl, ?_⟩
  simp [State.escalate, State.recoverHalt_rate, State.modFault]

theorem linkReset_rate (s : State) (p : List Word) (crc : Word) : Completes (.linkReset p crc) s (fun u => u.rate = s.rate) := by
  refine ⟨_, rfl, ?_⟩
  simp [State.ctrl, State.frameEnd_rate, State.frameDone, State.linkReset_rate]

theorem softReset_rate (s : State) : Completes .softReset s (fun u => u.rate = s.rate) := by
  refine ⟨_, rfl, ?_⟩
  simp [State.modPow]

theorem flintReset_rate {s : State} (hc : s.clocked = true) (hd : s.isDue .flintReset = true) (hr : s.flint.resetDue = true)
    (hs : s.slicing = false) : Completes .flintReset s (fun u => u.rate = 0) := by
  have hrun : exec .flintReset s = .next (s.settle .flintReset).k3 := by
    rw [exec_flintReset, execFlintReset, State.act_on _ hc]
    simp [hd, hr, hs]
  exact ⟨_, hrun, State.k3_rate _⟩

/-- Settles O7: the register's read and write, and what the resets leave of it. -/
theorem tickRateRegister : Obligations.TickRateRegister :=
  ⟨rfl, fun s => ⟨s.readReg_rate, fun _ w hc hm => registerWrite_rate_nearest hc hm w, haltRecovery_rate s, linkReset_rate s,
    softReset_rate s, fun hk => ⟨_, rfl, State.k4Assert_rate hk _⟩, flintReset_rate⟩⟩

/-! ## O2: the state after a power-on reset -/

theorem reset_islands (n : IslandNo) : State.reset.isl[n].power = .bedrock ∧ State.reset.isl[n].en = false ∧
    State.reset.isl[n].led.admRung = 0 ∧ State.reset.isl[n].loop.st = 0 := by
  have h : State.reset.isl[n] = Island.reset := by simp [State.reset]
  simp [h, Island.reset, Ledger.reset, Loopback.reset]

theorem reset_contexts {t : CtxNo} (h : t ≠ 0) : State.reset.facet.ctx[t].st = .free := by
  have hc : State.reset.facet.ctx[t] = Ctx.reset := by
    have hv : 0 ≠ t.val := fun h0 => h (Fin.ext h0.symm)
    simp [State.reset, Facet.reset, hv]
  simp [hc, Ctx.reset]

theorem reset_locks (k : Fin 64) : State.reset.facet.locks[k].owner = none ∧ State.reset.facet.locks[k].poison = false := by
  simp [State.reset, Facet.reset]

theorem reset_channels (c : ChNo) : State.reset.dma[c].st = .idle := by
  simp [State.reset, Channel.reset]

/-- The classes that four sources have before a slate sets them (R291). -/
theorem reset_matrix : State.reset.matrix 0x2B = 0x13 ∧ State.reset.matrix 0x18 = 0x08 ∧ State.reset.matrix 0x31 = 1 ∧
    State.reset.matrix 0x01 = 0 := by decide

/-- Settles O2: the fields of the reset state, one by one. -/
theorem resetState : Obligations.ResetState := by
  unfold Obligations.ResetState
  obtain ⟨m0, m1, m2, m3⟩ := reset_matrix
  refine ⟨rfl, rfl, rfl, rfl, rfl, rfl, rfl, rfl, rfl, rfl, rfl, rfl, rfl, rfl, rfl, rfl, reset_islands, rfl, rfl, fun _ => reset_contexts,
    reset_locks, m0, m1, m2, m3, reset_channels, rfl, rfl, rfl, rfl, rfl, rfl, rfl, rfl, rfl, rfl, rfl, rfl, rfl, rfl, rfl, rfl, rfl, rfl,
    rfl, rfl, .head _, .tail _ (.head _)⟩

/-! ## The end of a slice -/

/-- A reset that waits for the end of the slice comes on the next tick (R281, R354). -/
def State.resetComes (s : State) : State :=
  let s := if s.flint.resetDue && !s.due.any (fun e => decide (e.2 = Instr.flintReset)) then s.owe 1 .flintReset else s
  if s.pow.k2due && !s.due.any (fun e => decide (e.2 = Instr.softReset)) then s.owe 1 .softReset else s

theorem State.resetComes_eq (s : State) : ∃ d, s.resetComes = { s with due := d } ∧
    (s.flint.resetDue = true → (∀ e ∈ s.due, e.2 ≠ .flintReset) → (s.tick + 1, .flintReset) ∈ d) := by
  unfold State.resetComes
  extract_lets u
  have hu : ∃ d, u = { s with due := d } ∧
      (s.flint.resetDue = true → (∀ e ∈ s.due, e.2 ≠ .flintReset) → (s.tick + 1, .flintReset) ∈ d) := by
    unfold u
    split
    · exact ⟨_, State.owe_eq .., fun _ _ => s.mem_owe_self 1 .flintReset⟩
    · rename_i h
      refine ⟨s.due, rfl, fun hr hd => absurd ?_ h⟩
      simpa [hr] using hd
  obtain ⟨d, hd, hm⟩ := hu
  clear_value u
  subst hd
  split
  · exact ⟨_, State.owe_eq .., fun hr hn => State.mem_owe.2 (.inl (hm hr hn))⟩
  · exact ⟨d, rfl, hm⟩

section Engine

variable {s : State} {j : NvmJob} {l : List NvmJob}

theorem State.slicing_of_busy (hj : s.nvm.jobs = j :: l) (hb : s.nvm.st = .busy) (hh : s.nvm.held = false)
    (hp : s.nvm.phase = .intent ∨ s.nvm.phase = .body ∨ s.nvm.phase = .done) : s.slicing = true := by
  rcases hp with hp | hp | hp <;> simp [State.slicing, State.stepping, hj, hb, hh, hp]

theorem State.slicing_of_wait (hb : s.nvm.st = .stepWait) : s.slicing = false := by
  simp [State.slicing, State.stepping, hb]

theorem exec_sliceEnd_done (hc : s.clocked = true) (hj : s.nvm.jobs = j :: l) (hs : s.slicing = true) (ht : s.nvm.sliceAt ≤ s.tick)
    (hstop : s.nvm.stopAfter = none) (v : Bool) : exec (.sliceEnd v) s = .next (s.sliceDone v j l).resetComes := by
  have hlt : ¬ s.tick < s.nvm.sliceAt := BitVec.not_lt.2 ht
  rw [exec_sliceEnd, execSliceEnd, State.act_on _ hc]
  simp only [hs, hlt, hj, hstop]
  rfl

theorem exec_sliceEnd_early (ht : s.tick < s.nvm.sliceAt) (v : Bool) : exec (.sliceEnd v) s = .next s := by
  simp [execSliceEnd, State.act, ht]

end Engine

/-- What is read from a range that has been erased, and beside it (R306). -/
theorem sget_erased (d : Nat → Byte) (m : List Host.Cell) (a n b : Nat) :
    sget d (m.filter (fun e => decide (e.1 < a ∨ a + n ≤ e.1))) b = if a ≤ b ∧ b < a + n then d b else sget d m b := by
  induction m with
  | nil => simp [sget]
  | cons x r ih =>
    by_cases hx : x.1 < a ∨ a + n ≤ x.1
    · rw [List.filter_cons_of_pos (by simpa using hx)]
      simp only [sget, ih]
      grind
    · rw [List.filter_cons_of_neg (by simpa using hx), ih]
      simp only [sget]
      split
      · rfl
      · rw [if_neg (by omega)]

/-- One pulse more is counted (R308). -/
def State.pulsed (s : State) : State := { s with nvm := { s.nvm with steps := satAdd s.nvm.steps 1, pulses := s.nvm.pulses + 1 } }

section SliceDone

variable {s : State} {j : NvmJob} {l : List NvmJob}

theorem State.sliceDone_body (hp : s.nvm.phase = .body) (v : Bool) : s.sliceDone v j l =
    if j.kind = .erase ∨ j.kind = .keyErase then
      if v then { s.pulsed with nvm := (s.pulsed.nvm.eraseRange j.target (s.pulsed.eraseLen j.kind)).rewritten s.member j }.bodyDone j
      else if 40 ≤ s.nvm.pulses + 1 then (s.pulsed.tear j.target (s.pulsed.eraseLen j.kind)).nvmFail j.target (j :: l)
      else s.pulsed.nvmPulse
    else if v then
      (let u := { s.pulsed with nvm := { s.pulsed.nvm.rewritten s.member j with
        mem := flashPut s.nvm.mem (j.target + 32 * s.nvm.units) ((j.data.drop (32 * s.nvm.units)).take 32), units := s.nvm.units + 1,
        pulses := 0 } }
      if j.data.length ≤ 32 * (s.nvm.units + 1) then u.bodyDone j else u.nvmPulse)
    else if 12 ≤ s.nvm.pulses + 1 then (s.pulsed.tear (j.target + 32 * s.nvm.units) 32).nvmFail (j.target + 32 * s.nvm.units) (j :: l)
    else s.pulsed.nvmPulse := by
  unfold State.sliceDone
  extract_lets v u
  rw [show v.phase = .body from hp]
  rfl

theorem State.sliceDone_intent (hp : s.nvm.phase = .intent) : s.sliceDone true j l =
    (let u := s.pulsed.journalPut false (s.pulsed.jobIntent j)
     { u with nvm := { u.nvm with intents := u.nvm.intents ++ [s.pulsed.jobIntent j] } }.bodyBegin j) := by
  unfold State.sliceDone
  extract_lets v u
  rw [show v.phase = .intent from hp]
  rfl

theorem State.sliceDone_done (hp : s.nvm.phase = .done) : s.sliceDone true j l =
    (let u := s.pulsed.journalPut true (s.pulsed.openIntent j)
     { u with nvm := { u.nvm with intents := u.nvm.intents.filter (fun i => i.seq ≠ s.nvm.cur), jobs := l, redo := false } }.nvmBegin) := by
  unfold State.sliceDone
  extract_lets v u
  rw [show v.phase = .done from hp]
  rfl

end SliceDone

section Slice

variable {s : State} {j : NvmJob} {l : List NvmJob} (hc : s.clocked = true) (hj : s.nvm.jobs = j :: l) (hstop : s.nvm.stopAfter = none)
  (hb : s.nvm.st = .busy) (hh : s.nvm.held = false) (ht : s.nvm.sliceAt ≤ s.tick)

include hc hj hstop hb hh ht

theorem sliceEnd_completes (hp : s.nvm.phase = .intent ∨ s.nvm.phase = .body ∨ s.nvm.phase = .done) (v : Bool) {P : State → Prop}
    (hP : ∀ d, P { s.sliceDone v j l with due := d }) : Completes (.sliceEnd v) s P := by
  obtain ⟨d, hd, -⟩ := (s.sliceDone v j l).resetComes_eq
  exact ⟨_, exec_sliceEnd_done hc hj (State.slicing_of_busy hj hb hh hp) ht hstop v, hd ▸ hP d⟩

/-- A verified INTENT record opens the intent, and the body begins: of an erase, with the first verify (R308, R312). -/
theorem sliceEnd_intent (hp : s.nvm.phase = .intent) : Completes (.sliceEnd true) s (fun u =>
    (∃ i, u.nvm.intents = s.nvm.intents ++ [i] ∧ i.seq = s.nvm.cur ∧ i.kind = j.kind ∧ i.target = j.target ∧ i.began = s.nvm.began) ∧
    u.nvm.jpos = (s.nvm.jpos + 1) % s.member.nvmAt 2048 ∧ u.nvm.jobs = j :: l ∧
    (j.kind = .erase → u.nvm.phase = .check ∧ u.nvm.sliceAt = s.tick + 1024)) := by
  refine sliceEnd_completes hc hj hstop hb hh ht (.inl hp) true fun d => ?_
  rw [State.sliceDone_intent hp]
  generalize hi : State.jobIntent _ j = i
  have hrec : i.seq = s.nvm.cur ∧ i.kind = j.kind ∧ i.target = j.target ∧ i.began = s.nvm.began := hi ▸ ⟨rfl, rfl, rfl, rfl⟩
  clear hi
  obtain ⟨m, hm⟩ := State.journalPut_eq _ _ _
  rw [hm]
  clear hm
  obtain ⟨ph, st, e, h, k, hu, hk⟩ := State.bodyBegin_eq _ _
  rw [hu]
  exact ⟨⟨i, rfl, hrec⟩, rfl, hj, hk⟩

/-- A verified unit is programmed, and the next one waits for its pulse; a reset that waits comes first (R281, R308, R354). -/
theorem sliceEnd_unit (hp : s.nvm.phase = .body) (he : j.kind ≠ .erase) (hk : j.kind ≠ .keyErase)
    (hn : 32 * (s.nvm.units + 1) < j.data.length) : Completes (.sliceEnd true) s (fun u =>
      u.nvm.mem = flashPut s.nvm.mem (j.target + 32 * s.nvm.units) ((j.data.drop (32 * s.nvm.units)).take 32) ∧
      u.nvm.units = s.nvm.units + 1 ∧ u.nvm.steps = satAdd s.nvm.steps 1 ∧ u.nvm.jobs = j :: l ∧
      (s.flint.resetDue = true → u.slicing = false ∧ ((∀ e ∈ s.due, e.2 ≠ .flintReset) → (s.tick + 1, .flintReset) ∈ u.due))) := by
  obtain ⟨v, hv⟩ : ∃ v, s.sliceDone true j l = State.nvmPulse { s with nvm := v } ∧
      v.mem = flashPut s.nvm.mem (j.target + 32 * s.nvm.units) ((j.data.drop (32 * s.nvm.units)).take 32) ∧
      v.units = s.nvm.units + 1 ∧ v.steps = satAdd s.nvm.steps 1 ∧ v.jobs = j :: l := by
    rw [State.sliceDone_body hp, if_neg (by tauto), if_pos rfl]
    obtain ⟨a, b, hr⟩ := s.pulsed.nvm.rewritten_eq s.member j
    dsimp only
    rw [if_neg (by omega), hr]
    exact ⟨_, rfl, rfl, rfl, rfl, hj⟩
  obtain ⟨hd, hmem, hunits, hsteps, hjobs⟩ := hv
  obtain ⟨st, e, h, k, hu, hst⟩ := State.nvmPulse_eq { s with nvm := v }
  obtain ⟨d, hr, hdue⟩ := (s.sliceDone true j l).resetComes_eq
  rw [hd, hu] at hr hdue
  refine ⟨_, exec_sliceEnd_done hc hj (State.slicing_of_busy hj hb hh (.inr (.inl hp))) ht hstop true, ?_⟩
  rw [hd, hu, hr]
  refine ⟨hmem, hunits, hsteps, hjobs, fun hreset => ⟨?_, hdue hreset⟩⟩
  rcases hst with rfl | ⟨-, rfl⟩
  · exact State.slicing_of_wait rfl
  · simp [State.slicing, State.stepping, State.resetWaits, hreset]

/-- A verified erase leaves its sector blank and the rest as it is (R308). -/
theorem sliceEnd_erase (hp : s.nvm.phase = .body) (he : j.kind = .erase) (ha : j.after = .plain) :
    Completes (.sliceEnd true) s (fun u =>
      (∀ a : Nat, j.target ≤ a → a < j.target + 4096 → u.flash a = 0xFF) ∧
      (∀ a : Nat, a < j.target ∨ j.target + 4096 ≤ a → u.flash a = s.flash a) ∧ u.nvm.jobs = j :: l) := by
  refine sliceEnd_completes hc hj hstop hb hh ht (.inr (.inl hp)) true fun d => ?_
  obtain ⟨v, z, hv, hmem, hjobs⟩ : ∃ v z, s.sliceDone true j l = { s with slate := z, nvm := v } ∧
      v.mem = (s.nvm.eraseRange j.target 4096).mem ∧ v.jobs = j :: l := by
    rw [State.sliceDone_body hp, if_pos (.inl he), if_pos rfl, State.eraseLen, if_neg (by simp [he])]
    obtain ⟨a, b, hr⟩ := (s.pulsed.nvm.eraseRange j.target 4096).rewritten_eq s.member j
    rw [hr]
    obtain ⟨z, i, ph, st, e, h, k, hd, -⟩ := State.bodyDone_plain _ ha
    rw [hd]
    exact ⟨_, z, rfl, rfl, hj⟩
  rw [hv]
  have hget (a : Nat) : State.flash { s with slate := z, nvm := v, due := d } a =
      if j.target ≤ a ∧ a < j.target + 4096 then 0xFF else s.flash a := by
    refine (congrArg (sget (fun _ => (0xFF : Byte)) · a) hmem).trans ?_
    exact sget_erased _ _ _ _ _
  refine ⟨fun a h1 h2 => ?_, fun a h => ?_, hjobs⟩
  · exact (hget a).trans (if_pos ⟨h1, h2⟩)
  · exact (hget a).trans (if_neg (by omega))

/-- A unit whose verify fails is pulsed again (R308). -/
theorem sliceEnd_again (hp : s.nvm.phase = .body) (he : j.kind ≠ .erase) (hk : j.kind ≠ .keyErase) (hn : s.nvm.pulses + 1 < 12) :
    Completes (.sliceEnd false) s (fun u =>
      u.nvm.mem = s.nvm.mem ∧ u.nvm.pulses = s.nvm.pulses + 1 ∧ u.nvm.units = s.nvm.units ∧ u.fault = s.fault) := by
  refine sliceEnd_completes hc hj hstop hb hh ht (.inr (.inl hp)) false fun d => ?_
  rw [State.sliceDone_body hp, if_neg (by tauto), if_neg Bool.false_ne_true, if_neg (by omega)]
  obtain ⟨st, e, h, k, hu, -⟩ := State.nvmPulse_eq _
  rw [hu]
  exact ⟨rfl, rfl, rfl, rfl⟩

/-- After the last pulse the operation fails, and its body is closed with FAILED (R308). -/
theorem sliceEnd_failed (hp : s.nvm.phase = .body) (he : j.kind ≠ .erase) (hk : j.kind ≠ .keyErase) (hn : 12 ≤ s.nvm.pulses + 1)
    (ha : j.after ≠ .journal) : Completes (.sliceEnd false) s (fun u =>
      u.nvm.res = NvmRes.verify.code ∧ u.nvm.status = 3 ∧ u.nvm.jobs = [j] ∧ Raises s u 0x20 (mid .nvm) 0) := by
  refine sliceEnd_completes hc hj hstop hb hh ht (.inr (.inl hp)) false fun d => ?_
  rw [State.sliceDone_body hp, if_neg (by tauto), if_neg Bool.false_ne_true, if_pos hn]
  obtain ⟨m, f, hm⟩ := s.pulsed.tear_eq (j.target + 32 * s.nvm.units) 32
  rw [hm]
  obtain ⟨hres, hstatus, hjobs, hraise⟩ := State.nvmFail_body (l := l) { s.pulsed with nvm := { s.pulsed.nvm with mem := m }, free := f }
    (j.target + 32 * s.nvm.units) hp ha
  exact ⟨hres, hstatus, hjobs, Raises.congr hraise rfl⟩

/-- The DONE record of the last job closes its intent, and the controller is idle (R312). -/
theorem sliceEnd_last (hp : s.nvm.phase = .done) (hl : l = []) (hi : s.nvm.intents.filter (fun i => i.seq ≠ s.nvm.cur) = []) :
    Completes (.sliceEnd true) s (fun u => u.nvm.st = .idle ∧ u.nvm.jobs = [] ∧ u.nvm.intents = [] ∧
      u.nvm.jpos = (s.nvm.jpos + 1) % s.member.nvmAt 2048) := by
  refine sliceEnd_completes hc hj hstop hb hh ht (.inr (.inr hp)) true fun d => ?_
  subst hl
  rw [State.sliceDone_done hp]
  obtain ⟨m, hm⟩ := s.pulsed.journalPut_eq true (s.pulsed.openIntent j)
  rw [hm]
  dsimp only [State.nvmBegin, State.pulsed]
  rw [hi]
  obtain ⟨d, st, z, hu, hst⟩ := State.nvmStop_eq _
  rw [hu]
  exact ⟨hst rfl, rfl, rfl, rfl⟩

end Slice

/-! ## Verifies, STEP, ABORT and stops -/

section Steps

variable {s : State} {j : NvmJob} {l : List NvmJob}

theorem State.nvmTick_check (hj : s.nvm.jobs = j :: l) (hb : s.nvm.st = .busy) (ht : s.nvm.sliceAt ≤ s.tick) (hp : s.nvm.phase = .check) :
    s.nvmTick = if s.blank j.target 4096 then s.bodyDone j
      else State.nvmPulse { s with nvm := { s.nvm with phase := .body } } := by
  have hn : ¬ (s.tick < s.nvm.sliceAt ∨ ¬ (s.nvm.st = .busy ∨ s.nvm.st = .recovering)) := by
    simp [BitVec.not_lt.2 ht, hb]
  unfold State.nvmTick
  rw [if_neg hn, hp, hj]

theorem State.nvmTick_image {b : Bank} (hj : s.nvm.jobs = j :: l) (hb : s.nvm.st = .busy) (ht : s.nvm.sliceAt ≤ s.tick)
    (hp : s.nvm.phase = .image b) : s.nvmTick = if s.imageOk b then s.nvmBegin
      else (State.nvmRes { s with nvm := { s.nvm with jobs := [], st := .idle } } .badImg).nvmNext := by
  have hn : ¬ (s.tick < s.nvm.sliceAt ∨ ¬ (s.nvm.st = .busy ∨ s.nvm.st = .recovering)) := by
    simp [BitVec.not_lt.2 ht, hb]
  unfold State.nvmTick
  rw [if_neg hn, hp, hj]

/-- A blank sector costs the first verify alone; the first pulse of another one follows it (R308). -/
theorem State.nvmTick_checked (hj : s.nvm.jobs = j :: l) (hb : s.nvm.st = .busy) (ht : s.nvm.sliceAt ≤ s.tick)
    (hp : s.nvm.phase = .check) :
    (s.blank j.target 4096 = true → j.after = .plain → s.nvmTick.nvm.phase = .done ∨ ∃ d, s.nvmTick.nvm.phase = .journalErase d) ∧
    (s.blank j.target 4096 = false → s.nvmTick.nvm.phase = .body ∧ s.nvmTick.nvm.mem = s.nvm.mem) := by
  rw [State.nvmTick_check hj hb ht hp]
  refine ⟨fun hbl ha => ?_, fun hbl => ?_⟩
  · rw [if_pos hbl]
    obtain ⟨z, i, ph, st, e, h, k, hd, hph⟩ := s.bodyDone_plain ha
    rw [hd]
    exact hph.symm.imp id fun h => ⟨true, h⟩
  · rw [if_neg (by simp [hbl])]
    obtain ⟨st, e, h, k, hu, -⟩ := State.nvmPulse_eq { s with nvm := { s.nvm with phase := .body } }
    rw [hu]
    exact ⟨rfl, rfl⟩

/-- An image that fails its check is refused (R319). -/
theorem State.nvmTick_badImage {b : Bank} (hj : s.nvm.jobs = j :: l) (hb : s.nvm.st = .busy) (ht : s.nvm.sliceAt ≤ s.tick)
    (hp : s.nvm.phase = .image b) (hi : s.imageOk b = false) : s.nvmTick.nvm.res = NvmRes.badImg.code ∧ s.nvmTick.nvm.st = .idle ∧
      s.nvmTick.nvm.jobs = [] ∧ s.nvmTick.nvm.mem = s.nvm.mem := by
  rw [State.nvmTick_image hj hb ht hp, if_neg (by simp [hi])]
  obtain ⟨d, st, hu, hst⟩ := State.nvmNext_st (State.nvmRes { s with nvm := { s.nvm with jobs := [], st := .idle } } .badImg)
  rw [hu]
  refine ⟨rfl, hst.elim id fun h => ?_, rfl, rfl⟩
  obtain ⟨hrec, -⟩ := h
  exact absurd hrec (by simp [State.nvmRes])

theorem State.clampedIf_eq (s : State) (m : Master) (k : Nat) (p : Prop) [Decidable p] : ∃ a b c d, (if p then s.clamped m k else s) =
    { s with clampLink := a, clampT := b, clampSlate := c, clampDma := d } := by
  split
  · unfold State.clamped
    split <;> exact ⟨_, _, _, _, rfl⟩
  · exact ⟨_, _, _, _, rfl⟩

/-- The link and threads alone command the controller (R327). -/
theorem State.nvmCmd_taken {m : Master} (hm : m = .link ∨ ∃ t, m = .thread t) (a : Nat) (f : State → State) : s.nvmCmd m a f = f s := by
  rcases hm with rfl | ⟨t, rfl⟩ <;> rfl

/-- STEP starts the pulse that waits, on the next tick, its length clamped (R311). -/
theorem nvmStep_starts (hc : s.clocked = true) {m : Master} (hm : m = .link ∨ ∃ t, m = .thread t) (w : Word)
    (hst : s.nvm.st = .stepWait) (hr : s.nvm.redo = false) : Completes (.nvmStep m w) s (fun u =>
      let k := max 1 (min (s.nvm.hwstep.toNat * 5 / 4) w.toNat)
      u.nvm = { s.nvm with
        st := .busy, held := s.flint.resetDue || (s.pow.k2due && decide (s.slate.st ≠ .committing)),
        sliceAt := s.tick + BitVec.ofNat 64 (1 + k + s.nvm.verifyTk) } ∧ u.fault = s.fault) := by
  refine ⟨_, by rw [exec_nvmStep, execNvmStep, State.act_on _ hc, State.nvmCmd_taken hm], ?_⟩
  unfold State.nvmStepWrite
  dsimp only
  rw [if_pos hst]
  obtain ⟨a, b, c, d, hu⟩ := s.clampedIf_eq m 1 (w.toNat < 1 ∨ s.nvm.hwstep.toNat * 5 / 4 < w.toNat)
  rw [hu]
  unfold State.nvmSlice
  dsimp only
  rw [hr]
  exact ⟨rfl, rfl⟩

/-- Outside STEP_WAIT nothing waits for STEP (R311; log entry 68). -/
theorem nvmStep_idle (hc : s.clocked = true) {m : Master} (hm : m = .link ∨ ∃ t, m = .thread t) (w : Word)
    (hst : s.nvm.st ≠ .stepWait) : exec (.nvmStep m w) s = .next s := by
  rw [exec_nvmStep, execNvmStep, State.act_on _ hc, State.nvmCmd_taken hm, State.nvmStepWrite, if_neg hst]

theorem exec_nvmAbortCmd_taken (hc : s.clocked = true) {m : Master} (hm : m = .link ∨ ∃ t, m = .thread t) :
    exec (.nvmAbortCmd m) s = .next s.nvmAbort := by
  rw [exec_nvmAbortCmd, execNvmAbortCmd, State.act_on _ hc, State.nvmCmd_taken hm]

/-- In a slice ABORT waits for its end; a DONE record that is being made says ABANDONED (R310). -/
theorem nvmAbort_slice (hc : s.clocked = true) (hj : s.nvm.jobs = j :: l) {m : Master} (hm : m = .link ∨ ∃ t, m = .thread t)
    (hb : s.nvm.st = .busy) (hh : s.nvm.held = false) (hp : s.nvm.phase = .intent ∨ s.nvm.phase = .body ∨ s.nvm.phase = .done) :
    exec (.nvmAbortCmd m) s = .next { s with nvm := { s.nvm with
      stopAfter := some NvmRes.aborted.code, status := if s.nvm.phase = .done then 2 else s.nvm.status } } := by
  have hcl : s.nvm.closing = decide (s.nvm.phase = .done) := by
    rcases hp with hp | hp | hp <;> simp [Nvm.closing, hp]
  rw [exec_nvmAbortCmd_taken hc hm, State.nvmAbort, if_neg (by simp [hj]), if_neg (by simp [State.slicing_of_busy hj hb hh hp]), hcl]
  simp only [decide_eq_true_eq]

/-- Where no slice is in progress the operation stops at once (R310). -/
theorem nvmAbort_stops (hc : s.clocked = true) (hj : s.nvm.jobs = j :: l) {m : Master} (hm : m = .link ∨ ∃ t, m = .thread t)
    (hs : s.slicing = false) : exec (.nvmAbortCmd m) s = .next (s.nvmStopAt NvmRes.aborted.code) := by
  rw [exec_nvmAbortCmd_taken hc hm, State.nvmAbort, if_neg (by simp [hj]), if_pos (by simp [hs])]

/-- Before its body an operation stops without a trace but its result (R310). -/
theorem State.nvmStopAt_intent (hj : s.nvm.jobs = j :: l) (ha : j.after ≠ .journal) (hp : s.nvm.phase = .intent) :
    (s.nvmStopAt NvmRes.aborted.code).nvm.res = NvmRes.aborted.code ∧ (s.nvmStopAt NvmRes.aborted.code).nvm.jobs = [] ∧
      (s.nvmStopAt NvmRes.aborted.code).nvm.mem = s.nvm.mem := by
  obtain ⟨z, hz⟩ := State.keyed_eq { s with nvm := { s.nvm with res := NvmRes.aborted.code, stopAfter := none } } 4
  unfold State.nvmStopAt
  rw [hj]
  dsimp only at hz ⊢
  rw [hz, if_neg (by decide), if_neg ha, if_neg (by simp [Nvm.closing, hp]), hp]
  obtain ⟨d, st, z', hu, -⟩ := State.nvmStop_eq _
  rw [hu]
  exact ⟨rfl, rfl, rfl⟩

/-- A body that is aborted leaves its target undefined, and its intent is closed with ABANDONED (R310). -/
theorem State.nvmStopAt_body (hj : s.nvm.jobs = j :: l) (ha : j.after ≠ .journal) (hp : s.nvm.phase = .body) :
    let u := s.nvmStopAt NvmRes.aborted.code
    u.nvm.res = NvmRes.aborted.code ∧ u.nvm.status = 2 ∧ u.nvm.jobs = [j] ∧ u.nvm.intents = s.nvm.intents ∧
      (u.nvm.phase = .done ∨ u.nvm.phase = .journalErase true) := by
  obtain ⟨z, hz⟩ := State.keyed_eq { s with nvm := { s.nvm with res := NvmRes.aborted.code, stopAfter := none } } 4
  unfold State.nvmStopAt
  rw [hj]
  dsimp only at hz ⊢
  rw [hz, if_neg (by decide), if_neg ha, if_neg (by simp [Nvm.closing, hp]), hp]
  dsimp only
  obtain ⟨m, k, ht⟩ := State.tearTarget_eq _ j
  rw [ht]
  obtain ⟨ph, st, e, h, k', hr, hph, -⟩ := State.nvmRecord_eq _ true
  rw [hr]
  exact ⟨rfl, rfl, rfl, rfl, hph.symm⟩

/-- A stop of HCK in the body keeps the intents (R310). -/
theorem State.nvmCut_body (hj : s.nvm.jobs = j :: l) (hp : s.nvm.phase = .body) (ha : j.after ≠ .journal) :
    (s.nvmCut false true).nvm.res = s.nvm.res ∧ (s.nvmCut false true).nvm.jobs = [] ∧
      (s.nvmCut false true).nvm.intents = s.nvm.intents := by
  have hcut : s.nvmCut false true = (if j.kind = .erase ∨ j.kind = .keyErase then s.tear j.target (s.eraseLen j.kind)
      else s.tear (j.target + 32 * s.nvm.units) 32).nvmStop := by
    unfold State.nvmCut
    -- the torn bytes are a long list: nothing below may unfold them
    generalize State.tear = tear
    rw [hj]
    dsimp only
    rw [if_neg (by simp), if_neg (by simp), hp]
    dsimp only
    rw [if_neg ha]
  obtain ⟨m, k, ht⟩ : ∃ m k, (if j.kind = .erase ∨ j.kind = .keyErase then s.tear j.target (s.eraseLen j.kind)
      else s.tear (j.target + 32 * s.nvm.units) 32) = { s with nvm := { s.nvm with mem := m }, free := k } := by
    split <;> exact State.tear_eq ..
  obtain ⟨d, st, z, hu, -⟩ := State.nvmStop_eq { s with nvm := { s.nvm with mem := m }, free := k }
  rw [hcut, ht, hu]
  exact ⟨rfl, rfl, rfl⟩

/-- A stop of HCK cuts the body, and its intent stays open (R18, R310). -/
theorem State.nvmResume_body (hj : s.nvm.jobs = j :: l) (hb : s.nvm.st = .busy) (hh : s.nvm.held = false) (hp : s.nvm.phase = .body)
    (ha : j.after ≠ .journal) :
    s.nvmResume.nvm.res = NvmRes.abortStill.code ∧ s.nvmResume.nvm.jobs = [] ∧ s.nvmResume.nvm.intents = s.nvm.intents := by
  have hstep : s.stepping = true := by simp [State.stepping, hj, hb, hh, hp]
  unfold State.nvmResume
  rw [if_pos (by simp [hstep]), hstep]
  obtain ⟨z, hz⟩ := (s.nvmRes .abortStill).keyed_eq 4
  dsimp only
  rw [hz]
  obtain ⟨d, f, hr⟩ := State.raiseBy_eq { s.nvmRes .abortStill with slate := z } 0x21 .nvm 0 (Config.abortKind 0) 0
  have hn : (State.raiseBy { s.nvmRes .abortStill with slate := z } 0x21 .nvm 0 (Config.abortKind 0) 0).nvm =
      { s.nvm with res := NvmRes.abortStill.code } := congrArg State.nvm hr
  generalize State.raiseBy { s.nvmRes .abortStill with slate := z } 0x21 .nvm 0 (Config.abortKind 0) 0 = u at hn ⊢
  obtain ⟨hres, hjobs, hint⟩ := State.nvmCut_body (s := u) (j := j) (l := l) (by rw [hn]; exact hj) (by rw [hn]; exact hp) ha
  rw [hres, hjobs, hint, hn]
  exact ⟨rfl, rfl, rfl⟩

end Steps

/-! ## The scan, recovery and the counters -/

theorem State.k4_of_clocked {s : State} (hc : s.clocked = true) : s.pow.k4 = false := by
  simp only [State.clocked, State.ticks, Bool.and_eq_true, Bool.not_eq_true'] at hc
  exact hc.1.2

theorem State.nvmTakes_recovery {s : State} (hf : s.nvmFit = true) (hj : s.nvm.jobs = []) (hk : s.pow.k4 = false)
    (hst : s.nvm.st = .recovering) : s.nvmTakes = s.owe 0 .intentRecovery := by
  unfold State.nvmTakes
  rw [if_neg (by simp [hf, hj, hk]), if_pos hst]

/-- The controller works on an open intent again (R313). -/
def State.reopens (s : State) (i : Intent) (job : NvmJob) (status : Byte) : State :=
  { s with nvm := { s.nvm with
    owner := i.mid, began := i.began, rate := s.rate, cur := i.seq, redo := true, steps := 0, units := 0, pulses := 0,
    stopAfter := none, jobs := [job], status := status } }

theorem State.recover_program {s : State} {i : Intent} {l : List Intent} (ht : s.nvm.jtorn = false) (hi : s.nvm.intents = i :: l)
    (hk : i.kind = .program) : s.recover =
      (let job : NvmJob := { kind := i.kind, target := i.target, data := s.flashBytes i.target i.len, after := i.after }
       let ok := decide (crc32cBytes (s.flashBytes i.target i.len) = i.dcrc)
       let u := s.reopens i job (if ok then 0 else 1)
       (if ok then u.applyIntent job else u.nvmTorn i).nvmRecord true) := by
  unfold State.recover
  rw [if_neg (by simp [ht]), hi]
  dsimp only
  rw [hk]
  rfl

/-- Of a plain intent nothing is done again but its mark. -/
theorem State.closes_plain (s : State) {i : Intent} {j : NvmJob} (hj : j.after = .plain) (hi : i.after = .plain) (ok : Bool) :
    ∃ l, (if ok then s.applyIntent j else s.nvmTorn i) = { s with nvm := { s.nvm with intents := l } } ∧
      l.map Intent.unapplied = s.nvm.intents.map Intent.unapplied := by
  split
  · exact s.applyIntent_plain hj
  · refine ⟨s.nvm.intents, ?_, rfl⟩
    unfold State.nvmTorn
    rw [hi]

/-- The controller behind the scan of its journal (R313). -/
def State.afterScan (s : State) : State :=
  { s with nvm := { s.nvm with
    scanned := true, st := if s.nvm.intents = [] ∧ s.nvm.jtorn = false then .idle else .recovering } }

section Recovery

variable {s : State} (hc : s.clocked = true)

include hc

/-- The scan ends idle, or the controller recovers what it found (R313). -/
theorem scanDone_ends (hst : s.nvm.st = .scan) : Completes .scanDone s (fun u =>
    u.nvm = { s.nvm with scanned := true, st := if s.nvm.intents = [] ∧ s.nvm.jtorn = false then .idle else .recovering } ∧
    (s.nvmFit = true → s.nvm.jobs = [] → s.nvm.intents ≠ [] → (s.tick, .intentRecovery) ∈ u.due)) := by
  have hrun : exec .scanDone s = .next (s.settle .scanDone).afterScan.nvmNext := by
    rw [exec_scanDone, execScanDone, State.act_on _ hc]
    dsimp only
    rw [if_pos (show (s.settle .scanDone).nvm.st = .scan from hst)]
    simp only [Bool.not_eq_true']
    rfl
  refine ⟨_, hrun, ?_, fun hf hj hi => ?_⟩
  · obtain ⟨d, st, hu, hstate⟩ := (s.settle .scanDone).afterScan.nvmNext_st
    rw [hu]
    rcases hstate with rfl | ⟨hrec, hi, hj, rfl⟩
    · rfl
    · exact absurd (hrec.symm.trans (if_pos ⟨hi, hj⟩)) (by decide)
  · have hopen : ¬ (s.settle .scanDone).afterScan.recovered := fun ⟨_, _, h, _⟩ => hi h
    rw [State.nvmNext_other hopen, State.nvmTakes_recovery (s := (s.settle .scanDone).afterScan) hf hj
      (State.k4_of_clocked hc) (if_neg fun h => hi h.1)]
    exact State.mem_owe.2 (.inr (by simp [State.afterScan]))

theorem scanDone_stray (hst : s.nvm.st ≠ .scan) : Completes .scanDone s (fun u => u = { s with due := u.due }) := by
  refine ⟨_, by rw [exec_scanDone, execScanDone, State.act_on _ hc], ?_⟩
  dsimp only
  rw [if_neg (show ¬ (s.settle .scanDone).nvm.st = .scan from hst)]
  exact State.settle_eq ..

theorem exec_intentRecovery_go (hst : s.nvm.st = .recovering) (hj : s.nvm.jobs = []) (hf : s.nvmFit = true) :
    exec .intentRecovery s = .next (s.settle .intentRecovery).recover := by
  rw [exec_intentRecovery, execIntentRecovery, State.act_on _ hc]
  exact congrArg _ (if_pos ⟨hst, hj, hf⟩)

/-- A torn sector of the journal is erased first, in the controller's own name (R314). -/
theorem intentRecovery_torn (hst : s.nvm.st = .recovering) (hj : s.nvm.jobs = []) (hf : s.nvmFit = true) (ht : s.nvm.jtorn = true) :
    Completes .intentRecovery s (fun u => u.nvm.owner = mid .nvm ∧ u.nvm.redo = true ∧ u.nvm.phase = .check ∧
      u.nvm.sliceAt = s.tick + 1024 ∧ u.nvm.intents = s.nvm.intents ∧
      u.nvm.jobs = [{ kind := .erase, target := s.journalNext, data := [], after := .journal }]) := by
  refine ⟨_, exec_intentRecovery_go hc hst hj hf, ?_⟩
  unfold State.recover
  rw [if_pos (show (s.settle .intentRecovery).nvm.jtorn = true from ht)]
  unfold State.journalClean
  obtain ⟨ph, st, e, h, k, hu, hk⟩ := State.bodyBegin_eq _ _
  rw [hu]
  obtain ⟨hph, he⟩ := hk rfl
  exact ⟨rfl, rfl, hph, he, rfl, rfl⟩

/-- The first open intent is closed under its own owner and SEQ, DONE where its data stand in the flash (R313). -/
theorem intentRecovery_program (hst : s.nvm.st = .recovering) (hj : s.nvm.jobs = []) (hf : s.nvmFit = true) {i : Intent} {l : List Intent}
    (ht : s.nvm.jtorn = false) (hi : s.nvm.intents = i :: l) (hk : i.kind = .program) (ha : i.after = .plain) :
    Completes .intentRecovery s (fun u =>
      u.nvm.owner = i.mid ∧ u.nvm.cur = i.seq ∧ u.nvm.redo = true ∧ u.nvm.mem = s.nvm.mem ∧
      u.nvm.intents.map (fun x => { x with applied := false }) = (i :: l).map (fun x => { x with applied := false }) ∧
      u.nvm.status = (if crc32cBytes (s.flashBytes i.target i.len) = i.dcrc then 0 else 1) ∧
      ∃ j, u.nvm.jobs = [j] ∧ j.target = i.target ∧ j.kind = i.kind) := by
  refine ⟨_, exec_intentRecovery_go hc hst hj hf, ?_⟩
  rw [State.recover_program (s := s.settle .intentRecovery) ht hi hk]
  dsimp only
  obtain ⟨x, hx, hmap⟩ := State.closes_plain (j := NvmJob.mk i.kind i.target ((s.settle .intentRecovery).flashBytes i.target i.len)
    i.after) _ ha ha _
  rw [hx]
  obtain ⟨ph, st, e, h, k, hr, -⟩ := State.nvmRecord_eq _ true
  rw [hr]
  refine ⟨rfl, rfl, rfl, rfl, hmap.trans (congrArg _ hi), ?_, _, rfl, rfl, rfl⟩
  exact if_congr (by simp; rfl) rfl rfl

theorem intentRecovery_unfit (hf : s.nvmFit = false) : Completes .intentRecovery s (fun u => u = { s with due := u.due }) := by
  refine ⟨_, by rw [exec_intentRecovery, execIntentRecovery, State.act_on _ hc], ?_⟩
  have hno : ¬ ((s.settle .intentRecovery).nvm.st = .recovering ∧ (s.settle .intentRecovery).nvm.jobs = [] ∧
      (s.settle .intentRecovery).nvmFit = true) := fun h => by
    obtain ⟨-, -, hfit⟩ := h
    exact Bool.false_ne_true (hf.symm.trans hfit)
  dsimp only
  rw [if_neg hno]
  exact State.settle_eq ..

/-- Context 0 starts in the boot ROM with phase 1 (R357). -/
theorem bootStart_go (hr : s.inRom 0 = true) (hb : s.pow.bootStep = 0) (hd : s.isDue .bootStart = true) :
    Completes .bootStart s (fun u => u = { s with due := u.due, pow := { s.pow with bootStep := 1, phase := 1, bootAt := none } }) := by
  refine ⟨_, by rw [exec_bootStart, execBootStart, State.act_on _ hc, if_pos ⟨hd, hr, hb⟩], ?_⟩
  rfl

theorem bootStart_early (hd : s.isDue .bootStart = false) : Completes .bootStart s (fun u => u = { s with due := u.due }) := by
  refine ⟨_, by rw [exec_bootStart, execBootStart, State.act_on _ hc, if_neg (by simp [hd])], ?_⟩
  exact State.settle_eq ..

end Recovery

/-- The lowest counter that waits comes first (R315, R317). -/
theorem counters_find {p : Fin 7 → Bool} {k : Fin 7} (hk : p k = true) (hlow : ∀ x : Fin 7, x < k → p x = false) :
    counters.find? p = some k := by
  have hsplit : ∀ k : Fin 7, counters = counters.take k.val ++ k :: counters.drop (k.val + 1) := by decide
  have hbelow : ∀ k : Fin 7, ∀ x ∈ counters.take k.val, x < k := by decide
  rw [List.find?_eq_some_iff_append]
  exact ⟨hk, _, _, hsplit k, fun x hx => by simp [hlow x (hbelow k x hx)]⟩

/-- An operation begins with the INTENT record of its first job (R308, R312). -/
theorem State.nvmStart_eq (s : State) (m : Master) (a : NvmJob) (js : List NvmJob) : ∃ z v, s.nvmStart m (a :: js) = { s with
      slate := z, nvm := v } ∧
    (v.st = .busy ∨ v.st = .stepWait) ∧ v.owner = mid m ∧ v.rcnt = s.nvm.rcnt ∧ v.cpend = s.nvm.cpend ∧ v.jobs = a :: js := by
  unfold State.nvmStart State.nvmBegin
  dsimp only
  obtain ⟨ph, st, e, h, k, hr, -, hst⟩ := State.nvmRecord_eq _ false
  rw [hr]
  exact ⟨_, _, rfl, hst.symm, rfl, rfl, rfl, rfl⟩

section Counters

variable {s : State} (hc : s.clocked = true)

include hc

theorem exec_counterIncrement_go (hst : s.nvm.st = .idle) (hf : s.nvmFit = true) {k : Fin 7} (hk : s.counterPend k = true)
    (hlow : ∀ x : Fin 7, x < k → s.counterPend x = false) {js : List NvmJob} {p : Nat} (hj : s.counterJobs k = (js, p)) :
    exec .counterIncrement s = .next { (s.settle .counterIncrement).nvmStart .nvm js with
      nvm := { ((s.settle .counterIncrement).nvmStart .nvm js).nvm with cpos := p } } := by
  have hfind : counters.find? (fun k => (s.settle .counterIncrement).counterPend k) = some k :=
    counters_find (p := fun k => s.counterPend k) hk hlow
  have hj' : (s.settle .counterIncrement).counterJobs k = (js, p) := hj
  have hgo : (s.settle .counterIncrement).nvm.st = .idle ∧ (s.settle .counterIncrement).nvmFit = true := ⟨hst, hf⟩
  rw [exec_counterIncrement, execCounterIncrement, State.act_on _ hc]
  dsimp only
  rw [if_pos hgo, hfind]
  dsimp only
  rw [hj']

/-- The controller programs the counter's record in its own name; the increment waits until it is done (R316, R317). -/
theorem counterIncrement_record (hst : s.nvm.st = .idle) (hf : s.nvmFit = true) {k : Fin 7} (hk : s.counterPend k = true)
    (hlow : ∀ x : Fin 7, x < k → s.counterPend x = false) (hp : s.nvm.cpos % 128 ≠ 0) : Completes .counterIncrement s (fun u =>
      (u.nvm.st = .busy ∨ u.nvm.st = .stepWait) ∧ u.nvm.owner = mid .nvm ∧ u.nvm.rcnt = s.nvm.rcnt ∧ u.counterPend k = true ∧
      ∃ j, u.nvm.jobs = [j] ∧ j.after = .count k ∧ j.target = s.member.nvmAt 0x1C_0000 + 32 * s.nvm.cpos) := by
  obtain ⟨j, p, hj, ha, ht⟩ : ∃ j p, s.counterJobs k = ([j], p) ∧ j.after = .count k ∧
      j.target = s.member.nvmAt 0x1C_0000 + 32 * s.nvm.cpos := by
    unfold State.counterJobs
    dsimp only
    rw [if_neg fun h => hp h.1]
    exact ⟨_, _, rfl, rfl, rfl⟩
  obtain ⟨z, v, hu, hstate, howner, hrcnt, hcpend, hjobs⟩ := (s.settle .counterIncrement).nvmStart_eq .nvm j []
  refine ⟨_, exec_counterIncrement_go hc hst hf hk hlow hj, ?_⟩
  rw [hu]
  refine ⟨hstate, howner, hrcnt, ?_, j, hjobs, ha, ht⟩
  unfold State.counterPend at hk ⊢
  dsimp only
  rw [hcpend]
  exact hk

/-- Where a sector has filled, a snapshot goes in front, and the oldest sector is erased behind it (R316). -/
theorem counterIncrement_snapshot (hst : s.nvm.st = .idle) (hf : s.nvmFit = true) {k : Fin 7} (hk : s.counterPend k = true)
    (hlow : ∀ x : Fin 7, x < k → s.counterPend x = false) (hp : s.nvm.cpos % 128 = 0)
    (hb : s.blank (s.member.nvmAt 0x1C_0000 + 32 * ((s.nvm.cpos + s.member.nvmAt 2048 - 1) % s.member.nvmAt 2048)) 32 = false) :
    Completes .counterIncrement s (fun u => ∃ a b c d, u.nvm.jobs = [a, b, c, d] ∧
      a.target = s.member.nvmAt 0x1C_0000 + 32 * s.nvm.cpos ∧ b.target = a.target + 32 ∧ c.target = a.target + 64 ∧ c.after = .count k ∧
      d.kind = .erase ∧ d.target = s.member.nvmAt 0x1C_0000 + 4096 * ((s.nvm.cpos / 128 + 1) % s.member.nvmAt 16)) := by
  obtain ⟨a, b, c, d, p, hj, hprop⟩ : ∃ a b c d p, s.counterJobs k = ([a, b, c, d], p) ∧
      a.target = s.member.nvmAt 0x1C_0000 + 32 * s.nvm.cpos ∧ b.target = a.target + 32 ∧ c.target = a.target + 64 ∧ c.after = .count k ∧
      d.kind = .erase ∧ d.target = s.member.nvmAt 0x1C_0000 + 4096 * ((s.nvm.cpos / 128 + 1) % s.member.nvmAt 16) := by
    unfold State.counterJobs
    dsimp only
    rw [if_pos ⟨hp, by simp [hb]⟩]
    exact ⟨_, _, _, _, _, rfl, rfl, by dsimp only; omega, by dsimp only; omega, rfl, rfl, rfl⟩
  obtain ⟨z, v, hu, -, -, -, -, hjobs⟩ := (s.settle .counterIncrement).nvmStart_eq .nvm a [b, c, d]
  refine ⟨_, exec_counterIncrement_go hc hst hf hk hlow hj, ?_⟩
  rw [hu]
  exact ⟨a, b, c, d, hjobs, hprop⟩

/-- Nothing happens where no increment waits, or where the controller or the device does not allow it (R317). -/
theorem counterIncrement_none (h : (∀ k : Fin 7, s.counterPend k = false) ∨ s.nvm.st ≠ .idle ∨ s.nvmFit = false) :
    Completes .counterIncrement s (fun u => u = { s with due := u.due }) := by
  refine ⟨s.settle .counterIncrement, ?_, State.settle_eq ..⟩
  rw [exec_counterIncrement, execCounterIncrement, State.act_on _ hc]
  dsimp only
  by_cases hgo : s.nvm.st = .idle ∧ s.nvmFit = true
  · have hnone : counters.find? (fun k => (s.settle .counterIncrement).counterPend k) = none := by
      rcases h with h | h | h
      · exact List.find?_eq_none.2 fun x _ => Bool.eq_false_iff.1 (h x)
      · exact absurd hgo.1 h
      · exact absurd hgo.2 (by simp [h])
    rw [if_pos (show (s.settle .counterIncrement).nvm.st = .idle ∧ (s.settle .counterIncrement).nvmFit = true from hgo), hnone]
  · rw [if_neg (show ¬ ((s.settle .counterIncrement).nvm.st = .idle ∧ (s.settle .counterIncrement).nvmFit = true) from hgo)]

end Counters

/-! ## O58 -/

/-- Settles O58: the engine's steps, each from its own lemma above. -/
theorem nvmSlicesAndRecovery : Obligations.NvmSlicesAndRecovery := by
  unfold Obligations.NvmSlicesAndRecovery
  refine ⟨fun s j l hj hc hstop => ⟨fun hb hh ht => ⟨?_, ?_, ?_, ?_, ?_, ?_⟩, fun v ht => exec_sliceEnd_early ht v,
    fun hb ht => ⟨?_, ?_, ?_⟩, fun m w hm => ⟨?_, ?_, ?_, ?_, ?_⟩, ?_⟩, fun s hc => ⟨scanDone_ends hc, scanDone_stray hc,
    fun hst hj hf => ⟨intentRecovery_torn hc hst hj hf, fun i l ht hi hk ha => intentRecovery_program hc hst hj hf ht hi hk ha⟩,
    intentRecovery_unfit hc, fun k hst hf hk hlow => counterIncrement_record hc hst hf hk hlow,
    fun k hst hf hk hlow => counterIncrement_snapshot hc hst hf hk hlow, counterIncrement_none hc, bootStart_go hc, bootStart_early hc⟩⟩
  · exact sliceEnd_intent hc hj hstop hb hh ht
  · exact sliceEnd_unit hc hj hstop hb hh ht
  · exact sliceEnd_erase hc hj hstop hb hh ht
  · exact sliceEnd_again hc hj hstop hb hh ht
  · exact sliceEnd_failed hc hj hstop hb hh ht
  · exact sliceEnd_last hc hj hstop hb hh ht
  · exact fun hp => (State.nvmTick_checked hj hb ht hp).1
  · exact fun hp => (State.nvmTick_checked hj hb ht hp).2
  · exact fun b hp => State.nvmTick_badImage hj hb ht hp
  · exact nvmStep_starts hc hm w
  · exact nvmStep_idle hc hm w
  · exact nvmAbort_slice hc hj hm
  · intro hst ha hp
    exact ⟨_, nvmAbort_stops hc hj hm (State.slicing_of_wait hst), State.nvmStopAt_intent hj ha hp⟩
  · intro hst ha hp
    exact ⟨_, nvmAbort_stops hc hj hm (State.slicing_of_wait hst), State.nvmStopAt_body hj ha hp⟩
  · exact State.nvmResume_body hj

/-! ## The output stage follows its demands -/

section Driven

variable {s u : State} {n : IslandNo}

/-- What the demands of R147 and R174 give does not depend on what the stage drives. -/
theorem Island.undriven_digTarget (i : Island) : i.undriven.digTarget = i.digTarget := (rfl)
theorem Island.undriven_pers (i : Island) : i.undriven.pers = i.pers := (rfl)
theorem Island.undriven_safe (i : Island) : i.undriven.safe = i.safe := (rfl)

theorem State.driven_digTarget (h : u.beside Island.undriven n = s.beside Island.undriven n) : u.isl[n].digTarget = s.isl[n].digTarget := by
  rw [← Island.undriven_digTarget, State.beside_same h, Island.undriven_digTarget]
theorem State.driven_pers (h : u.beside Island.undriven n = s.beside Island.undriven n) : u.isl[n].pers = s.isl[n].pers := by
  rw [← Island.undriven_pers, State.beside_same h, Island.undriven_pers]
theorem State.driven_safe (h : u.beside Island.undriven n = s.beside Island.undriven n) : u.isl[n].safe = s.isl[n].safe := by
  rw [← Island.undriven_safe, State.beside_same h, Island.undriven_safe]

theorem State.beside_aoTarget (s : State) (n : IslandNo) : (s.beside Island.undriven n).aoTarget n = s.aoTarget n := by
  have hi : (s.beside Island.undriven n).isl[n] = s.isl[n].undriven := by simp [State.beside]
  unfold State.aoTarget State.aoBase State.aoPlain State.almHigh
  rw [hi]
  rfl

theorem State.driven_aoTarget (h : u.beside Island.undriven n = s.beside Island.undriven n) : u.aoTarget n = s.aoTarget n := by
  rw [← State.beside_aoTarget, h, State.beside_aoTarget]

/-- The switch stands as it was last set; its periods are as they were. -/
theorem State.setSwitch_dout (s : State) (n : IslandNo) (b : Bool) : (s.setSwitch n b).isl[n].dout.sw = b ∧
    (s.setSwitch n b).isl[n].dout.run = s.isl[n].dout.run ∧ (s.setSwitch n b).isl[n].dout.duty = s.isl[n].dout.duty := by
  unfold State.setSwitch
  dsimp only
  split
  · rename_i h
    exact ⟨h, rfl, rfl⟩
  · split
    · rename_i hb
      rw [State.owe_eq]
      simp [hb, State.cancel]
    · rename_i hb
      simp [hb]

theorem State.pwmStop_dout (s : State) (n : IslandNo) : (s.pwmStop n).isl[n].dout.sw = false ∧ (s.pwmStop n).isl[n].dout.run = false := by
  obtain ⟨hsw, hrun, -⟩ := State.setSwitch_dout (((s.cancel (.pwmPeriodStart n)).cancel (.pwmPhaseEnd n)).modIsl n (fun i =>
    { i with dout := { i.dout with run := false, duty := 0 } })) n false
  exact ⟨hsw, hrun.trans (by simp)⟩

theorem State.pwmStart_dout (s : State) (n : IslandNo) : (s.pwmStart n).isl[n].dout.run = true ∧
    (s.pwmStart n).isl[n].dout.duty = s.isl[n].digTarget := by
  unfold State.pwmStart
  extract_lets i d p k u v w
  have hw : w.isl[n].dout.run = true ∧ w.isl[n].dout.duty = d := by
    obtain ⟨-, hrun, hduty⟩ := v.setSwitch_dout n (decide (k ≠ 0))
    unfold w
    rw [State.owe_eq]
    exact ⟨hrun.trans (by simp [v]), hduty.trans (by simp [v])⟩
  clear_value w
  split
  · exact hw
  · rw [State.owe_eq]
    exact hw

theorem Pers.digOut_of_anaOut {p : Pers} (h : p.anaOut = true) : p.digOut = false := by
  revert h
  cases p <;> decide

/-- An output stage that has followed its demands drives what they give (R147, R174). -/
theorem State.outputs_follows (s : State) (n : IslandNo) (later : Bool) : Follows (s.outputs n later) n := by
  have hb := s.outputs_beside n later
  refine ⟨fun hp => ?_, fun hp => ?_⟩
  · rw [State.driven_pers hb] at hp
    rw [State.driven_digTarget hb]
    have hu : s.outputs n later = s.setSwitch n (decide (s.isl[n].digTarget ≠ 0)) := by
      unfold State.outputs State.digOutputs
      simp only [hp, Pers.digOut, if_true]
      rfl
    rw [hu]
    exact (s.setSwitch_dout n _).1
  · rw [State.driven_pers hb] at hp
    have hu : s.outputs n later = s.anaOutputs n := by
      unfold State.outputs
      dsimp only
      rw [if_neg (by rw [Pers.digOut_of_anaOut hp]; decide), if_pos hp]
    rw [hu]
    rw [← hu, State.driven_aoTarget hb, hu]
    unfold State.anaOutputs
    dsimp only
    split
    · rename_i h
      exact h.symm
    · rw [State.modIsl_same]

end Driven

/-! ## VMICA -/

/-- The rows of every island that are taken off the calendar in turn. -/
theorem foldl_cancel_due (f : IslandNo → Instr) (s : State) : ∃ d, islands.foldl (fun (s : State) n => s.cancel (f n)) s = { s with due := d } ∧
    ∀ e ∈ d, e ∈ s.due ∧ ∀ n : IslandNo, e.2 ≠ f n := by
  obtain ⟨d, hd⟩ := foldl_due islands (fun (s : State) n => s.cancel (f n)) (fun s n => ⟨_, rfl⟩) s
  have hsub : ∀ e ∈ (islands.foldl (fun (s : State) n => s.cancel (f n)) s).due, e ∈ s.due :=
    foldl_islands_keep (P := fun u => ∀ e ∈ u.due, e ∈ s.due) (fun _ h => h) fun v k hv e he => hv e ((v.cancel_due _ e).1 he).1
  have hgone (n : IslandNo) : ∀ e ∈ (islands.foldl (fun (s : State) n => s.cancel (f n)) s).due, e.2 ≠ f n :=
    foldl_islands (Before := fun _ => True) (After := fun u => ∀ e ∈ u.due, e.2 ≠ f n) n trivial (fun _ _ _ _ => trivial)
      (fun v _ e he => ((v.cancel_due _ e).1 he).2) fun v k _ hv e he => hv e ((v.cancel_due _ e).1 he).1
  refine ⟨d, hd, fun e he => ?_⟩
  have he' : e ∈ (islands.foldl (fun (s : State) n => s.cancel (f n)) s).due := hd ▸ he
  exact ⟨hsub e he', fun n => hgone n e he'⟩

/-- A loss of VMICA cancels the waits of an earlier return (R352). -/
theorem vmicaUndervoltage_cancels (s : State) (n : IslandNo) : Completes .vmicaUndervoltage s (fun u =>
    u = { s with due := u.due, pow := { s.pow with vmicaOk := false } } ∧ ∀ e ∈ u.due, e ∈ s.due ∧ e.2 ≠ .vmicaHoldEnd n ∧
      e.2 ≠ .vmicaReturn) := by
  refine ⟨_, rfl, ?_⟩
  obtain ⟨d, hd, hdue⟩ := foldl_cancel_due (fun n => .vmicaHoldEnd n)
    ((s.cancel .vmicaReturn).modPow (fun p => { p with vmicaOk := false }))
  rw [hd]
  refine ⟨rfl, fun e he => ?_⟩
  obtain ⟨hmem, hne⟩ := hdue e he
  obtain ⟨hold, hret⟩ := (s.cancel_due _ e).1 hmem
  exact ⟨hold, hne n, hret⟩

/-- In a stop the return waits for the next edge (R16, R352). -/
theorem vmicaReturn_stopped {s : State} (hh : s.pow.hck = false) (hk : s.pow.k4 = false) (hd : s.pow.deferral = false) :
    Completes .vmicaReturn s (fun u =>
      u = { s with due := u.due, pow := { s.pow with vmicaOk := true } } ∧ (s.tick + 1, .vmicaReturn) ∈ u.due) := by
  have hrun : exec .vmicaReturn s = .next ((s.modPow (fun p => { p with vmicaOk := true })).owe 1 .vmicaReturn) := by
    rw [exec_vmicaReturn, execVmicaReturn, State.taken, if_neg, if_neg]
    · simp [State.modPow, hk, hd]
    · simp [State.clocked, State.ticks, State.modPow, hh]
  refine ⟨_, hrun, ?_, State.mem_owe_self ..⟩
  rw [State.owe_eq]
  rfl

theorem State.recapture_noCarrier (s : State) (n : IslandNo) : (s.recapture n).isl[n].safe.noCarrier = s.isl[n].safe.noCarrier := by
  unfold State.recapture
  split
  · rw [State.modIsl_same]
  · rfl

/-- A change of demands sets whether the carrier is gone as it says. -/
theorem State.demands_noCarrier (s : State) (n : IslandNo) (f : Island → Island) :
    (s.demands n f).isl[n].safe.noCarrier = (f s.isl[n]).safe.noCarrier := by
  unfold State.demands
  extract_lets i j0 _ j1 j2 j3 _ _ j4
  rw [State.driven_safe (State.outputs_beside ..), State.recapture_noCarrier, State.modIsl_same]
  have h1 : j1.safe.noCarrier = j0.safe.noCarrier := by unfold j1; split <;> rfl
  have h2 : j2.safe.noCarrier = j1.safe.noCarrier := by unfold j2; split <;> rfl
  have h3 : j3.safe.noCarrier = j2.safe.noCarrier := by unfold j3; split <;> rfl
  have h4 : j4.safe.noCarrier = j3.safe.noCarrier := by unfold j4; split <;> rfl
  rw [h4, h3, h2, h1]

theorem State.demands_follows (s : State) (n : IslandNo) (f : Island → Island) : Follows (s.demands n f) n := State.outputs_follows ..

section HoldEnd

variable {s : State} {n : IslandNo} (hc : s.clocked = true) (hd : s.isDue (.vmicaHoldEnd n) = true)

include hc hd

/-- Behind the 8192 ticks the outputs follow what is demanded without the carrier's safe state (R352). -/
theorem vmicaHoldEnd_ends (hok : s.pow.vmicaOk = true) (hr : s.running n = true) (hcv : s.isl[n].cvOk = true)
    (hno : s.isl[n].safe.noCarrier = true) : Completes (.vmicaHoldEnd n) s (fun u =>
      u.isl[n].safe.noCarrier = false ∧ Follows u n ∧ ∀ k, k ≠ n → u.isl[k] = s.isl[k]) := by
  have hgo : (s.settle (.vmicaHoldEnd n)).pow.vmicaOk ∧ (s.settle (.vmicaHoldEnd n)).running n ∧ (s.settle (.vmicaHoldEnd n)).isl[n].cvOk ∧
      (s.settle (.vmicaHoldEnd n)).isl[n].safe.noCarrier := ⟨hok, hr, hcv, hno⟩
  refine ⟨_, by rw [exec_vmicaHoldEnd, execVmicaHoldEnd, State.timed, State.act_on _ hc, if_pos hd, if_pos hgo],
    State.demands_noCarrier .., State.demands_follows .., fun k hk => ?_⟩
  exact State.beside_other (State.demands_beside (s.settle (.vmicaHoldEnd n)) n
    (fun i => { i with safe := { i.safe with noCarrier := false } }) fun _ => rfl) hk

theorem vmicaHoldEnd_lost (hno : s.pow.vmicaOk = false ∨ s.isl[n].cvOk = false) :
    Completes (.vmicaHoldEnd n) s (fun u => u = { s with due := u.due }) := by
  have hstop : ¬ ((s.settle (.vmicaHoldEnd n)).pow.vmicaOk ∧ (s.settle (.vmicaHoldEnd n)).running n ∧
      (s.settle (.vmicaHoldEnd n)).isl[n].cvOk ∧ (s.settle (.vmicaHoldEnd n)).isl[n].safe.noCarrier) := fun ⟨hok, _, hcv, _⟩ =>
    hno.elim (fun h => Bool.false_ne_true (h.symm.trans hok)) fun h => Bool.false_ne_true (h.symm.trans hcv)
  refine ⟨_, by rw [exec_vmicaHoldEnd, execVmicaHoldEnd, State.timed, State.act_on _ hc, if_pos hd, if_neg hstop], State.settle_eq ..⟩

end HoldEnd

theorem vmicaHoldEnd_early {s : State} {n : IslandNo} (hd : s.isDue (.vmicaHoldEnd n) = false) : exec (.vmicaHoldEnd n) s = .next s := by
  simp [execVmicaHoldEnd, State.timed, State.act, hd]

/-! ## HCK -/

theorem hckResume_runs {s : State} (h : s.pow.hck = false) : Completes .hckResume s (fun u =>
    u = { s with
      due := u.due, pow := { s.pow with hck := true, resumeAt := if s.pow.k4 then s.pow.resumeAt else some (s.tick + 1) } } ∧
    (s.tick + 32, .integratorDischarged) ∈ u.due) := by
  refine ⟨_, by rw [exec_hckResume, execHckResume, if_neg (by simp [h])], ?_⟩
  dsimp only
  have hmem := State.mem_owe_self (s.modPow (fun p => { p with hck := true })) 32 .integratorDischarged
  rw [State.owe_eq]
  generalize ((s.modPow (fun p => { p with hck := true })).owe 32 .integratorDischarged).due = d at hmem ⊢
  split
  · rename_i hk
    refine ⟨?_, hmem⟩
    rw [if_pos (show s.pow.k4 = true from hk)]
    rfl
  · rename_i hk
    refine ⟨?_, hmem⟩
    rw [if_neg (show ¬ s.pow.k4 = true from hk)]
    rfl

theorem hckResume_noop {s : State} (h : s.pow.hck = true) : exec .hckResume s = .next s := by
  simp [execHckResume, h]

/-! ## What the arbiter leaves

An admission, a grant of the reserve and a RUNG cell change the ledger side of islands and clamp counters. What lies beside them is a state
with these parts blanked. -/

/-- The island without its grains, its rungs as admitted, its charging and the cells that go to it. -/
def Island.unled (i : Island) : Island :=
  { i with charging := false, waitCharge := false, rsv := 0, led := Ledger.reset, winMax := 0, down := [], wrun := none }

/-- The state without what the arbiter changes. -/
def State.unled (s : State) : State :=
  { s with isl := s.isl.map Island.unled, clampLink := 0, clampT := Vector.replicate 8 0, clampSlate := 0, clampDma := 0 }

theorem Island.unled_eq (i : Island) : i.unled =
    { i with charging := false, waitCharge := false, rsv := 0, led := Ledger.reset, winMax := 0, down := [], wrun := none } := (rfl)

theorem State.unled_modIsl (s : State) (n : IslandNo) (f : Island → Island) (h : ∀ i, (f i).unled = i.unled) :
    (s.modIsl n f).unled = s.unled := by
  have hv : (s.modIsl n f).isl.map Island.unled = s.isl.map Island.unled := by
    ext k hk
    by_cases hn : n.val = k
    · subst hn
      simp [State.modIsl, h]
    · simp [State.modIsl, hn]
  unfold State.unled
  rw [hv]
  rfl

theorem State.unled_isl {s u : State} (h : u.unled = s.unled) (n : IslandNo) : u.isl[n].unled = s.isl[n].unled := by
  have hi := congrArg (fun v : State => v.isl[n]) h
  simpa [State.unled] using hi

section Unled

variable {s u : State} (h : u.unled = s.unled)

include h

theorem State.unled_due : u.due = s.due := (congrArg State.due h :)
theorem State.unled_pow : u.pow = s.pow := (congrArg State.pow h :)
theorem State.unled_tick : u.tick = s.tick := (congrArg State.tick h :)
theorem State.unled_member : u.member = s.member := (congrArg State.member h :)
theorem State.unled_cfg : u.cfg = s.cfg := (congrArg State.cfg h :)
theorem State.unled_ledq : u.ledq = s.ledq := (congrArg State.ledq h :)
theorem State.unled_power (n : IslandNo) : u.isl[n].power = s.isl[n].power := (congrArg Island.power (State.unled_isl h n) :)
theorem State.unled_safe (n : IslandNo) : u.isl[n].safe = s.isl[n].safe := (congrArg Island.safe (State.unled_isl h n) :)

end Unled

@[simp] theorem State.unled_ite (p : Prop) [Decidable p] (s u : State) : (if p then s else u).unled = if p then s.unled else u.unled :=
  apply_ite State.unled p s u

theorem State.unled_foldl {β : Type} (l : List β) (f : State → β → State) (s : State) (hf : ∀ s b, (f s b).unled = s.unled) :
    (l.foldl f s).unled = s.unled := by
  induction l generalizing s with
  | nil => rfl
  | cons b l ih => exact (ih (f s b)).trans (hf s b)

@[simp] theorem State.clamped_unled (s : State) (m : Master) (k : Nat) : (s.clamped m k).unled = s.unled := by
  unfold State.clamped
  split <;> rfl
@[simp] theorem State.fitRsv_unled (s : State) (n : IslandNo) : (s.fitRsv n).unled = s.unled := s.unled_modIsl n _ fun _ => rfl
@[simp] theorem State.charge_unled (s : State) (n : IslandNo) (g : Nat) : (s.charge n g).unled = s.unled := by
  rw [State.charge, State.fitRsv_unled]
  exact s.unled_modIsl n _ fun _ => rfl
@[simp] theorem State.sendFrom_unled (s : State) (t : Tick) (n : IslandNo) (m : Master) (d : DownData) (a : Word) (x : BitVec 19) :
    (s.sendFrom t n m d a x).unled = s.unled := s.unled_modIsl n _ fun _ => rfl
@[simp] theorem State.sendRung_unled (s : State) (n : IslandNo) : (s.sendRung n).unled = s.unled := by
  simp [State.sendRung, State.unled_modIsl, Island.unled_eq]
@[simp] theorem State.sendRungs_unled (s : State) : s.sendRungs.unled = s.unled := State.unled_foldl _ _ s State.sendRung_unled
@[simp] theorem State.admitWithin_unled (s : State) (n : IslandNo) (m : Master) (k : Nat) : (s.admitWithin n m k).unled = s.unled := by
  simp [State.admitWithin, State.unled_modIsl, Island.unled_eq]
@[simp] theorem State.admitRungs_unled (s : State) (n : IslandNo) (m : Master) : (s.admitRungs n m).unled = s.unled := by
  simp [State.admitRungs]
@[simp] theorem State.readmitAll_unled (s : State) (m : Master) : (s.readmitAll m).unled = s.unled :=
  State.unled_foldl _ _ s fun u n => u.admitRungs_unled n m
@[simp] theorem State.unparkAll_unled (s : State) (m : Master) : (s.unparkAll m).unled = s.unled :=
  State.unled_foldl _ _ s fun u n => u.admitRungs_unled n m
@[simp] theorem State.setRequest_unled (s : State) (n : IslandNo) (w : Word) (m : Master) : (s.setRequest n w m).unled = s.unled := by
  simp [State.setRequest, State.unled_modIsl, Island.unled_eq]
@[simp] theorem State.grantCharge_unled (s : State) : s.grantCharge.unled = s.unled :=
  State.unled_foldl _ _ s fun u n => by simp [State.unled_modIsl, Island.unled_eq]

/-! ## The return of VMICA -/

/-- An island on reservoir energy asks for a charging place, and where V_CV stands its 4096 itk begin (R352). -/
def State.carrierBack (s : State) (n : IslandNo) : State :=
  if s.running n && s.isl[n].safe.noCarrier then
    let s := if s.isl[n].charging then s else s.modIsl n (fun i => { i with waitCharge := true })
    if s.isl[n].cvOk then (s.cancel (.vmicaHoldEnd n)).owe (8192 + s.itk) (.vmicaHoldEnd n) else s
  else s

/-- What a return of VMICA leaves: a state that has the same islands, but for the ledger's side, and another calendar. -/
def State.undue (s : State) : State := { s.unled with due := [] }

theorem State.carrierBack_undue (s : State) (n : IslandNo) : (s.carrierBack n).undue = s.undue := by
  unfold State.carrierBack
  split
  · extract_lets u
    have hu : u.unled = s.unled := by
      unfold u
      split
      · rfl
      · exact s.unled_modIsl n _ fun _ => rfl
    clear_value u
    have hs : u.undue = s.undue := by rw [State.undue, hu, State.undue]
    split
    · rw [State.owe_eq]
      exact hs
    · exact hs
  · rfl

/-- A row that is owed to island n stays owed while other islands take their turn. -/
theorem State.carrierBack_keeps (s : State) {n k : IslandNo} (hk : k ≠ n) {t : Tick} (h : (t, .vmicaHoldEnd n) ∈ s.due) :
    (t, .vmicaHoldEnd n) ∈ (s.carrierBack k).due := by
  unfold State.carrierBack
  split
  · extract_lets u
    have hu : u.due = s.due := by
      unfold u
      split <;> rfl
    clear_value u
    split
    · refine State.mem_owe.2 (.inl ((u.cancel_due _ _).2 ⟨hu ▸ h, fun e => hk ?_⟩))
      injection e with e
      exact e.symm
    · exact hu ▸ h
  · exact h

theorem State.carrierBack_owes {s : State} {n : IslandNo} (hr : s.running n = true) (hno : s.isl[n].safe.noCarrier = true)
    (hcv : s.isl[n].cvOk = true) : (s.tick + BitVec.ofNat 64 (8192 + s.itk), .vmicaHoldEnd n) ∈ (s.carrierBack n).due := by
  unfold State.carrierBack
  rw [if_pos (Bool.and_eq_true_iff.2 ⟨hr, hno⟩)]
  extract_lets u
  have hu : ∃ i, u = { s with isl := i } ∧ i[n].cvOk = true := by
    unfold u
    split
    · exact ⟨s.isl, rfl, hcv⟩
    · exact ⟨_, rfl, by simpa using hcv⟩
  obtain ⟨i, hu, hi⟩ := hu
  clear_value u
  subst hu
  rw [if_pos hi]
  exact State.mem_owe_self ..

theorem State.undue_view {s u : State} (h : u.undue = s.undue) : u.pow = s.pow ∧ u.tick = s.tick ∧ ∀ n : IslandNo, u.isl[n].unled = s.isl[n].unled := by
  refine ⟨(congrArg State.pow h :), (congrArg State.tick h :), fun n => ?_⟩
  have hi := congrArg (fun v : State => v.isl[n]) h
  simpa [State.undue, State.unled] using hi

/-- Behind every island's turn the row of island n is owed, and what lies beside the ledger and the calendar is as it was. -/
theorem State.carrierBack_all {s : State} {n : IslandNo} (hr : s.running n = true) (hno : s.isl[n].safe.noCarrier = true)
    (hcv : s.isl[n].cvOk = true) : (islands.foldl (fun (s : State) n => s.carrierBack n) s).undue = s.undue ∧
      (s.tick + BitVec.ofNat 64 (8192 + s.itk), .vmicaHoldEnd n) ∈ (islands.foldl (fun (s : State) n => s.carrierBack n) s).due := by
  refine ⟨foldl_islands_keep (P := fun v => v.undue = s.undue) rfl fun v k hv => (v.carrierBack_undue k).trans hv, ?_⟩
  refine foldl_islands (Before := fun v => v.undue = s.undue) (After := fun v => (s.tick + BitVec.ofNat 64 (8192 + s.itk),
    .vmicaHoldEnd n) ∈ v.due) n rfl (fun v k _ hv => (v.carrierBack_undue k).trans hv) (fun v hv => ?_)
    fun v k hk hv => v.carrierBack_keeps hk hv
  obtain ⟨hpow, htick, hi⟩ := State.undue_view hv
  have hitk : v.itk = s.itk := by unfold State.itk; rw [hpow, htick]
  rw [← htick, ← hitk]
  refine State.carrierBack_owes ?_ ((congrArg (fun i : Island => i.safe.noCarrier) (hi n) :).trans hno)
    ((congrArg Island.cvOk (hi n) :).trans hcv)
  rw [← hr]
  exact (congrArg (fun i : Island => decide (i.power = .running)) (hi n) :)

/-- At a return the island waits 8192 ticks from the next itk (R352). -/
theorem vmicaReturn_waits {s : State} {n : IslandNo} (hc : s.clocked = true) (hr : s.running n = true)
    (hno : s.isl[n].safe.noCarrier = true) (hcv : s.isl[n].cvOk = true) : Completes .vmicaReturn s (fun u =>
      u.pow.vmicaOk = true ∧ (s.tick + BitVec.ofNat 64 (8192 + s.itk), .vmicaHoldEnd n) ∈ u.due ∧ u.isl[n].safe = s.isl[n].safe) := by
  have hc' : (s.modPow (fun p => { p with vmicaOk := true })).clocked = true := hc
  obtain ⟨hundue, hdue⟩ := State.carrierBack_all (s := (s.modPow (fun p => { p with vmicaOk := true })).settle .vmicaReturn) hr hno hcv
  have hrun : exec .vmicaReturn s = .next (islands.foldl (fun (s : State) n => s.carrierBack n)
      ((s.modPow (fun p => { p with vmicaOk := true })).settle .vmicaReturn)).grantCharge := by
    rw [exec_vmicaReturn, execVmicaReturn, State.taken_on _ _ hc']
    rfl
  generalize islands.foldl (fun (s : State) n => s.carrierBack n) _ = u at hrun hdue hundue
  obtain ⟨hpow, -, hi⟩ := State.undue_view hundue
  have hu := u.grantCharge_unled
  refine ⟨_, hrun, ?_, ?_, ?_⟩
  · rw [State.unled_pow hu, hpow]
    rfl
  · rw [State.unled_due hu]
    exact hdue
  · exact (State.unled_safe hu n).trans (congrArg Island.safe (hi n) :)

/-! ## Stops of HCK -/

/-- Where the periods of a PWM may not run, a safe state gives it no duty (R147, R149). -/
theorem Island.digTarget_off {i : Island} (hs : i.inSafe = true) (hm : i.pwmMay = false) : i.digTarget = 0 := by
  unfold Island.digTarget
  by_cases hd : i.dead = true
  · exact if_pos hd
  · rw [if_neg hd]
    by_cases hr : i.rungs.rung = 0
    · exact if_pos hr
    · rw [if_neg hr]
      refine if_pos ?_
      by_contra hl
      simp [Island.pwmMay, Island.digHeld, hs, hd, hr, hl] at hm

/-- Without ICK a PWM that a safe state governs is on at 0xFFFF and off at every other duty (R267). -/
theorem State.digOutputs_stopped {s : State} {n : IslandNo} (hk : s.pow.hck = false) (hp : s.isl[n].pers = .doPwm)
    (hs : s.isl[n].inSafe = true) : (s.digOutputs n true).isl[n].dout.sw = decide (s.isl[n].digTarget = 0xFFFF) ∧
      (s.digOutputs n true).isl[n].dout.run = false := by
  obtain ⟨hsw, hrun⟩ := s.pwmStop_dout n
  unfold State.digOutputs
  dsimp only
  rw [if_pos hp]
  by_cases hm : s.isl[n].pwmMay = true
  · rw [if_neg (by rw [hm]; decide), if_pos (by simp [State.ickStands, hk]), if_pos (.inl hs)]
    obtain ⟨hset, hkeep, -⟩ := (s.pwmStop n).setSwitch_dout n (decide (s.isl[n].digTarget = 0xFFFF))
    exact ⟨hset, hkeep.trans hrun⟩
  · rw [if_pos (by simpa using hm), Island.digTarget_off hs (by simpa using hm)]
    exact ⟨hsw, hrun⟩

/-- The island without the image bits that it has sent. -/
def Island.unsent (i : Island) : Island := { i with imgSent := 0 }

theorem Island.eq_of_unsent {i j : Island} (h : i.unsent = j.unsent) : i = { j with imgSent := i.imgSent } :=
  (congrArg (fun k : Island => { k with imgSent := i.imgSent }) h :)

/-- The image bits that set out on this tick change nothing but what the islands keep of them and what is on its way. -/
theorem State.shipImages_eq (s : State) : ∃ i t, s.shipImages = { s with isl := i, transit := t } ∧
    ∀ n : IslandNo, i[n].unsent = s.isl[n].unsent := by
  unfold State.shipImages
  split
  · exact ⟨s.isl, s.transit, rfl, fun _ => rfl⟩
  · refine foldl_islands_keep (P := fun u : State => ∃ i t, u = { s with isl := i, transit := t } ∧
      ∀ n : IslandNo, i[n].unsent = s.isl[n].unsent) ⟨s.isl, s.transit, rfl, fun _ => rfl⟩ ?_
    rintro _ k ⟨i, t, rfl, hi⟩
    unfold State.shipImage
    split
    · refine ⟨_, _, rfl, fun n => ?_⟩
      by_cases hn : n = k
      · subst hn
        rw [State.modIsl_same]
        exact hi n
      · rw [State.modIsl_other _ _ _ _ hn]
        exact hi n
    · exact ⟨i, t, rfl, hi⟩

/-- The PWM of an island that a safe state governs follows what holds without a clock (R267). -/
def State.pwmHolds (s : State) (n : IslandNo) : State :=
  if s.isl[n].pers = .doPwm ∧ s.isl[n].inSafe then s.digOutputs n true else s

theorem State.pwmHolds_beside (s : State) (n : IslandNo) : (s.pwmHolds n).beside Island.undriven n = s.beside Island.undriven n := by
  simp [State.pwmHolds]

/-- v has what u has of the power domain, the safe demands, the tick, the collector and the wait for the integrator. -/
def State.HeldFrom (u v : State) : Prop :=
  v.pow = u.pow ∧ v.safe = u.safe ∧ v.tick = u.tick ∧ v.fault = u.fault ∧ ∀ e ∈ v.due, e.2 = .integratorDischarged → e ∈ u.due

theorem State.pwmHolds_heldFrom {u v : State} (h : u.HeldFrom v) (k : IslandNo) : u.HeldFrom (v.pwmHolds k) := by
  obtain ⟨hpow, hsafe, htick, hfault, hdue⟩ := h
  have hb := v.pwmHolds_beside k
  refine ⟨(congrArg State.pow hb :).trans hpow, (congrArg State.safe hb :).trans hsafe, (congrArg State.tick hb :).trans htick,
    (congrArg State.fault hb :).trans hfault, fun e he hc => ?_⟩
  exact hdue e ((State.beside_due hb (by rw [hc]; rfl)).1 he) hc

/-- A stop holds what the islands drive, but for a PWM under a safe state, and the integrator charges (R16, R267, R273). -/
theorem hckStop_holds (s : State) : Completes .hckStop s (fun u =>
    u.pow = { s.pow with hck := false } ∧ u.safe = { s.safe with charged := true } ∧ u.tick = s.tick ∧ u.fault = s.fault ∧
    (∀ e ∈ u.due, e.2 ≠ .integratorDischarged) ∧
    ∀ n : IslandNo, (s.isl[n].pers ≠ .doPwm ∨ s.isl[n].inSafe = false → u.isl[n] = { s.isl[n] with imgSent := u.isl[n].imgSent }) ∧
      (s.isl[n].pers = .doPwm → s.isl[n].inSafe = true →
        u.isl[n].dout.sw = decide (s.isl[n].digTarget = 0xFFFF) ∧ u.isl[n].dout.run = false)) := by
  obtain ⟨i, t, hship, hi⟩ : ∃ i t, (if s.clocked then s.shipImages else s) = { s with isl := i, transit := t } ∧
      ∀ n : IslandNo, i[n].unsent = s.isl[n].unsent := by
    split
    · exact s.shipImages_eq
    · exact ⟨s.isl, s.transit, rfl, fun _ => rfl⟩
  have hrun : exec .hckStop s = .next (islands.foldl State.pwmHolds { State.cancel { s with isl := i, transit := t } .integratorDischarged with
      pow := { s.pow with hck := false }, safe := { s.safe with charged := true } }) := by
    rw [exec_hckStop, execHckStop, hship]
    rfl
  generalize hu : ({ State.cancel { s with isl := i, transit := t } .integratorDischarged with
      pow := { s.pow with hck := false }, safe := { s.safe with charged := true } } : State) = u at hrun
  have hkept : u.HeldFrom (islands.foldl State.pwmHolds u) := foldl_islands_keep (P := u.HeldFrom)
    ⟨rfl, rfl, rfl, rfl, fun _ h _ => h⟩ fun v k hv => State.pwmHolds_heldFrom hv k
  refine ⟨_, hrun, ?_⟩
  obtain ⟨hpow, hsafe, htick, hfault, hdue⟩ := hkept
  refine ⟨hpow.trans (by rw [← hu]), hsafe.trans (by rw [← hu]), htick.trans (by rw [← hu]; rfl), hfault.trans (by rw [← hu]; rfl),
    fun e he hc => ?_, fun n => ?_⟩
  · have hold := hdue e he hc
    rw [← hu] at hold
    exact ((State.cancel_due _ _ e).1 hold).2 hc
  have hn : u.isl[n].unsent = s.isl[n].unsent := by rw [← hu]; exact hi n
  have hstop : u.pow.hck = false := by rw [← hu]
  have hother (v : State) (k : IslandNo) (hk : k ≠ n) : (v.pwmHolds k).isl[n] = v.isl[n] :=
    State.beside_other (v.pwmHolds_beside k) hk.symm
  refine foldl_islands (step := State.pwmHolds) (Before := fun v => u.HeldFrom v ∧ v.isl[n] = u.isl[n]) (After := fun v =>
    (s.isl[n].pers ≠ .doPwm ∨ s.isl[n].inSafe = false → v.isl[n] = { s.isl[n] with imgSent := v.isl[n].imgSent }) ∧
      (s.isl[n].pers = .doPwm → s.isl[n].inSafe = true →
        v.isl[n].dout.sw = decide (s.isl[n].digTarget = 0xFFFF) ∧ v.isl[n].dout.run = false)) n
    ⟨⟨rfl, rfl, rfl, rfl, fun _ h _ => h⟩, rfl⟩
    (fun v k hk hv => ⟨State.pwmHolds_heldFrom hv.1 k, (hother v k hk).trans hv.2⟩) ?_ (fun v k hk hv => by rw [hother v k hk]; exact hv)
  rintro v ⟨⟨hpow, -⟩, hv⟩
  have hvn : v.isl[n].unsent = s.isl[n].unsent := by rw [hv, hn]
  have hp : v.isl[n].pers = s.isl[n].pers := (congrArg Island.pers hvn :)
  have hs : v.isl[n].inSafe = s.isl[n].inSafe := (congrArg Island.inSafe hvn :)
  have ht : v.isl[n].digTarget = s.isl[n].digTarget := (congrArg Island.digTarget hvn :)
  unfold State.pwmHolds
  rw [hp, hs]
  refine ⟨fun h => ?_, fun h1 h2 => ?_⟩
  · rw [if_neg (by rintro ⟨h1, h2⟩; rcases h with h | h; exacts [h h1, Bool.false_ne_true (h.symm.trans h2)])]
    exact Island.eq_of_unsent hvn
  · rw [if_pos ⟨h1, h2⟩, ← ht]
    exact State.digOutputs_stopped (by rw [hpow]; exact hstop) (hp.trans h1) (hs.trans h2)

/-! ## The first ticks after a stop -/

/-- Where a fault comes from, and when. -/
def FaultRec.origin (r : FaultRec) : Byte × Byte × Tick := (r.src, r.mid, r.came)

/-- The origins of the faults that the collector holds. -/
def Collector.origins (f : Collector) : List (Byte × Byte × Tick) := (f.react ++ f.dq).map FaultRec.origin

theorem Collector.mem_origins {f : Collector} {src m : Byte} {t : Tick} :
    (src, m, t) ∈ f.origins ↔ ∃ r ∈ f.react ++ f.dq, r.src = src ∧ r.mid = m ∧ r.came = t := by
  simp only [Collector.origins, List.mem_map, FaultRec.origin, Prod.mk.injEq]

theorem map_origin_later (t : Tick) (src : Byte) (l : List FaultRec) : (later t src l).map FaultRec.origin = l.map FaultRec.origin := by
  rw [later, List.map_map]
  refine List.map_congr_left fun r _ => ?_
  rw [Function.comp_apply]
  split <;> rfl

theorem map_origin_uncapture (q : BitVec 16) (l : List FaultRec) : (uncapture q l).map FaultRec.origin = l.map FaultRec.origin := by
  rw [uncapture, List.map_map]
  refine List.map_congr_left fun r _ => ?_
  rw [Function.comp_apply]
  split <;> rfl

theorem Collector.number_origins (f : Collector) (t : Tick) (src : Byte) : (f.number t src).1.origins = f.origins := by
  simp [Collector.number, Collector.origins, map_origin_later]

theorem Collector.capture_origins (f : Collector) (r : FaultRec) : (f.capture r).1.origins = f.origins := by
  unfold Collector.capture
  split
  · rfl
  · split
    · simp [Collector.origins, map_origin_uncapture]
    · rfl

/-- A fault that the collector holds keeps its origin when another one reaches it. -/
theorem State.raiseAt_origins (s : State) (stamp : Tick) (src m : Byte) (typ : BitVec 4) (kind : Byte) (a dt : Word) (inj : Bool) :
    s.fault.origins ⊆ (s.raiseAt stamp src m typ kind a dt inj).fault.origins := by
  unfold State.raiseAt
  split
  rename_i f q hf
  have hnum : f.origins = s.fault.origins := by rw [← Collector.number_origins s.fault s.tick src, hf]
  extract_lets mw ha queued grace base r
  split
  rename_i f' r' hc
  have hcap : f'.origins = s.fault.origins := by rw [← hnum, ← Collector.capture_origins f r, hc]
  rw [← hcap]
  unfold Collector.origins
  split
  · rw [State.owe_eq]
    intro x hx
    simp only [List.map_append, List.mem_append] at hx ⊢
    tauto
  · rw [State.owe_eq]
    intro x hx
    simp only [List.map_append, List.mem_append, Collector.log] at hx ⊢
    tauto

theorem State.nvmResume_eq (s : State) : ∃ d f z v k, s.nvmResume = { s with due := d, fault := f, slate := z, nvm := v, free := k } := by
  unfold State.nvmResume
  split
  · extract_lets step u w
    obtain ⟨z, hw⟩ : ∃ z, w = { u with slate := z } := u.keyed_eq 4
    obtain ⟨d, f, hr⟩ := w.raiseBy_eq 0x21 .nvm 0 (Config.abortKind 0) 0
    rw [hr]
    obtain ⟨d', z', v, k, hc⟩ := State.nvmCut_eq { w with due := d, fault := f } false step
    rw [hc, hw]
    exact ⟨d', f, z', v, k, rfl⟩
  · exact ⟨s.due, s.fault, s.slate, s.nvm, s.free, rfl⟩

/-- A fault of a block is held under the block's name. -/
theorem State.raiseBy_origin (s : State) (src : Byte) (m : Master) (typ : BitVec 4) (kind : Byte) (a : Word) :
    (src, mid m, s.tick) ∈ (s.raiseBy src m typ kind a).fault.origins := by
  obtain ⟨r, hr, hsrc, hmid, -, -, hcame⟩ := s.raiseAt_raises s.tick src (mid m) typ kind a 0 false
  exact Collector.mem_origins.2 ⟨r, hr, hsrc, hmid, hcame⟩

/-- What a stop kept for the first tick is raised then (R18, R270). -/
theorem State.hostResumed_raises (s : State) : s.hostResumed.safe = { s.safe with recStill := false, recSafeN := false } ∧
    (s.safe.recStill = true → (0x29, 0x45, s.tick) ∈ s.hostResumed.fault.origins) ∧
    (s.safe.recSafeN = true → (0x2A, 0x46, s.tick) ∈ s.hostResumed.fault.origins) := by
  obtain ⟨d, f, z, v, k, hn⟩ := s.nvmResume_eq
  unfold State.hostResumed
  rw [hn]
  extract_lets _ u w
  have hu : (∃ d f, u = { s with due := d, fault := f, slate := z, nvm := v, free := k }) ∧
      (s.safe.recStill = true → (0x29, 0x45, s.tick) ∈ u.fault.origins) := by
    unfold u
    split
    · obtain ⟨d', f', hr⟩ := State.raiseBy_eq { s with due := d, fault := f, slate := z, nvm := v, free := k } 0x29 .guard 0 0 0
      exact ⟨⟨d', f', hr⟩, fun _ => State.raiseBy_origin ..⟩
    · rename_i h
      exact ⟨⟨d, f, rfl⟩, fun hs => absurd hs h⟩
  obtain ⟨⟨du, fu, hu⟩, hstill⟩ := hu
  have hw : (∃ d f, w = { s with due := d, fault := f, slate := z, nvm := v, free := k }) ∧ u.fault.origins ⊆ w.fault.origins ∧
      (s.safe.recSafeN = true → (0x2A, 0x46, s.tick) ∈ w.fault.origins) := by
    have htick : u.tick = s.tick := by rw [hu]
    have hrec : u.safe.recSafeN = s.safe.recSafeN := by rw [hu]
    clear_value u
    unfold w
    split
    · obtain ⟨d', f', hr⟩ := u.raiseBy_eq 0x2A .safeN 0 0 0
      exact ⟨⟨d', f', by rw [hr, hu]⟩, State.raiseAt_origins .., fun _ => htick ▸ u.raiseBy_origin 0x2A .safeN 0 0 0⟩
    · rename_i h
      exact ⟨⟨du, fu, hu⟩, fun _ h => h, fun hs => absurd (hrec.trans hs) h⟩
  obtain ⟨⟨dw, fw, hw⟩, hsub, hsafeN⟩ := hw
  clear_value w
  have hsafe : w.safe = s.safe := by rw [hw]
  exact ⟨(congrArg (fun z : Safety => { z with recStill := false, recSafeN := false }) hsafe :), fun h => hsub (hstill h), hsafeN⟩

/-- On an odd first tick after a stop the host side alone is dealt with (R18). -/
theorem resumed_first {s : State} (hr : s.pow.resumeAt = some s.tick) (ht : s.tick.toNat % 2 = 1) :
    s.resumed.safe = { s.safe with recStill := false, recSafeN := false } ∧
      (s.safe.recStill = true → ∃ r ∈ s.resumed.fault.react ++ s.resumed.fault.dq, r.src = 0x29 ∧ r.mid = 0x45 ∧ r.came = s.tick) ∧
      (s.safe.recSafeN = true → ∃ r ∈ s.resumed.fault.react ++ s.resumed.fault.dq, r.src = 0x2A ∧ r.mid = 0x46 ∧ r.came = s.tick) := by
  have hodd : s.tick.getLsbD 0 = true := by
    rw [BitVec.getLsbD, Nat.testBit_zero]
    simpa using ht
  obtain ⟨htick, -⟩ := Prod.mk.inj s.hostResumed_time
  have hu : s.resumed = s.hostResumed := by
    unfold State.resumed
    rw [hr]
    dsimp only
    rw [if_pos rfl, htick, if_pos hodd]
  obtain ⟨hsafe, hstill, hsafeN⟩ := s.hostResumed_raises
  rw [hu]
  exact ⟨hsafe, fun h => Collector.mem_origins.1 (hstill h), fun h => Collector.mem_origins.1 (hsafeN h)⟩

/-- What the first itk after a stop deals with in one island (R17, R18, R138, R183, R201, R205, R267). -/
def State.islandResumed (s : State) (first : Tick) (n : IslandNo) : State :=
  if s.running n then
    let s := (((s.adcResume n).inputResume n first).hartResume n).loopResume n
    if s.isl[n].pers = .doPwm then s.digOutputs n true else s
  else s

theorem State.stagesResumed_beside (s : State) (first : Tick) (n : IslandNo) :
    ((((s.adcResume n).inputResume n first).hartResume n).loopResume n).beside Island.unmeasured n = s.beside Island.unmeasured n := by
  simp

theorem State.islandResumed_beside (s : State) (first : Tick) (n : IslandNo) :
    (s.islandResumed first n).beside Island.unstaged n = s.beside Island.unstaged n := by
  have hstages := State.beside_unstaged (s.stagesResumed_beside first n)
  unfold State.islandResumed
  split
  · extract_lets u
    rw [← hstages]
    split
    · exact State.beside_mono Island.unstaged_undriven (u.digOutputs_beside n true)
    · rfl
  · rfl

/-- The periods of a PWM that may run start on the first itk after a stop, at the duty that is demanded (R267). -/
theorem State.islandResumed_pwm {s : State} {n : IslandNo} {t : Tick} (hck : s.pow.hck = true) (hr : s.pow.resumeAt = some t)
    (hlt : t < s.tick) (he : s.tick.getLsbD 0 = false) (hrun : s.running n = true) (hp : s.isl[n].pers = .doPwm)
    (hm : s.isl[n].pwmMay = true) (hd : s.isl[n].dout.run = false) :
    (s.islandResumed t n).isl[n].dout.run = true ∧ (s.islandResumed t n).isl[n].dout.duty = s.isl[n].digTarget := by
  unfold State.islandResumed
  rw [if_pos hrun]
  extract_lets u
  have hb : u.beside Island.unmeasured n = s.beside Island.unmeasured n := s.stagesResumed_beside t n
  clear_value u
  have hi := State.beside_same hb
  have hup : u.isl[n].pers = .doPwm := (congrArg Island.pers hi :).trans hp
  have hum : u.isl[n].pwmMay = true := (congrArg Island.pwmMay hi :).trans hm
  have hud : u.isl[n].dout.run = false := (congrArg (fun i : Island => i.dout.run) hi :).trans hd
  have hut : u.isl[n].digTarget = s.isl[n].digTarget := (congrArg Island.digTarget hi :)
  have hstands : u.ickStands = false := by
    have hpow : u.pow = s.pow := (congrArg State.pow hb :)
    have htick : u.tick = s.tick := (congrArg State.tick hb :)
    have hnot : ¬ s.tick < t := BitVec.not_lt.2 (BitVec.le_of_lt hlt)
    simp [State.ickStands, hpow, htick, hck, hr, hnot, show s.tick[0] = false from he]
  rw [if_pos hup, ← hut]
  unfold State.digOutputs
  dsimp only
  rw [if_pos hup, if_neg (by rw [hum]; decide), if_neg (by rw [hstands]; decide), if_pos (by rw [hud]; decide)]
  exact u.pwmStart_dout n

theorem resumed_pwm {s : State} {t : Tick} {n : IslandNo} (hck : s.pow.hck = true) (hr : s.pow.resumeAt = some t) (hlt : t < s.tick)
    (he : s.tick.toNat % 2 = 0) (hrun : s.running n = true) (hp : s.isl[n].pers = .doPwm) (hm : s.isl[n].pwmMay = true)
    (hd : s.isl[n].dout.run = false) :
    s.resumed.isl[n].dout.run = true ∧ s.resumed.isl[n].dout.duty = s.isl[n].digTarget := by
  have heven : s.tick.getLsbD 0 = false := by
    rw [BitVec.getLsbD, Nat.testBit_zero]
    simpa using he
  have hu : s.resumed = islands.foldl (fun (s : State) n => s.islandResumed t n) s := by
    unfold State.resumed
    rw [hr]
    dsimp only
    have hne : s.tick ≠ t := fun h => BitVec.lt_irrefl _ (h ▸ hlt)
    rw [if_neg hne, if_neg (by rw [heven]; decide)]
    rfl
  rw [hu]
  refine foldl_islands (Before := fun v => v.pow = s.pow ∧ v.tick = s.tick ∧ v.isl[n] = s.isl[n])
    (After := fun v => v.isl[n].dout.run = true ∧ v.isl[n].dout.duty = s.isl[n].digTarget) n ⟨rfl, rfl, rfl⟩ ?_ ?_ ?_
  · rintro v k hk ⟨hpow, htick, hi⟩
    have hb := v.islandResumed_beside t k
    exact ⟨(congrArg State.pow hb :).trans hpow, (congrArg State.tick hb :).trans htick, (State.beside_other hb hk.symm).trans hi⟩
  · rintro v ⟨hpow, htick, hi⟩
    rw [← hi]
    refine State.islandResumed_pwm (by rw [hpow]; exact hck) (by rw [hpow]; exact hr) (by rw [htick]; exact hlt)
      (by rw [htick]; exact heven) ?_ (by rw [hi]; exact hp) (by rw [hi]; exact hm) (by rw [hi]; exact hd)
    unfold State.running at hrun ⊢
    rw [hi]
    exact hrun
  · rintro v k hk hv
    rw [State.beside_other (v.islandResumed_beside t k) hk.symm]
    exact hv

/-! ## The ledger's side of the state

What admissions, kills and powering depend on; much of what a kill does beside them leaves it. -/

/-- What the ledger knows of one island. -/
def Island.account (i : Island) : IslPower × Bool × Bool × Nat × List (Nat × Nat) × Ledger :=
  (i.power, i.en, i.charging, i.rsv, i.held, i.led)

/-- What the ledger knows of the device. -/
def State.account (s : State) : Member × BitVec 18 × List (Nat × Word) × Slate × Power × Bool ×
    Vector (IslPower × Bool × Bool × Nat × List (Nat × Nat) × Ledger) 16 :=
  (s.member, s.rate, s.cfg, s.slate, s.pow, s.fault.lockout, s.isl.map Island.account)

theorem Island.account_eq (i : Island) : i.account = (i.power, i.en, i.charging, i.rsv, i.held, i.led) := (rfl)

theorem State.account_isl {s u : State} (h : u.account = s.account) (n : IslandNo) : u.isl[n].account = s.isl[n].account := by
  have hv : u.isl.map Island.account = s.isl.map Island.account := by
    simp only [State.account, Prod.mk.injEq] at h
    exact h.2.2.2.2.2.2
  have hi := congrArg (fun v : Vector _ 16 => v[n]) hv
  simpa using hi

@[simp] theorem State.account_ite (p : Prop) [Decidable p] (s u : State) : (if p then s else u).account = if p then s.account else u.account :=
  apply_ite State.account p s u

theorem State.account_foldl {β : Type} (l : List β) (f : State → β → State) (s : State) (hf : ∀ s b, (f s b).account = s.account) :
    (l.foldl f s).account = s.account := by
  induction l generalizing s with
  | nil => rfl
  | cons b l ih => exact (ih (f s b)).trans (hf s b)

theorem State.account_modIsl (s : State) (n : IslandNo) (f : Island → Island) (h : ∀ i, (f i).account = i.account) :
    (s.modIsl n f).account = s.account := by
  have hv : (s.modIsl n f).isl.map Island.account = s.isl.map Island.account := by
    ext1 k hk
    by_cases hn : n.val = k
    · subst hn
      simp [State.modIsl, h]
    · simp [State.modIsl, hn]
  unfold State.account
  rw [hv]
  rfl

theorem State.account_mapIsl (s : State) (f : Island → Island) (h : ∀ i, (f i).account = i.account) :
    State.account { s with isl := s.isl.map f } = s.account := by
  have hv : (s.isl.map f).map Island.account = s.isl.map Island.account := by
    ext1 k hk
    simp [h]
  unfold State.account
  dsimp only
  rw [hv]

theorem State.account_of_beside {s u : State} {g : Island → Island} {n : IslandNo} (hg : ∀ i, (g i).account = i.account)
    (h : u.beside g n = s.beside g n) : u.account = s.account := by
  have hb (v : State) : v.account = (v.beside g n).account := by
    have hv : (v.isl.set n (g v.isl[n])).map Island.account = v.isl.map Island.account := by
      ext1 k hk
      by_cases hn : n.val = k
      · subst hn
        simp [hg]
      · simp [hn]
    unfold State.account State.beside
    dsimp only
    rw [hv]
  rw [hb u, hb s, h]

/-! ### Rows, faults, contexts and channels -/

@[simp] theorem State.oweAt_account (s : State) (t : Tick) (c : Instr) : (s.oweAt t c).account = s.account := by rw [State.oweAt_eq]; rfl
@[simp] theorem State.owe_account (s : State) (k : Nat) (c : Instr) : (s.owe k c).account = s.account := s.oweAt_account _ c
@[simp] theorem State.cancel_account (s : State) (c : Instr) : (s.cancel c).account = s.account := rfl
@[simp] theorem State.settle_account (s : State) (c : Instr) : (s.settle c).account = s.account := rfl
@[simp] theorem State.modCtx_account (s : State) (t : CtxNo) (f : Ctx → Ctx) : (s.modCtx t f).account = s.account := rfl
@[simp] theorem State.modCh_account (s : State) (c : ChNo) (f : Channel → Channel) : (s.modCh c f).account = s.account := rfl
@[simp] theorem State.clamped_account (s : State) (m : Master) (k : Nat) : (s.clamped m k).account = s.account := by
  unfold State.clamped
  split <;> rfl
@[simp] theorem State.pulse_account (s : State) (src : Nat) : (s.pulse src).account = s.account := by
  obtain ⟨d, h⟩ := s.pulse_due src
  rw [h]
  rfl
@[simp] theorem State.pulseIn_account (s : State) (k src : Nat) : (s.pulseIn k src).account = s.account := by
  obtain ⟨d, h⟩ := s.pulseIn_due k src
  rw [h]
  rfl

theorem Collector.number_lockout (f : Collector) (t : Tick) (src : Byte) : (f.number t src).1.lockout = f.lockout := rfl
theorem Collector.capture_lockout (f : Collector) (r : FaultRec) : (f.capture r).1.lockout = f.lockout := by
  unfold Collector.capture
  repeat' split
  all_goals rfl

/-- A fault that reaches the collector puts no Lockout into force. -/
theorem State.raiseAt_lockout (s : State) (stamp : Tick) (src m : Byte) (typ : BitVec 4) (kind : Byte) (a dt : Word) (inj : Bool) :
    (s.raiseAt stamp src m typ kind a dt inj).fault.lockout = s.fault.lockout := by
  unfold State.raiseAt
  split
  rename_i f q hf
  have hnum : f.lockout = s.fault.lockout := by rw [← Collector.number_lockout s.fault s.tick src, hf]
  extract_lets mw ha queued grace base r first
  split
  rename_i f' r' hc
  have hcap : f'.lockout = s.fault.lockout := by rw [← hnum, ← Collector.capture_lockout f r, hc]
  split
  · rw [State.owe_eq]
    exact hcap
  · rw [State.owe_eq]
    exact hcap

@[simp] theorem State.raiseAt_account (s : State) (stamp : Tick) (src m : Byte) (typ : BitVec 4) (kind : Byte) (a dt : Word) (inj : Bool) :
    (s.raiseAt stamp src m typ kind a dt inj).account = s.account := by
  obtain ⟨d, f, h⟩ := s.raiseAt_eq stamp src m typ kind a dt inj
  have hl := s.raiseAt_lockout stamp src m typ kind a dt inj
  rw [h] at hl ⊢
  unfold State.account
  exact congrArg (fun b => (s.member, s.rate, s.cfg, s.slate, s.pow, b, s.isl.map Island.account)) hl
@[simp] theorem State.accFault_account (s : State) (e : AccErr) (m : Master) (typ : BitVec 4) (a : Nat) :
    (s.accFault e m typ a).account = s.account := State.raiseAt_account ..

/-! ### Cells -/

@[simp] theorem State.sendFrom_account (s : State) (t : Tick) (n : IslandNo) (m : Master) (d : DownData) (a : Word) (x : BitVec 19) :
    (s.sendFrom t n m d a x).account = s.account := s.account_modIsl n _ fun _ => rfl
@[simp] theorem State.sendUp_account (s : State) (n : IslandNo) (d : UpData) : (s.sendUp n d).account = s.account :=
  s.account_modIsl n _ fun _ => rfl
@[simp] theorem State.sendLane_account (s : State) (k : Nat) (x : Transit) : (s.sendLane k x).account = s.account := rfl
@[simp] theorem State.link_account (s : State) (l : Link) : State.account { s with link := l } = s.account := rfl
@[simp] theorem State.arrived_account (s : State) (n : IslandNo) (d : UpData) : (s.arrived n d).account = s.account := by
  simp [State.arrived, State.account_modIsl, Island.account_eq]
@[simp] theorem State.dmaFail_account (s : State) (c : ChNo) (err : BitVec 3) (a : Word) (typ : BitVec 4) :
    (s.dmaFail c err a typ).account = s.account := by
  unfold State.dmaFail
  split
  · rfl
  · have hmap := State.account_mapIsl s (Island.orphanDma c) fun _ => rfl
    simp only [State.raiseBy, State.raise, State.raiseAt_account, State.modCh_account]
    exact hmap
@[simp] theorem State.linkXerr_account (s : State) (x : BitVec 19) : (s.linkXerr x).account = s.account := by
  refine s.account_mapIsl (Island.stopFrame x) fun i => ?_
  unfold Island.stopFrame
  split <;> rfl
@[simp] theorem State.answer_account (s : State) (n : IslandNo) (req : Master) (a : Word) (v : Option Word) :
    (s.answer n req a v).account = s.account := by
  unfold State.answer
  repeat' split
  all_goals simp
@[simp] theorem State.writeFailed_account (s : State) (req : Master) (a : Word) (x : BitVec 19) : (s.writeFailed req a x).account = s.account := by
  unfold State.writeFailed
  split <;> simp
@[simp] theorem State.cmdFailed_account (s : State) (req : Master) (a : Word) (x : BitVec 19) : (s.cmdFailed req a x).account = s.account := by
  unfold State.cmdFailed
  split <;> simp
@[simp] theorem State.cellFailed_account (s : State) (n : IslandNo) (c : DownCell) : (s.cellFailed n c).account = s.account := by
  unfold State.cellFailed
  split <;> simp
@[simp] theorem State.fenceChecks_account (s : State) : s.fenceChecks.account = s.account :=
  State.account_foldl _ _ s fun u t => by
    unfold State.fenceCheck
    split <;> simp
@[simp] theorem State.commitCheck_account (s : State) : s.commitCheck.account = s.account := by simp [State.commitCheck]
@[simp] theorem State.shadowCheck_account (s : State) : s.shadowCheck.account = s.account := by simp [State.shadowCheck]
@[simp] theorem State.ackChecks_account (s : State) : s.ackChecks.account = s.account := by simp [State.ackChecks]
@[simp] theorem State.tapChanged_account (s : State) : s.tapChanged.account = s.account :=
  State.account_foldl _ _ s fun u i => by simp
@[simp] theorem State.discardCells_account (s : State) (n : IslandNo) : (s.discardCells n).account = s.account := by
  simp [State.discardCells, State.account_foldl, State.account_modIsl, Island.account_eq]
@[simp] theorem State.loopEnd_account (s : State) (n : IslandNo) (st : BitVec 2) (reason : BitVec 4) :
    (s.loopEnd n st reason).account = s.account := State.account_of_beside (g := Island.unstaged) (fun _ => rfl) (s.loopEnd_beside n st reason)
@[simp] theorem State.loopStop_account (s : State) (n : IslandNo) (st : BitVec 2) (reason : BitVec 4) :
    (s.loopStop n st reason).account = s.account := by simp [State.loopStop]
@[simp] theorem State.leaveRunning_account (s : State) (n : IslandNo) : (s.leaveRunning n).account = s.account :=
  s.account_modIsl n _ fun _ => rfl

/-! ## Sums over the islands -/

theorem islSum_eq_sum (f : IslandNo → Nat) : islSum f = ∑ n, f n := by
  have hfold (l : List IslandNo) (a : Nat) : l.foldl (fun a n => a + f n) a = a + (l.map f).sum := by
    induction l generalizing a with
    | nil => rfl
    | cons n l ih => rw [List.foldl_cons, ih, List.map_cons, List.sum_cons, Nat.add_assoc]
  rw [Fin.sum_univ_def, islSum, hfold, Nat.zero_add]
  rfl

theorem islSum_congr {f g : IslandNo → Nat} (h : ∀ k, g k = f k) : islSum g = islSum f := congrArg islSum (funext h)

/-- A sum in which one island's part changes. -/
theorem islSum_change {f g : IslandNo → Nat} (n : IslandNo) (h : ∀ k, k ≠ n → g k = f k) : islSum g + f n = islSum f + g n := by
  have herase : ∑ k ∈ Finset.univ.erase n, g k = ∑ k ∈ Finset.univ.erase n, f k :=
    Finset.sum_congr rfl fun k hk => h k (Finset.ne_of_mem_erase hk)
  rw [islSum_eq_sum, islSum_eq_sum, ← Finset.add_sum_erase _ f (Finset.mem_univ n), ← Finset.add_sum_erase _ g (Finset.mem_univ n), herase]
  omega

theorem islSum_part_le (f : IslandNo → Nat) (n : IslandNo) : f n ≤ islSum f := by
  rw [islSum_eq_sum]
  exact Finset.single_le_sum (fun _ _ => Nat.zero_le _) (Finset.mem_univ n)

/-! ## Grains -/

/-- Grains that are charged to an island: those admitted, and those of earlier admissions that are still to return. -/
def Island.charged (i : Island) : Nat := i.led.admGr + i.heldGr

section Account

variable {i j : Island} (h : j.account = i.account)

include h

theorem Island.account_parts : j.power = i.power ∧ j.en = i.en ∧ j.charging = i.charging ∧ j.rsv = i.rsv ∧ j.held = i.held ∧ j.led = i.led := by
  simpa only [Island.account, Prod.mk.injEq] using h

theorem Island.charged_congr : j.charged = i.charged := by
  obtain ⟨-, -, -, -, hheld, hled⟩ := Island.account_parts h
  unfold Island.charged Island.heldGr
  rw [hheld, hled]

theorem Island.grainsOk_congr : j.grainsOk ↔ i.grainsOk := by
  obtain ⟨hpow, -, hch, hrsv, hheld, hled⟩ := Island.account_parts h
  unfold Island.grainsOk Island.heldGr Island.heldRsv Island.powered
  rw [hpow, hch, hrsv, hheld, hled]

end Account

theorem State.account_member {s u : State} (h : u.account = s.account) : u.member = s.member := (congrArg Prod.fst h :)

theorem State.admittedOk_congr {s u : State} (hm : u.member = s.member) (hi : ∀ n : IslandNo, u.isl[n].account = s.isl[n].account) :
    u.admittedOk ↔ s.admittedOk := by
  have hsum : u.admitted = s.admitted := islSum_congr fun n => Island.charged_congr (hi n)
  unfold State.admittedOk
  rw [hsum, hm]
  refine and_congr_right fun _ => forall_congr' fun n => ?_
  obtain ⟨-, -, -, -, -, hled⟩ := Island.account_parts (hi n)
  rw [hled]

/-- One island changes, to what is charged to it already or to what still fits in the arbiter's share. -/
theorem State.admittedOk_change {s u : State} (n : IslandNo) (hm : u.member = s.member)
    (ho : ∀ k : IslandNo, k ≠ n → u.isl[k].account = s.isl[k].account) (h : s.admittedOk)
    (hle : u.isl[n].charged ≤ s.isl[n].charged ∨ s.admitted - s.isl[n].charged + u.isl[n].charged ≤ s.member.admissible)
    (hp : u.isl[n].led.pending = true → u.isl[n].led.sentGr ≤ u.isl[n].led.admGr) : u.admittedOk := by
  obtain ⟨hsum, hpend⟩ := h
  have hchange : u.admitted + s.isl[n].charged = s.admitted + u.isl[n].charged :=
    islSum_change n fun k hk => Island.charged_congr (ho k hk)
  have hpart : s.isl[n].charged ≤ s.admitted := islSum_part_le (fun k => s.isl[k].charged) n
  refine ⟨?_, fun k => ?_⟩
  · rw [hm]
    omega
  · by_cases hk : k = n
    · exact hk ▸ hp
    · obtain ⟨-, -, -, -, -, hled⟩ := Island.account_parts (ho k hk)
      rw [hled]
      exact hpend k

/-- Every island counts at most 60 gr. -/
def State.islandsOk (s : State) : Prop := ∀ n : IslandNo, s.isl[n].grainsOk

theorem State.islandsOk_congr {s u : State} (hi : ∀ n : IslandNo, u.isl[n].account = s.isl[n].account) : u.islandsOk ↔ s.islandsOk :=
  forall_congr' fun n => Island.grainsOk_congr (hi n)

theorem State.islandsOk_change {s u : State} (n : IslandNo) (ho : ∀ k : IslandNo, k ≠ n → u.isl[k].account = s.isl[k].account)
    (h : s.islandsOk) (hn : u.isl[n].grainsOk) : u.islandsOk := fun k => by
  by_cases hk : k = n
  · exact hk ▸ hn
  · exact (Island.grainsOk_congr (ho k hk)).2 (h k)

/-- The rest of an island's grains, beside its reserve grant, fits in 60 gr. -/
def Island.fits (i : Island) : Prop :=
  (i.charging = false → i.rsv = 0) ∧ i.heldGr + i.heldRsv + i.led.admGr ≤ 60 ∧
  (i.led.waitGr = true → i.heldGr + i.heldRsv + i.led.nextGr ≤ 60) ∧ (i.powered = true → i.heldGr + i.heldRsv + 8 ≤ 60) ∧
  (i.led.pending = true → i.led.sentGr ≤ i.led.admGr)

/-! ## The arbiter's operations on one island -/

section Arbiter

variable {s : State} {n : IslandNo}

theorem State.modIsl_account_other (s : State) (n : IslandNo) (f : Island → Island) {k : IslandNo} (hk : k ≠ n) :
    (s.modIsl n f).isl[k].account = s.isl[k].account := congrArg _ (s.modIsl_other n k f hk)

/-- The reserve grant of a charging island beside g admitted grains (R48, R49). -/
def State.grant (s : State) (n : IslandNo) (g : Nat) : Nat := min (s.member.reserveGrains / 2) (s.isl[n].room - g)

/-- The reserve grant follows the admitted grains. -/
theorem State.fitRsv_spec (s : State) (n : IslandNo) : (s.fitRsv n).isl[n].account =
      (s.isl[n].power, s.isl[n].en, s.isl[n].charging, if s.isl[n].charging then s.grant n s.isl[n].led.admGr else s.isl[n].rsv,
        s.isl[n].held, s.isl[n].led) ∧
    ∀ k, k ≠ n → (s.fitRsv n).isl[k] = s.isl[k] := by
  refine ⟨?_, fun k hk => s.modIsl_other n k _ hk⟩
  rw [State.fitRsv, State.modIsl_same]
  rfl

/-- The island is charged g grains, and its reserve grant follows. -/
theorem State.charge_spec (s : State) (n : IslandNo) (g : Nat) : (s.charge n g).isl[n].account =
      (s.isl[n].power, s.isl[n].en, s.isl[n].charging, if s.isl[n].charging then s.grant n g else s.isl[n].rsv, s.isl[n].held,
        { s.isl[n].led with admGr := g }) ∧
    ∀ k, k ≠ n → (s.charge n g).isl[k] = s.isl[k] := by
  obtain ⟨hsame, hother⟩ := (s.modIsl n (fun i => { i with led := { i.led with admGr := g } })).fitRsv_spec n
  refine ⟨hsame.trans ?_, fun k hk => (hother k hk).trans (s.modIsl_other n k _ hk)⟩
  unfold State.grant
  rw [State.modIsl_same]
  rfl

/-- What the arbiter makes of a waiting admission: the rungs are in force already, or their cell leaves, or the island is not there yet
and the grains alone are taken (R56). -/
def Ledger.Sends (l l' : Ledger) : Prop :=
  l' = { l with waitGr := false, admGr := l.nextGr } ∨
  l' = { l with waitGr := false, pending := true, sentGr := l.nextGr, admGr := max l.admGr l.nextGr } ∨
  l' = { l with admGr := max l.admGr l.nextGr }

/-- The account of island n with another ledger, to which its reserve grant has followed. -/
def State.refit (s : State) (n : IslandNo) (l : Ledger) : IslPower × Bool × Bool × Nat × List (Nat × Nat) × Ledger :=
  (s.isl[n].power, s.isl[n].en, s.isl[n].charging, if s.isl[n].charging then s.grant n l.admGr else s.isl[n].rsv, s.isl[n].held, l)

theorem State.sendRung_other (s : State) (n : IslandNo) {k : IslandNo} (hk : k ≠ n) : (s.sendRung n).isl[k] = s.isl[k] := by
  have hmod (f : Island → Island) (g : Nat) : ((s.modIsl n f).charge n g).isl[k] = s.isl[k] :=
    (((s.modIsl n f).charge_spec n g).2 k hk).trans (s.modIsl_other n k f hk)
  unfold State.sendRung
  dsimp only
  split
  · split
    · exact hmod _ _
    · split
      · exact (State.modIsl_other _ n k _ hk).trans (hmod _ _)
      · exact (s.charge_spec n _).2 k hk
  · rfl

/-- A waiting admission goes on where its grains are there (R56). -/
theorem State.sendRung_spec (s : State) (n : IslandNo) : s.sendRung n = s ∨
    s.isl[n].led.waitGr = true ∧ s.isl[n].led.pending = false ∧ s.rungFits s.isl[n].led = true ∧
      ∃ l, s.isl[n].led.Sends l ∧ (s.sendRung n).isl[n].account = s.refit n l := by
  unfold State.sendRung
  dsimp only
  split
  · rename_i hgo
    simp only [Bool.and_eq_true, Bool.not_eq_true'] at hgo
    obtain ⟨⟨hwait, hpend⟩, hfits⟩ := hgo
    refine .inr ⟨hwait, hpend, hfits, ?_⟩
    split
    · refine ⟨_, .inl rfl, ((State.charge_spec _ n _).1).trans ?_⟩
      unfold State.refit State.grant
      rw [State.modIsl_same]
      rfl
    · split
      · refine ⟨_, .inr (.inl rfl), ?_⟩
        rw [State.sendFrom, State.modIsl_same]
        refine ((State.charge_spec _ n _).1).trans ?_
        unfold State.refit State.grant
        rw [State.modIsl_same]
        rfl
      · exact ⟨_, .inr (.inr rfl), (s.charge_spec n _).1⟩
  · exact .inl rfl

theorem State.sendRung_admittedOk (h : s.admittedOk) : (s.sendRung n).admittedOk := by
  rcases s.sendRung_spec n with hs | ⟨-, hpend, hfits, l, hl, hu⟩
  · rwa [hs]
  · obtain ⟨-, -, -, -, hheld, hled⟩ : _ ∧ _ ∧ _ ∧ _ ∧ _ ∧ _ := by simpa only [Island.account, State.refit, Prod.mk.injEq] using hu
    simp only [State.rungFits, decide_eq_true_eq] at hfits
    have hpart : s.isl[n].charged ≤ s.admitted := islSum_part_le (fun k => s.isl[k].charged) n
    refine State.admittedOk_change n (State.unled_member (s.sendRung_unled n)) (fun k hk => congrArg _ (s.sendRung_other n hk)) h ?_ ?_
    · unfold Island.charged Island.heldGr at hpart ⊢
      rw [hheld, hled]
      rcases hl with rfl | rfl | rfl <;> dsimp only <;> omega
    · rw [hled]
      rcases hl with rfl | rfl | rfl
      · exact fun hp => absurd (hpend.symm.trans hp) Bool.false_ne_true
      · exact fun _ => Nat.le_max_right ..
      · exact fun hp => absurd (hpend.symm.trans hp) Bool.false_ne_true

/-- An island to whose ledger the reserve grant has followed counts at most 60 gr where the rest of it does. -/
theorem Island.grainsOk_refit {i : Island} {l : Ledger} (hi : i.account = s.refit n l) (hf : Island.fits { s.isl[n] with led := l }) :
    i.grainsOk := by
  obtain ⟨hpow, -, hch, hrsv, hheld, hled⟩ : _ ∧ _ ∧ _ ∧ _ ∧ _ ∧ _ := by simpa only [Island.account, State.refit, Prod.mk.injEq] using hi
  have hgr : i.heldGr = s.isl[n].heldGr := by unfold Island.heldGr; rw [hheld]
  have hrs : i.heldRsv = s.isl[n].heldRsv := by unfold Island.heldRsv; rw [hheld]
  have hpo : i.powered = s.isl[n].powered := by unfold Island.powered; rw [hpow]
  obtain ⟨hfree, hload, hnext, hbase, hsent⟩ := hf
  replace hfree : s.isl[n].charging = false → s.isl[n].rsv = 0 := hfree
  replace hload : s.isl[n].heldGr + s.isl[n].heldRsv + l.admGr ≤ 60 := hload
  unfold Island.grainsOk
  rw [hgr, hrs, hpo, hch, hrsv, hled]
  refine ⟨fun hc => ?_, ?_, hnext, hbase, hsent⟩
  · rw [if_neg (by rw [hc]; exact Bool.false_ne_true)]
    exact hfree hc
  · unfold State.grant Island.room
    split
    · omega
    · rename_i hc
      have := hfree (Bool.eq_false_iff.2 hc)
      omega

theorem State.sendRung_islandsOk (h : s.islandsOk) : (s.sendRung n).islandsOk := by
  rcases s.sendRung_spec n with hs | ⟨hwait, hpend, -, l, hl, hu⟩
  · rwa [hs]
  · obtain ⟨hfree, hload, hnext, hbase, -⟩ := h n
    have hnext := hnext hwait
    refine State.islandsOk_change n (fun k hk => congrArg _ (s.sendRung_other n hk)) h (Island.grainsOk_refit hu ⟨hfree, ?_, ?_, hbase, ?_⟩)
    · change s.isl[n].heldGr + s.isl[n].heldRsv + l.admGr ≤ 60
      rcases hl with rfl | rfl | rfl <;> dsimp only <;> omega
    · rcases hl with rfl | rfl | rfl
      · exact fun h => absurd h Bool.false_ne_true
      · exact fun h => absurd h Bool.false_ne_true
      · exact fun _ => hnext
    · rcases hl with rfl | rfl | rfl
      · exact fun hp => absurd (hpend.symm.trans hp) Bool.false_ne_true
      · exact fun _ => Nat.le_max_right ..
      · exact fun hp => absurd (hpend.symm.trans hp) Bool.false_ne_true

theorem State.fitRsv_admittedOk (h : s.admittedOk) : (s.fitRsv n).admittedOk := by
  obtain ⟨hsame, hother⟩ := s.fitRsv_spec n
  obtain ⟨-, -, -, -, hheld, hled⟩ : _ ∧ _ ∧ _ ∧ _ ∧ _ ∧ _ := by simpa only [Island.account, Prod.mk.injEq] using hsame
  refine State.admittedOk_change (s := s) n rfl (fun k hk => congrArg _ (hother k hk)) h (.inl ?_) ?_
  · unfold Island.charged Island.heldGr
    rw [hheld, hled]
  · rw [hled]
    exact h.2 n

/-- The reserve grant follows where the rest of the island's grains fits. -/
theorem State.fitRsv_islandsOk (ho : ∀ k : IslandNo, k ≠ n → s.isl[k].grainsOk) (hf : s.isl[n].fits) : (s.fitRsv n).islandsOk := fun k => by
  obtain ⟨hsame, hother⟩ := s.fitRsv_spec n
  by_cases hk : k = n
  · subst hk
    exact Island.grainsOk_refit hsame hf
  · rw [hother k hk]
    exact ho k hk

/-- A change of one island, before its reserve grant follows. -/
theorem State.modIsl_fitRsv_islandsOk (h : s.islandsOk) (f : Island → Island) (hf : (f s.isl[n]).fits) :
    ((s.modIsl n f).fitRsv n).islandsOk := by
  refine State.fitRsv_islandsOk (fun k hk => ?_) ?_
  · rw [State.modIsl_other s n k f hk]
    exact h k
  · rw [State.modIsl_same]
    exact hf

/-- A change of one island that charges it no more. -/
theorem State.modIsl_admittedOk (h : s.admittedOk) (f : Island → Island) (hle : (f s.isl[n]).charged ≤ s.isl[n].charged)
    (hp : (f s.isl[n]).led.pending = true → (f s.isl[n]).led.sentGr ≤ (f s.isl[n]).led.admGr) : (s.modIsl n f).admittedOk := by
  refine State.admittedOk_change (s := s) n rfl (fun k hk => s.modIsl_account_other n f hk) h (.inl ?_) ?_
  · rw [State.modIsl_same]
    exact hle
  · rw [State.modIsl_same]
    exact hp

theorem State.sendRungs_admittedOk (h : s.admittedOk) : s.sendRungs.admittedOk :=
  foldl_islands_keep (P := State.admittedOk) h fun _ _ => State.sendRung_admittedOk
theorem State.sendRungs_islandsOk (h : s.islandsOk) : s.sendRungs.islandsOk :=
  foldl_islands_keep (P := State.islandsOk) h fun _ _ => State.sendRung_islandsOk

/-- The reserve is granted to islands in turn (R48). -/
theorem State.grantCharge_admittedOk (h : s.admittedOk) : s.grantCharge.admittedOk := by
  refine foldl_islands_keep (P := State.admittedOk) h fun v k hv => ?_
  split
  · exact State.fitRsv_admittedOk (State.modIsl_admittedOk hv _ le_rfl (hv.2 k))
  · exact hv

theorem State.grantCharge_islandsOk (h : s.islandsOk) : s.grantCharge.islandsOk := by
  refine foldl_islands_keep (P := State.islandsOk) h fun v k hv => ?_
  split
  · obtain ⟨-, hload, hnext, hbase, hsent⟩ := hv k
    exact State.modIsl_fitRsv_islandsOk hv _ ⟨fun hc => absurd hc.symm Bool.false_ne_true, (Nat.le_add_right _ _).trans hload, hnext, hbase, hsent⟩
  · exact hv

end Arbiter

/-! ## Lowered requests -/

/-- Grains of a request. -/
def reqCost (p : Pers) (mode : Nat) (q : Nat × Nat × Nat) : Nat := islandGr p mode q.1 q.2.1 q.2.2

/-- A request that fits stays as it is (R53). -/
theorem lowerReq_fits {p : Pers} {mode limit k : Nat} {q : Nat × Nat × Nat} (h : reqCost p mode q ≤ limit) :
    lowerReq p mode limit k q = q := by
  cases k with
  | zero => rfl
  | succ k =>
    unfold lowerReq
    exact if_pos h

/-- What a request is lowered to: it fits or is nothing; features go before rungs, HART first (R53). -/
theorem lowerReq_spec (p : Pers) (mode limit : Nat) : ∀ (k : Nat) (q : Nat × Nat × Nat), q.1 + q.2.1 + q.2.2 ≤ k →
    let a := lowerReq p mode limit k q
    (reqCost p mode a ≤ limit ∨ a = (0, 0, 0)) ∧ a.1 ≤ q.1 ∧ a.2.1 ≤ q.2.1 ∧ a.2.2 ≤ q.2.2 ∧ (a.2.2 < q.2.2 → a.2.1 = 0) ∧
      (a.1 < q.1 → a.2.1 = 0 ∧ a.2.2 = 0) := by
  intro k
  induction k with
  | zero =>
    rintro ⟨r, h, c⟩ hk
    obtain ⟨rfl, rfl, rfl⟩ : r = 0 ∧ h = 0 ∧ c = 0 := by dsimp only at hk; omega
    simp [lowerReq]
  | succ k ih =>
    rintro ⟨r, h, c⟩ hk
    dsimp only at hk
    unfold lowerReq
    split
    · rename_i hfit
      exact ⟨.inl hfit, le_rfl, le_rfl, le_rfl, fun h => absurd h (lt_irrefl _), fun h => absurd h (lt_irrefl _)⟩
    · split
      · obtain ⟨hend, h1, h2, h3, h4, h5⟩ := ih (r, h - 1, c) (by dsimp only; omega)
        exact ⟨hend, h1, h2.trans (Nat.sub_le ..), h3, h4, h5⟩
      · split
        · obtain ⟨hend, h1, h2, h3, h4, h5⟩ := ih (r, h, c - 1) (by dsimp only; omega)
          dsimp only at h2 h3 ⊢
          exact ⟨hend, h1, h2, h3.trans (Nat.sub_le ..), fun _ => by omega, h5⟩
        · split
          · obtain ⟨hend, h1, h2, h3, h4, h5⟩ := ih (r - 1, h, c) (by dsimp only; omega)
            dsimp only at h1 h2 h3 ⊢
            exact ⟨hend, h1.trans (Nat.sub_le ..), h2, h3, h4, fun _ => by omega⟩
          · obtain ⟨rfl, rfl, rfl⟩ : r = 0 ∧ h = 0 ∧ c = 0 := by omega
            simp

/-! ## Admission of one island -/

section Admission

variable {s : State} {n : IslandNo}

/-- The island takes rung 0 alone: its reservoir is not OK, or the device is in Park (R57, R367). -/
def State.holdsBack (s : State) (n : IslandNo) : Bool := !s.isl[n].ready || s.parked

/-- The request that an admission takes up. -/
def State.takesUp (s : State) (n : IslandNo) : Nat × Nat × Nat := if s.holdsBack n then (0, 0, 0) else s.isl[n].led.request

/-- What it is lowered to within the limit. -/
def State.lowered (s : State) (n : IslandNo) (limit : Nat) : Nat × Nat × Nat :=
  lowerReq (s.pers n) (s.modeGr n) (min s.isl[n].room limit) 7 (s.takesUp n)

/-- The ledger of the island with that admission, which waits. -/
def State.admits (s : State) (n : IslandNo) (limit : Nat) : Ledger :=
  let a := s.lowered n limit
  { s.isl[n].led with
    admRung := BitVec.ofNat 2 a.1, admHart := BitVec.ofNat 2 a.2.1, admChar := decide (a.2.2 ≠ 0),
    nextGr := reqCost (s.pers n) (s.modeGr n) a, waitGr := true, clamped := !s.holdsBack n && decide (a ≠ s.takesUp n) }

theorem State.clamped_isl (s : State) (m : Master) (k : Nat) : (s.clamped m k).isl = s.isl := by
  unfold State.clamped
  split <;> rfl

theorem State.admitWithin_eq (s : State) (n : IslandNo) (m : Master) (limit : Nat) : ∃ v : State, s.admitWithin n m limit = v.sendRung n ∧
    v.unled = s.unled ∧ v.isl = (s.modIsl n (fun i => { i with led := s.admits n limit })).isl := by
  have hclamp (p : Prop) [Decidable p] (u : State) : (if p then u.clamped m 1 else u).isl = u.isl ∧
      (if p then u.clamped m 1 else u).unled = u.unled := by
    split
    · exact ⟨u.clamped_isl m 1, u.clamped_unled m 1⟩
    · exact ⟨rfl, rfl⟩
  exact ⟨_, rfl, (hclamp _ _).2.trans (s.unled_modIsl n _ fun _ => rfl), (hclamp _ _).1⟩

theorem State.admitWithin_other (s : State) (n : IslandNo) (m : Master) (limit : Nat) {k : IslandNo} (hk : k ≠ n) :
    (s.admitWithin n m limit).isl[k] = s.isl[k] := by
  obtain ⟨v, hu, -, hi⟩ := s.admitWithin_eq n m limit
  rw [hu, State.sendRung_other v n hk, hi]
  exact s.modIsl_other n k _ hk

theorem Ledger.request_le (l : Ledger) : l.request.1 ≤ 3 ∧ l.request.2.1 ≤ 3 ∧ l.request.2.2 ≤ 1 := by
  unfold Ledger.request
  split
  · simp
  · have h1 := l.reqRung.isLt
    have h2 := l.reqHart.isLt
    refine ⟨by dsimp only; omega, by dsimp only; omega, ?_⟩
    dsimp only
    unfold b2n
    split <;> omega

theorem State.takesUp_le (s : State) (n : IslandNo) : (s.takesUp n).1 ≤ 3 ∧ (s.takesUp n).2.1 ≤ 3 ∧ (s.takesUp n).2.2 ≤ 1 := by
  unfold State.takesUp
  split
  · simp
  · exact Ledger.request_le _

/-- What an admission grants is what a lowered request is. -/
theorem State.lowered_spec (s : State) (n : IslandNo) (limit : Nat) :
    let a := s.lowered n limit
    let q := s.takesUp n
    (reqCost (s.pers n) (s.modeGr n) a ≤ min s.isl[n].room limit ∨ a = (0, 0, 0)) ∧ a.1 ≤ q.1 ∧ a.2.1 ≤ q.2.1 ∧ a.2.2 ≤ q.2.2 ∧
      (a.2.2 < q.2.2 → a.2.1 = 0) ∧ (a.1 < q.1 → a.2.1 = 0 ∧ a.2.2 = 0) := by
  obtain ⟨h1, h2, h3⟩ := s.takesUp_le n
  exact lowerReq_spec _ _ _ 7 _ (by omega)

theorem ladder_base (p : Pers) : (ladder p).getD 0 0 ≤ 8 := by cases p <;> decide

/-- The grains of an admission fit beside what a powered island has still to return (R49). -/
theorem State.admits_fits (hp : s.isl[n].powered = true) (h : s.isl[n].grainsOk) (limit : Nat) :
    s.isl[n].heldGr + s.isl[n].heldRsv + (s.admits n limit).nextGr ≤ 60 := by
  obtain ⟨-, -, -, hbase, -⟩ := h
  have hbase := hbase hp
  obtain ⟨hcost, -⟩ := s.lowered_spec n limit
  have hroom : s.isl[n].room = 60 - s.isl[n].heldGr - s.isl[n].heldRsv := rfl
  change s.isl[n].heldGr + s.isl[n].heldRsv + reqCost (s.pers n) (s.modeGr n) (s.lowered n limit) ≤ 60
  rcases hcost with hcost | hcost
  · omega
  · have hladder := ladder_base (s.pers n)
    have hzero : reqCost (s.pers n) (s.modeGr n) (s.lowered n limit) = (ladder (s.pers n)).getD 0 0 := by rw [hcost]; rfl
    omega

theorem State.admitWithin_admittedOk (h : s.admittedOk) (m : Master) (limit : Nat) : (s.admitWithin n m limit).admittedOk := by
  obtain ⟨v, hu, hv, hi⟩ := s.admitWithin_eq n m limit
  have hm : v.member = s.member := State.unled_member hv
  rw [hu]
  refine State.sendRung_admittedOk ((State.admittedOk_congr (s := s.modIsl n (fun i => { i with led := s.admits n limit }))
    hm fun k => by rw [hi]).2 ?_)
  exact State.modIsl_admittedOk h _ le_rfl (h.2 n)

theorem State.admitWithin_islandsOk (h : s.islandsOk) (hp : s.isl[n].powered = true) (m : Master) (limit : Nat) :
    (s.admitWithin n m limit).islandsOk := by
  obtain ⟨v, hu, -, hi⟩ := s.admitWithin_eq n m limit
  rw [hu]
  refine State.sendRung_islandsOk ((State.islandsOk_congr (s := s.modIsl n (fun i => { i with led := s.admits n limit }))
    fun k => by rw [hi]).2 ?_)
  obtain ⟨hfree, hload, -, hbase, hsent⟩ := h n
  refine State.islandsOk_change n (fun k hk => s.modIsl_account_other n _ hk) h ?_
  rw [State.modIsl_same]
  exact ⟨hfree, hload, fun _ => State.admits_fits hp (h n) limit, hbase, hsent⟩

theorem State.admitRungs_admittedOk (h : s.admittedOk) (m : Master) : (s.admitRungs n m).admittedOk := by
  unfold State.admitRungs
  split
  · exact State.admitWithin_admittedOk h m _
  · exact h

theorem State.admitRungs_islandsOk (h : s.islandsOk) (m : Master) : (s.admitRungs n m).islandsOk := by
  unfold State.admitRungs
  split
  · rename_i hgo
    exact State.admitWithin_islandsOk h (Bool.and_eq_true_iff.1 hgo).1 m _
  · exact h

theorem State.admitRungs_other (s : State) (n : IslandNo) (m : Master) {k : IslandNo} (hk : k ≠ n) : (s.admitRungs n m).isl[k] = s.isl[k] := by
  unfold State.admitRungs
  split
  · exact s.admitWithin_other n m _ hk
  · rfl

/-! ## Passes over the islands -/

theorem State.running_powered (h : s.running n = true) : s.isl[n].powered = true := by
  have hp : s.isl[n].power = .running := of_decide_eq_true h
  unfold Island.powered
  rw [hp]
  rfl

/-- Admissions in turn keep the sum and the islands' grains. -/
theorem foldl_admitRungs_ok (l : List IslandNo) (m : Master) :
    (s.admittedOk → (l.foldl (fun s n => s.admitRungs n m) s).admittedOk) ∧
      (s.islandsOk → (l.foldl (fun s n => s.admitRungs n m) s).islandsOk) :=
  ⟨fun h => List.foldlRecOn (motive := State.admittedOk) l _ h fun _ hv _ _ => State.admitRungs_admittedOk hv m,
    fun h => List.foldlRecOn (motive := State.islandsOk) l _ h fun _ hv _ _ => State.admitRungs_islandsOk hv m⟩

/-- The check for the end of PARKING changes the power state alone. -/
theorem State.parkCheck_spec (s : State) : ∃ q, s.parkCheck = { s with pow := { s.pow with ps := q } } ∧ (s.pow.ps ≠ .parking → q = s.pow.ps) := by
  unfold State.parkCheck
  split
  · rename_i hp
    exact ⟨_, rfl, fun h => absurd hp.1 h⟩
  · exact ⟨_, rfl, fun _ => rfl⟩

theorem State.parkCheck_admittedOk (h : s.admittedOk) : s.parkCheck.admittedOk := by
  obtain ⟨q, hq, -⟩ := s.parkCheck_spec
  rw [hq]
  exact h
theorem State.parkCheck_islandsOk (h : s.islandsOk) : s.parkCheck.islandsOk := by
  obtain ⟨q, hq, -⟩ := s.parkCheck_spec
  rw [hq]
  exact h

/-- Lowering every island for Park keeps the sum and the islands' grains (R366). -/
theorem State.parkAll_ok (m : Master) : (s.admittedOk → (s.parkAll m).admittedOk) ∧ (s.islandsOk → (s.parkAll m).islandsOk) := by
  constructor
  · intro h
    refine State.parkCheck_admittedOk (foldl_islands_keep (P := State.admittedOk) h fun v k hv => ?_)
    split
    · exact State.admitWithin_admittedOk hv m 60
    · exact hv
  · intro h
    refine State.parkCheck_islandsOk (foldl_islands_keep (P := State.islandsOk) h fun v k hv => ?_)
    split
    · rename_i hgo
      exact State.admitWithin_islandsOk hv (State.running_powered (Bool.and_eq_true_iff.1 hgo).1) m 60
    · exact hv

/-- The plan of a full pass keeps the sum, and the grains of powered islands (R53, R54). -/
theorem State.passPlan_admittedOk (l : List IslandNo) : ∀ (s : State) (free : Nat), s.admittedOk → (s.passPlan free l).admittedOk := by
  induction l with
  | nil => exact fun _ _ h => h
  | cons n l ih => exact fun s free h => ih _ _ (State.admitWithin_admittedOk h .slate _)

theorem State.passPlan_islandsOk (l : List IslandNo) : ∀ (s : State) (free : Nat), (∀ n ∈ l, s.isl[n].powered = true) → s.islandsOk →
    (s.passPlan free l).islandsOk := by
  induction l with
  | nil => exact fun _ _ _ h => h
  | cons n l ih =>
    refine fun s free hp h => ih _ _ (fun k hk => ?_) (State.admitWithin_islandsOk h (hp n (.head _)) .slate _)
    rw [← hp k (.tail _ hk)]
    unfold Island.powered
    rw [State.unled_power (s.admitWithin_unled n .slate _) k]

theorem State.fullPass_ok : (s.admittedOk → s.fullPass.admittedOk) ∧ (s.islandsOk → s.fullPass.islandsOk) := by
  refine ⟨fun h => State.sendRungs_admittedOk (State.passPlan_admittedOk _ _ _ h), fun h =>
    State.sendRungs_islandsOk (State.passPlan_islandsOk _ _ _ (fun n hn => ?_) h)⟩
  exact (Bool.and_eq_true_iff.1 (List.mem_filter.1 hn).2).1

/-- The ledger of the island with the request fields that a LEDGER write leaves (R61). -/
def State.requests (s : State) (n : IslandNo) (w : Word) : Ledger :=
  { s.isl[n].led with
    reqRung := BitVec.ofNat 2 (min (fld w 0 2) (topRung (s.pers n))),
    reqHart := BitVec.ofNat 2 (if (s.recAt n 0).getLsbD 4 then min (fld w 2 2) 2 else 0),
    reqChar := w.getLsbD 4 && (s.pers n).analog && decide (fld (s.recAt n 0) 28 2 ≠ 0) }

theorem State.setRequest_isl (s : State) (n : IslandNo) (w : Word) (m : Master) :
    (s.setRequest n w m).isl = (s.modIsl n (fun i => { i with led := s.requests n w })).isl := by
  unfold State.setRequest
  extract_lets p r h c k v
  exact v.clamped_isl m k

theorem State.setRequest_ok (w : Word) (m : Master) : (s.admittedOk → (s.setRequest n w m).admittedOk) ∧
    (s.islandsOk → (s.setRequest n w m).islandsOk) := by
  have hi := s.setRequest_isl n w m
  have hm : (s.setRequest n w m).member = s.member := State.unled_member (s.setRequest_unled n w m)
  generalize s.setRequest n w m = v at hi hm ⊢
  refine ⟨fun h => ?_, fun h => ?_⟩
  · exact (State.admittedOk_congr (s := s.modIsl n (fun i => { i with led := s.requests n w })) hm fun k => by rw [hi]).2
      (State.modIsl_admittedOk h _ le_rfl (h.2 n))
  · refine (State.islandsOk_congr (s := s.modIsl n (fun i => { i with led := s.requests n w })) fun k => by rw [hi]).2
      (State.islandsOk_change n (fun k hk => s.modIsl_account_other n _ hk) h ?_)
    rw [State.modIsl_same]
    exact h n

end Admission

/-! ## Kills

A kill clears one island; the checks and grants that follow it go through the arbiter's operations. -/

/-- The island without its power: what the ledger charges to it is still to return (R43). -/
def Island.killed (p : IslPower) (i : Island) : Island :=
  { i with power := p, en := false, held := i.held ++ [(i.led.admGr, i.rsv)], charging := false, waitCharge := false, rsv := 0,
           dnTx := 0, dnRx := 0, upTx := 0, upRx := 0, symBad := 0,
           led := { i.led with pending := false, waitGr := false, admGr := 0, nextGr := 0, sentGr := 0 } }

/-- The state once the island is cleared, before the checks of a kill. -/
def State.cleared (s : State) (n : IslandNo) (p : IslPower) : State :=
  let s := { s with due := s.due.filter (fun e => courseOf e.2 ≠ some n), transit := s.transit.filter (fun e => e.2.isl ≠ some n),
                    ledq := s.ledq.filter (fun q => decide (q.2 ≠ LedgerReq.resOk n)) }
  let s := s.modIsl n (Island.killed p)
  ((((s.discardCells n).loopStop n 3 7).leaveRunning n).owe 512 (.grainRelease n)).tapChanged

theorem State.kill_eq (s : State) (n : IslandNo) (p : IslPower) :
    s.kill n p = (((((s.cleared n p).parkCheck).sendRungs).grantCharge).ackChecks).dormantCheck := (rfl)

theorem State.cleared_account (s : State) (n : IslandNo) (p : IslPower) : (s.cleared n p).account = (s.modIsl n (Island.killed p)).account := by
  unfold State.cleared
  simp only [State.tapChanged_account, State.owe_account, State.leaveRunning_account, State.loopStop_account, State.discardCells_account]
  rfl

/-- The check for the beginning of DORMANT changes the power state alone. -/
theorem State.dormantCheck_spec (s : State) : ∃ q, s.dormantCheck = { s with pow := { s.pow with ps := q } } ∧
    (s.pow.ps ≠ .toDormant → q = s.pow.ps) ∧
    (s.pow.ps = .toDormant → q = if (∀ n : IslandNo, s.isl[n].powered = false) ∧ s.admitted = 0 then .dormant else .toDormant) := by
  have hall : islands.all (fun n => !s.isl[n].powered) = true ↔ ∀ n : IslandNo, s.isl[n].powered = false := by
    rw [List.all_eq_true]
    exact ⟨fun h n => (Bool.not_eq_true' _).mp (h n (mem_islands n)), fun h n _ => (Bool.not_eq_true' _).mpr (h n)⟩
  unfold State.dormantCheck
  split
  · rename_i hp
    exact ⟨_, rfl, fun h => absurd hp.1 h, fun _ => (if_pos ⟨hall.1 hp.2.1, hp.2.2⟩).symm⟩
  · rename_i hp
    refine ⟨_, rfl, fun _ => rfl, fun h => h.trans (if_neg fun hq => hp ⟨h, hall.2 hq.1, hq.2⟩).symm⟩

/-! ### What a kill keeps of the ledger -/

section Kept

variable {s : State} {n : IslandNo}

theorem State.dormantCheck_admittedOk (h : s.admittedOk) : s.dormantCheck.admittedOk := by
  obtain ⟨q, hq, -⟩ := s.dormantCheck_spec
  rw [hq]
  exact h
theorem State.dormantCheck_islandsOk (h : s.islandsOk) : s.dormantCheck.islandsOk := by
  obtain ⟨q, hq, -⟩ := s.dormantCheck_spec
  rw [hq]
  exact h

theorem State.admittedOk_of_account {s u : State} (hu : u.account = s.account) (h : s.admittedOk) : u.admittedOk :=
  (State.admittedOk_congr (State.account_member hu) (State.account_isl hu)).2 h
theorem State.islandsOk_of_account {s u : State} (hu : u.account = s.account) (h : s.islandsOk) : u.islandsOk :=
  (State.islandsOk_congr (State.account_isl hu)).2 h

theorem Island.killed_grains (p : IslPower) (i : Island) : (i.killed p).heldGr = i.heldGr + i.led.admGr ∧
    (i.killed p).heldRsv = i.heldRsv + i.rsv := by
  simp [Island.killed, Island.heldGr, Island.heldRsv]

theorem State.kill_admittedOk (h : s.admittedOk) (p : IslPower) : (s.kill n p).admittedOk := by
  rw [State.kill_eq]
  refine State.dormantCheck_admittedOk (State.admittedOk_of_account (State.ackChecks_account _) (State.grantCharge_admittedOk
    (State.sendRungs_admittedOk (State.parkCheck_admittedOk (State.admittedOk_of_account (s.cleared_account n p) ?_)))))
  refine State.modIsl_admittedOk h _ (le_of_eq ?_) fun hp => absurd hp Bool.false_ne_true
  change 0 + (s.isl[n].killed p).heldGr = s.isl[n].led.admGr + s.isl[n].heldGr
  rw [(Island.killed_grains p _).1]
  omega

theorem State.kill_islandsOk (h : s.islandsOk) {p : IslPower} (hp : p = .bedrock ∨ p = .lost) : (s.kill n p).islandsOk := by
  rw [State.kill_eq]
  refine State.dormantCheck_islandsOk (State.islandsOk_of_account (State.ackChecks_account _) (State.grantCharge_islandsOk
    (State.sendRungs_islandsOk (State.parkCheck_islandsOk (State.islandsOk_of_account (s.cleared_account n p) ?_)))))
  refine State.islandsOk_change n (fun k hk => s.modIsl_account_other n _ hk) h ?_
  obtain ⟨-, hload, -, -, -⟩ := h n
  obtain ⟨hgr, hrsv⟩ := Island.killed_grains p s.isl[n]
  rw [State.modIsl_same]
  refine ⟨fun _ => rfl, ?_, fun hw => absurd hw Bool.false_ne_true, fun hpow => ?_, fun hp => absurd hp Bool.false_ne_true⟩
  · change (s.isl[n].killed p).heldGr + (s.isl[n].killed p).heldRsv + 0 + 0 ≤ 60
    omega
  · rcases hp with rfl | rfl <;> exact absurd hpow (by simp [Island.powered, Island.killed])

/-- What an island is marked with when it is declared lost. -/
def State.outOfReach (s : State) (n : IslandNo) : State :=
  State.modIsl (if s.inPhase then s.modIsl n (fun i => { i with slateFail := true }) else s) n (fun i => { i with down0 := true })

theorem State.outOfReach_account (s : State) (n : IslandNo) : (s.outOfReach n).account = s.account := by
  simp [State.outOfReach, State.account_modIsl, Island.account_eq]

theorem State.lose_account (s : State) (n : IslandNo) : (s.lose n).account = ((s.outOfReach n).kill n .lost).account := by
  have h (v : State) : (v.raise 0x11 (0x30 + BitVec.ofNat 8 n.val) 0 0 0 0 false).account = v.account := State.raiseAt_account ..
  exact h ((s.outOfReach n).kill n .lost)

/-- A loss keeps the sum and the islands' grains. -/
theorem State.lose_ok : (s.admittedOk → (s.lose n).admittedOk) ∧ (s.islandsOk → (s.lose n).islandsOk) :=
  ⟨fun h => State.admittedOk_of_account (s.lose_account n) (State.kill_admittedOk (State.admittedOk_of_account (s.outOfReach_account n) h) _),
    fun h => State.islandsOk_of_account (s.lose_account n) (State.kill_islandsOk (State.islandsOk_of_account (s.outOfReach_account n) h) (.inr rfl))⟩

/-! ### Returns -/

/-- Grains that return are charged no more (R43). -/
theorem Island.heldGr_tail (i : Island) : (List.map Prod.fst i.held.tail).sum ≤ i.heldGr ∧ (List.map Prod.snd i.held.tail).sum ≤ i.heldRsv := by
  unfold Island.heldGr Island.heldRsv
  cases i.held with
  | nil => exact ⟨le_rfl, le_rfl⟩
  | cons g l => exact ⟨Nat.le_add_left _ _, Nat.le_add_left _ _⟩

/-- The grains of the oldest kill return. -/
def Island.returned (i : Island) : Island :=
  { i with held := i.held.tail, led := if i.powered then i.led else { i.led with admRung := 0, admHart := 0, admChar := false, clamped := false } }

theorem Island.returned_led (i : Island) : i.returned.led.admGr = i.led.admGr ∧ i.returned.led.pending = i.led.pending ∧
    i.returned.led.sentGr = i.led.sentGr ∧ i.returned.led.waitGr = i.led.waitGr ∧ i.returned.led.nextGr = i.led.nextGr := by
  unfold Island.returned
  dsimp only
  split <;> exact ⟨rfl, rfl, rfl, rfl, rfl⟩

theorem State.released_ok : (s.admittedOk → (((((s.modIsl n Island.returned).fitRsv n).grantCharge).sendRungs).dormantCheck).admittedOk) ∧
    (s.islandsOk → (((((s.modIsl n Island.returned).fitRsv n).grantCharge).sendRungs).dormantCheck).islandsOk) := by
  obtain ⟨hadm, hpend, hsent, hwait, hnext⟩ := Island.returned_led s.isl[n]
  obtain ⟨hgr, hrsv⟩ := Island.heldGr_tail s.isl[n]
  constructor
  · intro h
    refine State.dormantCheck_admittedOk (State.sendRungs_admittedOk (State.grantCharge_admittedOk (State.fitRsv_admittedOk ?_)))
    refine State.modIsl_admittedOk h _ ?_ ?_
    · change s.isl[n].returned.led.admGr + _ ≤ s.isl[n].led.admGr + s.isl[n].heldGr
      rw [hadm]
      exact Nat.add_le_add_left hgr _
    · rw [hpend, hsent, hadm]
      exact h.2 n
  · intro h
    refine State.dormantCheck_islandsOk (State.sendRungs_islandsOk (State.grantCharge_islandsOk (State.modIsl_fitRsv_islandsOk h _ ?_)))
    obtain ⟨hfree, hload, hnextOk, hbase, hsentOk⟩ := h n
    replace hgr : s.isl[n].returned.heldGr ≤ s.isl[n].heldGr := hgr
    replace hrsv : s.isl[n].returned.heldRsv ≤ s.isl[n].heldRsv := hrsv
    unfold Island.fits
    rw [hadm, hpend, hsent, hwait, hnext]
    exact ⟨hfree, by omega, fun hw => by have := hnextOk hw; omega, fun hp => by have := hbase hp; omega, hsentOk⟩

/-- A charging place that returns leaves the sum and the islands' grains. -/
theorem State.endCharge_ok : (s.admittedOk → (s.endCharge n).admittedOk) ∧ (s.islandsOk → (s.endCharge n).islandsOk) := by
  refine ⟨fun h => State.grantCharge_admittedOk (State.modIsl_admittedOk h _ le_rfl (h.2 n)), fun h => State.grantCharge_islandsOk
    (State.islandsOk_change n (fun k hk => s.modIsl_account_other n _ hk) h ?_)⟩
  obtain ⟨-, hload, hnext, hbase, hsent⟩ := h n
  rw [State.modIsl_same]
  exact ⟨fun _ => rfl, (Nat.le_add_right _ _).trans hload, hnext, hbase, hsent⟩

/-- The rungs of a change in progress are in force: the grains that stand for them are charged (R56). -/
theorem State.rungDone_ok : (s.admittedOk → (s.rungDone n).admittedOk) ∧ (s.islandsOk → (s.rungDone n).islandsOk) := by
  unfold State.rungDone
  split
  · rename_i hpend
    obtain ⟨hsame, hother⟩ := (s.modIsl n (fun i => { i with led := { i.led with pending := false } })).charge_spec n s.isl[n].led.sentGr
    have hrest : ∀ k, k ≠ n → ((s.modIsl n (fun i => { i with led := { i.led with pending := false } })).charge n
        s.isl[n].led.sentGr).isl[k].account = s.isl[k].account := fun k hk => congrArg _ ((hother k hk).trans (s.modIsl_other n k _ hk))
    have hacc : ((s.modIsl n (fun i => { i with led := { i.led with pending := false } })).charge n s.isl[n].led.sentGr).isl[n].account =
        s.refit n { s.isl[n].led with pending := false, admGr := s.isl[n].led.sentGr } := by
      refine hsame.trans ?_
      unfold State.refit State.grant
      rw [State.modIsl_same]
      rfl
    have hmem : ((s.modIsl n (fun i => { i with led := { i.led with pending := false } })).charge n s.isl[n].led.sentGr).member =
        s.member := rfl
    generalize (s.modIsl n (fun i => { i with led := { i.led with pending := false } })).charge n s.isl[n].led.sentGr = v at hrest hacc hmem ⊢
    refine ⟨fun h => State.parkCheck_admittedOk (State.sendRungs_admittedOk (State.admittedOk_change n hmem hrest h (.inl ?_) ?_)),
      fun h => State.parkCheck_islandsOk (State.sendRungs_islandsOk (State.islandsOk_change n hrest h (Island.grainsOk_refit hacc ?_)))⟩
    · obtain ⟨-, -, -, -, hheld, hled⟩ : _ ∧ _ ∧ _ ∧ _ ∧ _ ∧ _ := by simpa only [Island.account, State.refit, Prod.mk.injEq] using hacc
      have := h.2 n hpend
      unfold Island.charged Island.heldGr
      rw [hheld, hled]
      dsimp only
      omega
    · obtain ⟨-, -, -, -, hheld, hled⟩ : _ ∧ _ ∧ _ ∧ _ ∧ _ ∧ _ := by simpa only [Island.account, State.refit, Prod.mk.injEq] using hacc
      rw [hled]
      exact fun hp => absurd hp Bool.false_ne_true
    · obtain ⟨hfree, hload, hnext, hbase, hsent⟩ := h n
      have := hsent hpend
      refine ⟨hfree, ?_, hnext, hbase, fun hp => absurd hp Bool.false_ne_true⟩
      change s.isl[n].heldGr + s.isl[n].heldRsv + s.isl[n].led.sentGr ≤ 60
      omega
  · exact ⟨id, id⟩

end Kept

/-! ## What the ledger's rows keep -/

/-- The grains of all islands are within the arbiter's share, and those of each within 60 gr. -/
def State.grainsKept (s : State) : Prop := s.admittedOk ∧ s.islandsOk

section Rows

variable {s : State} {n : IslandNo}

theorem State.grainsKept_of_account {s u : State} (hu : u.account = s.account) (h : s.grainsKept) : u.grainsKept :=
  ⟨State.admittedOk_of_account hu h.1, State.islandsOk_of_account hu h.2⟩

/-- What keeps each of the two keeps both. -/
theorem State.grainsKept_of {s u : State} (h : (s.admittedOk → u.admittedOk) ∧ (s.islandsOk → u.islandsOk)) (hs : s.grainsKept) :
    u.grainsKept := ⟨h.1 hs.1, h.2 hs.2⟩

/-- An arbiter that takes a request is busy, and owes the end of it. -/
theorem State.busied_account (s : State) (k : Nat) (c : Instr) : (({ s with busy := true } : State).owe k c).account = s.account :=
  State.owe_account _ k c

theorem State.readmitAll_ok (m : Master) : (s.admittedOk → (s.readmitAll m).admittedOk) ∧ (s.islandsOk → (s.readmitAll m).islandsOk) := by
  unfold State.readmitAll
  exact foldl_admitRungs_ok _ m

theorem State.unparkAll_ok (m : Master) : (s.admittedOk → (s.unparkAll m).admittedOk) ∧ (s.islandsOk → (s.unparkAll m).islandsOk) := by
  unfold State.unparkAll
  exact foldl_admitRungs_ok _ m

theorem State.ledq_account (s : State) (q : List (Tick × LedgerReq)) : ({ s with ledq := q } : State).account = s.account := (rfl)

theorem State.ledPut_account (s : State) (q : LedgerReq) : (s.ledPut q).account = s.account := rfl

theorem ite_keeps {P : State → Prop} {u v : State} (p : Prop) [Decidable p] (hu : P u) (hv : P v) : P (if p then u else v) := by
  split <;> assumption

/-- Each request that the arbiter takes keeps the ledger's grains. -/
theorem State.ledTake_grainsKept (h : s.grainsKept) (q : LedgerReq) : (s.ledTake q).grainsKept := by
  have hbusy (v : State) (k : Nat) (hv : v.grainsKept) : (({ v with busy := true } : State).owe k .admissionComplete).grainsKept :=
    State.grainsKept_of_account (v.busied_account k _) hv
  have hadmit (v : State) (k : IslandNo) (m : Master) (hv : v.grainsKept) : (v.admitRungs k m).grainsKept :=
    ⟨State.admitRungs_admittedOk hv.1 m, State.admitRungs_islandsOk hv.2 m⟩
  cases q with
  | write k w m => exact hbusy _ _ (hadmit _ k m (State.grainsKept_of (State.setRequest_ok w m) h))
  | resOk k => exact hbusy _ _ (hadmit s k .ledger h)
  | readmit m => exact hbusy _ _ (State.grainsKept_of (State.readmitAll_ok m) h)
  | unpark m => exact hbusy _ _ (State.grainsKept_of (State.unparkAll_ok m) h)
  | park m => exact ite_keeps (P := State.grainsKept) _ (State.grainsKept_of (State.parkAll_ok m) h) h

theorem State.ledNext_grainsKept (h : s.grainsKept) : s.ledNext.grainsKept := by
  unfold State.ledNext
  split
  · exact h
  · split
    · exact State.ledTake_grainsKept (State.grainsKept_of_account (s.ledq_account _) h) _
    · exact h

theorem Island.shown_account (i : Island) : i.shown.account = i.account := (rfl)

theorem State.ledEdge_grainsKept (h : s.grainsKept) : s.ledEdge.grainsKept := by
  unfold State.ledEdge
  split
  · exact State.grainsKept_of_account (s.ledNext.account_mapIsl Island.shown Island.shown_account) (State.ledNext_grainsKept h)
  · exact h

/-! ### The answers of rows -/

theorem act_keeps {P : State → Prop} {f : State → State} (h : P s) (hf : P (f s)) : ∃ u, s.act f = .next u ∧ P u :=
  ⟨_, rfl, ite_keeps _ hf h⟩

theorem timed_keeps {c : Instr} {f : State → State} (h : s.grainsKept) (hf : ∀ u : State, u.grainsKept → (f u).grainsKept) :
    ∃ u, s.timed c f = .next u ∧ u.grainsKept :=
  act_keeps h (ite_keeps (P := State.grainsKept) _ (hf _ (State.grainsKept_of_account (s.settle_account c) h)) h)

theorem taken_keeps {c : Instr} {f : State → State} (h : s.grainsKept) (hf : ∀ u : State, u.grainsKept → (f u).grainsKept) :
    ∃ u, s.taken c f = .next u ∧ u.grainsKept :=
  ⟨_, rfl, ite_keeps (P := State.grainsKept) _ (hf _ (State.grainsKept_of_account (s.settle_account c) h))
    (ite_keeps (P := State.grainsKept) _ h (State.grainsKept_of_account (s.owe_account 1 c) h))⟩

theorem State.lose_grainsKept (h : s.grainsKept) : (s.lose n).grainsKept := State.grainsKept_of State.lose_ok h

/-- Either way of a row's test keeps the grains. -/
theorem kept_ite {u v : State} (p : Prop) [Decidable p] (hu : u.grainsKept) (hv : v.grainsKept) : (if p then u else v).grainsKept :=
  ite_keeps p hu hv

theorem State.modIsl_grainsKept (h : s.grainsKept) (f : Island → Island) (hf : ∀ i, (f i).account = i.account) : (s.modIsl n f).grainsKept :=
  State.grainsKept_of_account (s.account_modIsl n f hf) h

theorem ledgerWrite_keeps (h : s.grainsKept) (m : Master) (w : Word) : Completes (.ledgerWrite m n w) s State.grainsKept := by
  rw [Completes, exec_ledgerWrite, execLedgerWrite]
  exact act_keeps h (kept_ite _ (State.grainsKept_of_account (s.ledPut_account _) h) (State.grainsKept_of_account (s.accFault_account ..) h))

theorem readmit_keeps (h : s.grainsKept) (m : Master) : Completes (.readmit m) s State.grainsKept := by
  rw [Completes, exec_readmit, execReadmit]
  exact act_keeps h (State.grainsKept_of_account (s.ledPut_account _) h)

theorem admissionComplete_keeps (h : s.grainsKept) : Completes .admissionComplete s State.grainsKept := by
  rw [Completes, exec_admissionComplete, execAdmissionComplete]
  exact timed_keeps h fun _ hu => hu

theorem State.busySlate_grainsKept (h : s.grainsKept) (f : Slate → Slate) : (({ s with busy := true } : State).modSlate f).grainsKept :=
  ⟨(State.admittedOk_congr (s := s) rfl fun _ => rfl).2 h.1, (State.islandsOk_congr (s := s) fun _ => rfl).2 h.2⟩

theorem fullPass_keeps (h : s.grainsKept) : Completes .fullPass s State.grainsKept := by
  rw [Completes, exec_fullPass, execFullPass]
  exact timed_keeps h fun _ hu => kept_ite _ (State.grainsKept_of_account (State.owe_account _ 512 _)
    (State.busySlate_grainsKept (State.grainsKept_of State.fullPass_ok hu) _)) hu

theorem rungAct_keeps (h : s.grainsKept) : Completes (.rungAct n) s State.grainsKept := by
  rw [Completes, exec_rungAct, execRungAct]
  refine act_keeps h (kept_ite _ (State.grainsKept_of State.rungDone_ok (State.grainsKept_of_account (s.settle_account _) h)) (kept_ite _ ?_ h))
  exact State.grainsKept_of_account ((State.owe_account _ _ _).trans (s.arrived_account n .rungAct)) h

theorem grainRelease_keeps (h : s.grainsKept) : Completes (.grainRelease n) s State.grainsKept := by
  rw [Completes, exec_grainRelease, execGrainRelease]
  exact timed_keeps h fun _ hu => kept_ite _ hu (State.grainsKept_of State.released_ok hu)

theorem chargeComplete_keeps (h : s.grainsKept) : Completes (.chargeComplete n) s State.grainsKept := by
  rw [Completes, exec_chargeComplete, execChargeComplete]
  exact taken_keeps h fun _ hu => kept_ite _ (State.grainsKept_of State.endCharge_ok hu) hu

theorem State.cvTakes_account (s : State) (n : IslandNo) (ok : Bool) : (s.cvTakes n ok).account = s.account := by
  simp [State.cvTakes, State.account_modIsl, Island.account_eq]

theorem reservoirOk_keeps (h : s.grainsKept) : Completes (.reservoirOk n) s State.grainsKept := by
  rw [Completes, exec_reservoirOk, execReservoirOk]
  refine taken_keeps h fun u hu => kept_ite _ ?_ (kept_ite _ (State.grainsKept_of_account (u.cvTakes_account n true) hu) hu)
  exact State.grainsKept_of_account ((State.owe_account _ 2048 _).trans (State.ledPut_account _ _)) (State.modIsl_grainsKept hu _ fun _ => rfl)

theorem symbolTimeout_keeps (h : s.grainsKept) : Completes (.symbolTimeout n) s State.grainsKept := by
  rw [Completes, exec_symbolTimeout, execSymbolTimeout]
  have hu := State.grainsKept_of_account (s.settle_account (.symbolTimeout n)) h
  exact act_keeps h (kept_ite _ (State.lose_grainsKept (State.modIsl_grainsKept hu _ fun _ => rfl)) hu)

theorem couplerFault_keeps (h : s.grainsKept) : Completes (.couplerFault n) s State.grainsKept := by
  rw [Completes, exec_couplerFault, execCouplerFault]
  exact taken_keeps h fun _ hu => kept_ite _ (State.lose_grainsKept hu) hu

theorem fatal_keeps (h : s.grainsKept) : Completes (.fatal n) s State.grainsKept := by
  rw [Completes, exec_fatal, execFatal]
  have hu := State.grainsKept_of_account (s.arrived_account n .fatal) h
  exact act_keeps h (kept_ite _ (State.lose_grainsKept hu) hu)

theorem firstSymbolTimeout_keeps (h : s.grainsKept) : Completes (.firstSymbolTimeout n) s State.grainsKept := by
  rw [Completes, exec_firstSymbolTimeout, execFirstSymbolTimeout]
  exact timed_keeps h fun _ hu => kept_ite _ (State.lose_grainsKept hu) hu

/-- The rows that change the ledger keep its grains (R43, R48, R49, R56). -/
theorem ledgerRow_keeps (h : s.grainsKept) (m : Master) (n : IslandNo) (w : Word) (c : Instr)
    (hc : c ∈ [Instr.ledgerWrite m n w, .readmit m, .admissionComplete, .fullPass, .rungAct n, .grainRelease n, .chargeComplete n,
      .reservoirOk n, .symbolTimeout n, .couplerFault n, .fatal n, .firstSymbolTimeout n]) : Completes c s State.grainsKept := by
  simp only [List.mem_cons, List.not_mem_nil, or_false] at hc
  rcases hc with rfl | rfl | rfl | rfl | rfl | rfl | rfl | rfl | rfl | rfl | rfl | rfl
  · exact ledgerWrite_keeps h m w
  · exact readmit_keeps h m
  · exact admissionComplete_keeps h
  · exact fullPass_keeps h
  · exact rungAct_keeps h
  · exact grainRelease_keeps h
  · exact chargeComplete_keeps h
  · exact reservoirOk_keeps h
  · exact symbolTimeout_keeps h
  · exact couplerFault_keeps h
  · exact fatal_keeps h
  · exact firstSymbolTimeout_keeps h

end Rows

/-! ## Powering islands -/

section Powering

variable {s : State} {n : IslandNo}

/-- A base comes out of grains that are still to return, where one kill has it. -/
theorem lessBase_sum : ∀ l : List (Nat × Nat), l.any (fun x => decide (8 ≤ x.1)) = true →
    8 + ((lessBase l).map Prod.fst).sum = (l.map Prod.fst).sum
  | [], h => absurd h Bool.false_ne_true
  | x :: l, h => by
    unfold lessBase
    split
    · rename_i hl
      have := lessBase_sum l hl
      simp only [List.map_cons, List.sum_cons]
      omega
    · rename_i hl
      rw [List.any_cons, Bool.eq_false_iff.2 hl, Bool.or_false, decide_eq_true_eq] at h
      simp only [List.map_cons, List.sum_cons]
      omega

/-- An island whose coupler starts. -/
def Island.poweredOn (i : Island) : Island :=
  let own := i.held.any (fun x => decide (8 ≤ x.1))
  { i with power := .charging, en := true, down0 := false, cvOk := false, discharge := false, waitCharge := true, rungs := Rungs.zero, rungNext := none,
           held := if own then lessBase i.held else i.held,
           led := { i.led with admGr := if own then 8 else 0, nextGr := 8, sentGr := 0, pending := false, waitGr := true,
                               admRung := 0, admHart := 0, admChar := false, clamped := false } }

theorem State.powerOn_eq (s : State) (n : IslandNo) : s.powerOn n = ((s.modIsl n Island.poweredOn).sendRung n).grantCharge := (rfl)

theorem Island.poweredOn_charged (i : Island) : i.poweredOn.charged ≤ i.charged := by
  unfold Island.charged Island.heldGr Island.poweredOn
  dsimp only
  split
  · rename_i hown
    have := lessBase_sum i.held hown
    change 8 + ((lessBase i.held).map Prod.fst).sum ≤ _ + (i.held.map Prod.fst).sum
    omega
  · omega

theorem State.powerOn_admittedOk (h : s.admittedOk) : (s.powerOn n).admittedOk := by
  rw [State.powerOn_eq]
  exact State.grantCharge_admittedOk (State.sendRung_admittedOk (State.modIsl_admittedOk h _ (Island.poweredOn_charged _)
    fun hp => absurd hp Bool.false_ne_true))

theorem State.writeEn_admittedOk (h : s.admittedOk) (m : Master) (b : Bool) : (s.writeEn m n b).admittedOk := by
  unfold State.writeEn
  refine ite_keeps _ (ite_keeps _ (ite_keeps _ h (State.powerOn_admittedOk h)) (State.admittedOk_of_account (s.clamped_account m 1) h))
    (ite_keeps _ (State.kill_admittedOk ?_ _) ?_)
  all_goals exact State.modIsl_admittedOk h _ le_rfl (h.2 n)

/-- Writing ISLAND_POWER keeps the sum (R49, R59). -/
theorem State.writePower_admittedOk (h : s.admittedOk) (m : Master) (w : Word) : (s.writePower m w).admittedOk := by
  unfold State.writePower
  exact ite_keeps _ h (foldl_islands_keep (P := State.admittedOk) h fun _ _ hv => State.writeEn_admittedOk hv m _)

theorem islandPowerWrite_keeps (h : s.admittedOk) (m : Master) (w : Word) : Completes (.islandPowerWrite m w) s State.admittedOk := by
  rw [Completes, exec_islandPowerWrite, execIslandPowerWrite]
  exact act_keeps h (State.writePower_admittedOk h m w)

end Powering

/-! ## What kills and powering leave of the other islands -/

/-- What powering asks beside the island's own power: the member, the configuration, the slate and a Lockout (R59). -/
def State.licence (s : State) : Member × List (Nat × Word) × Slate × Bool := (s.member, s.cfg, s.slate, s.fault.lockout)

section Station

variable {s u : State}

theorem State.mayPower_congr (h : u.licence = s.licence) (n : IslandNo) : u.mayPower n = s.mayPower n := by
  simp only [State.licence, Prod.mk.injEq] at h
  obtain ⟨hmem, hcfg, hslate, hlock⟩ := h
  unfold State.mayPower State.present State.pers State.recAt State.cfgAt
  rw [hmem, hcfg, hslate, hlock]

/-- The island's power and its EN. -/
def Island.station (i : Island) : IslPower × Bool := (i.power, i.en)

theorem Island.station_parts {i j : Island} (h : j.station = i.station) : j.power = i.power ∧ j.en = i.en := by
  simpa only [Island.station, Prod.mk.injEq] using h

theorem Island.powered_station {i j : Island} (h : j.station = i.station) : j.powered = i.powered := by
  unfold Island.powered
  rw [(Island.station_parts h).1]

theorem State.unled_station (h : u.unled = s.unled) (n : IslandNo) : u.isl[n].station = s.isl[n].station :=
  (congrArg Island.station (State.unled_isl h n) :)
theorem State.unled_licence (h : u.unled = s.unled) : u.licence = s.licence := (congrArg State.licence h :)

theorem State.account_station (h : u.account = s.account) (n : IslandNo) : u.isl[n].station = s.isl[n].station := by
  obtain ⟨hpow, hen, -⟩ := Island.account_parts (State.account_isl h n)
  unfold Island.station
  rw [hpow, hen]
theorem State.account_licence (h : u.account = s.account) : u.licence = s.licence := by
  simp only [State.account, Prod.mk.injEq] at h
  obtain ⟨hmem, -, hcfg, hslate, -, hlock, -⟩ := h
  unfold State.licence
  rw [hmem, hcfg, hslate, hlock]
theorem State.account_pow (h : u.account = s.account) : u.pow = s.pow := by
  simp only [State.account, Prod.mk.injEq] at h
  exact h.2.2.2.2.1

/-- A change of one island alone. -/
theorem State.modIsl_station_other (s : State) (n : IslandNo) (f : Island → Island) {k : IslandNo} (hk : k ≠ n) :
    (s.modIsl n f).isl[k].station = s.isl[k].station := congrArg _ (s.modIsl_other n k f hk)

/-- What the device is after a kill: the island is off, the others and the licence stand, and of the supplies the power state alone may have
changed, into DORMANT where it is due. -/
structure State.Killed (s u : State) (n : IslandNo) (p : IslPower) : Prop where
  licence : u.licence = s.licence
  other : ∀ k : IslandNo, k ≠ n → u.isl[k].station = s.isl[k].station
  here : u.isl[n].station = (p, false)
  pow : u.pow = { s.pow with ps := u.pow.ps }
  calm : s.pow.ps ≠ .parking → s.pow.ps ≠ .toDormant → u.pow.ps = s.pow.ps
  dormant : s.pow.ps = .toDormant →
    u.pow.ps = if (∀ k : IslandNo, u.isl[k].powered = false) ∧ u.admitted = 0 then .dormant else .toDormant

theorem State.kill_spec (s : State) (n : IslandNo) (p : IslPower) : s.Killed (s.kill n p) n p := by
  have hclear := s.cleared_account n p
  rw [State.kill_eq]
  generalize s.cleared n p = c at hclear ⊢
  obtain ⟨q, hq, hcalm⟩ := c.parkCheck_spec
  have hgrant : (c.parkCheck.sendRungs.grantCharge).unled = c.parkCheck.unled := by rw [State.grantCharge_unled, State.sendRungs_unled]
  generalize c.parkCheck.sendRungs.grantCharge = g at hgrant ⊢
  have hack := g.ackChecks_account
  generalize g.ackChecks = a at hack ⊢
  obtain ⟨q', hq', hcalm', hdorm⟩ := a.dormantCheck_spec
  have hcpow : c.pow = s.pow := (State.account_pow hclear).trans (s.modIsl_pow n _)
  have hclic : c.licence = s.licence := (State.account_licence hclear).trans rfl
  have hlic : a.licence = s.licence := by
    rw [State.account_licence hack, State.unled_licence hgrant, hq]
    exact hclic
  have hstat (k : IslandNo) : a.isl[k].station = (s.modIsl n (Island.killed p)).isl[k].station := by
    rw [State.account_station hack, State.unled_station hgrant, hq]
    exact State.account_station hclear k
  have hpow : a.pow = { s.pow with ps := q } := by
    rw [State.account_pow hack, State.unled_pow hgrant, hq, hcpow]
  have haps : a.pow.ps = q := congrArg Power.ps hpow
  rw [hcpow] at hcalm
  rw [haps] at hcalm' hdorm
  rw [hq']
  refine ⟨hlic, fun k hk => (hstat k).trans (s.modIsl_station_other n _ hk), ?_, ?_, fun h1 h2 => ?_, fun h => ?_⟩
  · refine (hstat n).trans ?_
    rw [State.modIsl_same]
    rfl
  · dsimp only
    rw [hpow]
  · exact (hcalm' (by rw [hcalm h1]; exact h2)).trans (hcalm h1)
  · have hqd : q = .toDormant := (hcalm (by rw [h]; exact nofun)).trans h
    exact hdorm hqd

/-- The coupler of one island starts: it charges, and the rest stands. -/
theorem State.powerOn_spec (s : State) (n : IslandNo) : (s.powerOn n).licence = s.licence ∧ (s.powerOn n).pow = s.pow ∧
    (s.powerOn n).isl[n].station = (.charging, true) ∧ ∀ k, k ≠ n → (s.powerOn n).isl[k].station = s.isl[k].station := by
  have hun : (s.powerOn n).unled = (s.modIsl n Island.poweredOn).unled := by
    rw [State.powerOn_eq, State.grantCharge_unled, State.sendRung_unled]
  generalize s.powerOn n = u at hun ⊢
  refine ⟨(State.unled_licence hun).trans rfl, (State.unled_pow hun).trans (s.modIsl_pow n _), (State.unled_station hun n).trans ?_, fun k hk =>
    (State.unled_station hun k).trans (s.modIsl_station_other n _ hk)⟩
  rw [State.modIsl_same]
  rfl

/-- What a write of EN of island n leaves. -/
structure State.Beyond (s u : State) (n : IslandNo) : Prop where
  licence : u.licence = s.licence
  other : ∀ k : IslandNo, k ≠ n → u.isl[k].station = s.isl[k].station

theorem State.writeEn_beyond (s : State) (m : Master) (n : IslandNo) (b : Bool) : s.Beyond (s.writeEn m n b) n := by
  have hmod (f : Island → Island) : s.Beyond (s.modIsl n f) n := ⟨rfl, fun k hk => s.modIsl_station_other n f hk⟩
  unfold State.writeEn
  split
  · split
    · split
      · exact ⟨rfl, fun _ _ => rfl⟩
      · obtain ⟨hlic, -, -, hother⟩ := s.powerOn_spec n
        exact ⟨hlic, hother⟩
    · have hcl := s.clamped_account m 1
      exact ⟨State.account_licence hcl, fun k _ => State.account_station hcl k⟩
  · unfold State.killPowered
    split
    · obtain ⟨hlic, hother, -⟩ := State.kill_spec (s.modIsl n (fun i => { i with en := false, down0 := i.down0 || i.en })) n .bedrock
      exact ⟨hlic, fun k hk => (hother k hk).trans (s.modIsl_station_other n _ hk)⟩
    · exact hmod _

/-- A device in RUN stays in RUN (R59, R366). -/
theorem State.writeEn_run (h : s.pow.ps = .run) (m : Master) (n : IslandNo) (b : Bool) : (s.writeEn m n b).pow.ps = .run := by
  unfold State.writeEn
  split
  · split
    · split
      · exact h
      · rw [(s.powerOn_spec n).2.1, h]
    · rw [State.account_pow (s.clamped_account m 1), h]
  · unfold State.killPowered
    split
    · rw [(State.kill_spec (s.modIsl n (fun i => { i with en := false, down0 := i.down0 || i.en })) n .bedrock).calm
        (by rw [State.modIsl_pow, h]; exact nofun) (by rw [State.modIsl_pow, h]; exact nofun)]
      exact h
    · exact h

/-- EN written 1 where it may be starts an island without power (R59). -/
theorem State.writeEn_powers {n : IslandNo} (hmay : s.mayPower n = true) (hoff : s.isl[n].powered = false) (m : Master) :
    (s.writeEn m n true).isl[n].station = (.charging, true) := by
  have heq : s.writeEn m n true = s.powerOn n := by
    unfold State.writeEn
    rw [if_pos rfl, if_pos hmay, if_neg (by rw [hoff]; exact Bool.false_ne_true)]
  rw [heq]
  exact (s.powerOn_spec n).2.2.1

/-! ## Leaving DORMANT -/

theorem reqRun_dormant (hc : s.clocked = true) (hps : s.pow.ps = .dormant) (m : Master) : Completes (.reqRun m) s (fun u => u.pow.ps = .run ∧
    ∀ n : IslandNo, s.pow.resume.getLsbD n.val = true → s.mayPower n = true → s.isl[n].powered = false →
      u.isl[n].power = .charging ∧ u.isl[n].en = true) := by
  have hrun : s.reqRun m = islands.foldl (fun (v : State) (n : IslandNo) => v.writeEn m n (s.pow.resume.getLsbD n.val))
      (s.modPow (fun p => { p with ps := .run, refused := false })) := by
    unfold State.reqRun
    rw [hps]
  refine ⟨_, by rw [exec_reqRun, execReqRun, State.act_on _ hc, hrun], ?_, fun n hres hmay hoff => ?_⟩
  · exact foldl_islands_keep (P := fun v => v.pow.ps = .run) rfl fun v k hv => State.writeEn_run hv m k _
  · refine Island.station_parts (i := { s.isl[n] with power := .charging, en := true })
      (foldl_islands (Before := fun v => v.licence = s.licence ∧ v.isl[n].station = s.isl[n].station)
        (After := fun v => v.isl[n].station = (.charging, true)) n ⟨rfl, rfl⟩ (fun v k hk hv => ?_) (fun v hv => ?_) fun v k hk hv => ?_)
    · have hb := v.writeEn_beyond m k (s.pow.resume.getLsbD k.val)
      exact ⟨hb.licence.trans hv.1, (hb.other n hk.symm).trans hv.2⟩
    · rw [hres]
      exact State.writeEn_powers ((State.mayPower_congr hv.1 n).trans hmay) ((Island.powered_station hv.2).trans hoff) m
    · exact ((v.writeEn_beyond m k _).other n hk.symm).trans hv

/-! ## DORMANT -/

/-- Flags at their places read back. -/
theorem ofBits_eq_sum {k : Nat} (f : Fin k → Bool) : ∑ n, bit (f n) n.val = Nat.ofBits f := by
  induction k with
  | zero => rfl
  | succ k ih =>
    have hshift (n : Fin k) : bit (f n.succ) n.succ.val = 2 * bit ((f ∘ Fin.succ) n) n.val := by
      unfold bit
      rw [Function.comp_apply, Fin.val_succ, pow_succ']
      split <;> rfl
    rw [Fin.sum_univ_succ, Finset.sum_congr rfl fun n _ => hshift n, ← Finset.mul_sum, ih (f ∘ Fin.succ), Nat.ofBits_succ, Nat.add_comm]
    congr 1
    cases f 0 <;> rfl

theorem islSum_bit (f : IslandNo → Bool) (n : IslandNo) : (BitVec.ofNat 16 (islSum (fun k => bit (f k) k.val))).getLsbD n.val = f n := by
  rw [islSum_eq_sum, ofBits_eq_sum, BitVec.getLsbD_ofNat, Nat.testBit_ofBits_lt f n.val n.isLt, decide_eq_true n.isLt, Bool.true_and]

/-- The device that goes DORMANT: EN saved, and the power state that it comes from. -/
def State.dozing (s : State) : State :=
  s.modPow (fun p => { p with ps := .toDormant, psWas := BitVec.ofNat 2 p.psCode, refused := false,
                              resume := BitVec.ofNat 16 (islSum (fun n => bit s.isl[n].en n.val)) })

/-- One island of a device that goes DORMANT. -/
def State.dozeOff (s : State) (n : IslandNo) : State := (s.modIsl n (fun i => { i with en := false })).killPowered n

theorem State.reqDormant_eq (h1 : s.pow.ps ≠ .dormant) (h2 : s.pow.ps ≠ .toDormant) : s.reqDormant =
    if s.tan.role = .active then s.modPow (fun p => { p with refused := true })
    else (islands.foldl State.dozeOff s.dozing).dormantCheck := by
  unfold State.reqDormant
  split
  · rename_i h
    exact absurd h h1
  · rename_i h
    exact absurd h h2
  · rfl

/-- A device on its way to DORMANT is there once no island is powered and nothing is charged. -/
structure State.Dozes (s u : State) : Prop where
  pow : u.pow = { s.pow with ps := u.pow.ps }
  there : u.pow.ps = .toDormant ∨ u.pow.ps = .dormant ∧ (∀ k : IslandNo, u.isl[k].powered = false) ∧ u.admitted = 0

theorem State.dozeOff_dozes {v : State} (h : s.Dozes v) (n : IslandNo) : s.Dozes (v.dozeOff n) := by
  have hpowered (k : IslandNo) : (v.modIsl n (fun i => { i with en := false })).isl[k].powered = v.isl[k].powered := by
    by_cases hk : k = n
    · subst hk
      rw [State.modIsl_same]
      rfl
    · rw [State.modIsl_other v n k _ hk]
  have hadm : (v.modIsl n (fun i => { i with en := false })).admitted = v.admitted := islSum_congr fun k => by
    by_cases hk : k = n
    · subst hk
      rw [State.modIsl_same]
      rfl
    · rw [State.modIsl_other v n k _ hk]
  obtain ⟨hpow, hthere⟩ := h
  unfold State.dozeOff State.killPowered
  split
  · rename_i hon
    rw [hpowered n] at hon
    rcases hthere with hto | ⟨-, hoff, -⟩
    · have hk := State.kill_spec (v.modIsl n (fun i => { i with en := false })) n .bedrock
      refine ⟨hk.pow.trans (by rw [State.modIsl_pow, hpow]), ?_⟩
      have hd := hk.dormant hto
      split at hd
      · rename_i hall
        exact .inr ⟨hd, hall⟩
      · exact .inl hd
    · exact absurd ((hoff n).symm.trans hon) Bool.false_ne_true
  · refine ⟨hpow, hthere.imp_right fun ⟨hd, hoff, h0⟩ => ⟨hd, fun k => (hpowered k).trans (hoff k), hadm.trans h0⟩⟩

theorem State.dozeOff_here (s : State) (n : IslandNo) : (s.dozeOff n).isl[n].en = false ∧ (s.dozeOff n).isl[n].powered = false := by
  unfold State.dozeOff State.killPowered
  split
  · have hk := (State.kill_spec (s.modIsl n (fun i => { i with en := false })) n .bedrock).here
    generalize (s.modIsl n (fun i => { i with en := false })).kill n .bedrock = u at hk ⊢
    obtain ⟨hpow, hen⟩ : u.isl[n].power = .bedrock ∧ u.isl[n].en = false := by simpa only [Island.station, Prod.mk.injEq] using hk
    refine ⟨hen, ?_⟩
    unfold Island.powered
    rw [hpow]
    rfl
  · rename_i hoff
    refine ⟨?_, Bool.eq_false_iff.2 hoff⟩
    rw [State.modIsl_same]

theorem State.dozeOff_other (s : State) (n : IslandNo) {k : IslandNo} (hk : k ≠ n) : (s.dozeOff n).isl[k].station = s.isl[k].station := by
  unfold State.dozeOff State.killPowered
  split
  · exact ((State.kill_spec _ n .bedrock).other k hk).trans (s.modIsl_station_other n _ hk)
  · exact s.modIsl_station_other n _ hk

theorem reqDormant_kills (hc : s.clocked = true) (h1 : s.pow.ps ≠ .dormant) (h2 : s.pow.ps ≠ .toDormant) (hrole : s.tan.role ≠ .active)
    (m : Master) : Completes (.reqDormant m) s (fun u => u.pow.ps = (if u.admitted = 0 then .dormant else .toDormant) ∧
      ∀ n : IslandNo, u.pow.resume.getLsbD n.val = s.isl[n].en ∧ u.isl[n].en = false ∧ u.isl[n].powered = false) := by
  refine ⟨(islands.foldl State.dozeOff s.dozing).dormantCheck, by
    rw [exec_reqDormant, execReqDormant, State.act_on _ hc, State.reqDormant_eq h1 h2, if_neg hrole], ?_⟩
  have hdoze : s.dozing.Dozes (islands.foldl State.dozeOff s.dozing) :=
    foldl_islands_keep (P := s.dozing.Dozes) ⟨rfl, .inl rfl⟩ fun _ k hv => State.dozeOff_dozes hv k
  have hoff (n : IslandNo) : (islands.foldl State.dozeOff s.dozing).isl[n].en = false ∧
      (islands.foldl State.dozeOff s.dozing).isl[n].powered = false :=
    foldl_islands (Before := fun _ => True) (After := fun v => v.isl[n].en = false ∧ v.isl[n].powered = false) n trivial
      (fun _ _ _ _ => trivial) (fun v _ => v.dozeOff_here n) fun v k hk hv => by
        have hst := v.dozeOff_other k (Ne.symm hk)
        exact ⟨(Island.station_parts hst).2.trans hv.1, (Island.powered_station hst).trans hv.2⟩
  generalize islands.foldl State.dozeOff s.dozing = v at hdoze hoff
  obtain ⟨hpow, hthere⟩ := hdoze
  obtain ⟨q, hq, hcalm, hdorm⟩ := v.dormantCheck_spec
  have hres : v.pow.resume = s.dozing.pow.resume := (congrArg Power.resume hpow).trans rfl
  rw [hq]
  refine ⟨?_, fun n => ⟨?_, hoff n⟩⟩
  · change q = if v.admitted = 0 then _ else _
    rcases hthere with hto | ⟨hd, -, h0⟩
    · rw [hdorm hto]
      exact if_congr (and_iff_right fun n => (hoff n).2) rfl rfl
    · rw [hcalm (by rw [hd]; exact nofun), hd, if_pos h0]
  · change v.pow.resume.getLsbD n.val = _
    rw [hres]
    exact islSum_bit (fun k => s.isl[k].en) n

end Station

/-! ## The arbiter's edge -/

section Edge

variable {s : State} {n : IslandNo}

/-- The fields of a ledger that only requests and admissions write. -/
def Ledger.asked (l : Ledger) : (BitVec 2 × BitVec 2 × Bool) × BitVec 2 × BitVec 2 × Bool × Bool :=
  ((l.reqRung, l.reqHart, l.reqChar), l.admRung, l.admHart, l.admChar, l.clamped)

theorem Ledger.asked_parts {l l' : Ledger} (h : l'.asked = l.asked) : (l'.reqRung = l.reqRung ∧ l'.reqHart = l.reqHart ∧ l'.reqChar = l.reqChar) ∧
    l'.admRung = l.admRung ∧ l'.admHart = l.admHart ∧ l'.admChar = l.admChar ∧ l'.clamped = l.clamped := by
  simpa only [Ledger.asked, Prod.mk.injEq] using h

theorem Ledger.Sends.asked {l l' : Ledger} (h : l.Sends l') : l'.asked = l.asked := by
  rcases h with rfl | rfl | rfl <;> rfl

/-- A RUNG cell that leaves keeps the request and the admission. -/
theorem State.sendRung_asked (s : State) (n : IslandNo) : (s.sendRung n).isl[n].led.asked = s.isl[n].led.asked := by
  rcases s.sendRung_spec n with hs | ⟨-, -, -, l, hl, hu⟩
  · rw [hs]
  · obtain ⟨-, -, -, -, -, hled⟩ : _ ∧ _ ∧ _ ∧ _ ∧ _ ∧ _ := by simpa only [Island.account, State.refit, Prod.mk.injEq] using hu
    rw [hled]
    exact hl.asked

theorem State.admitWithin_asked (s : State) (n : IslandNo) (m : Master) (limit : Nat) :
    (s.admitWithin n m limit).isl[n].led.asked = (s.admits n limit).asked := by
  obtain ⟨v, hu, -, hi⟩ := s.admitWithin_eq n m limit
  rw [hu, State.sendRung_asked, hi, State.modIsl_same]

/-- The first request, where the arbiter may take it, is taken on its edge (R54, R56). -/
theorem State.ledEdge_takes {came : Tick} {q : LedgerReq} {rest : List (Tick × LedgerReq)} (hedge : s.tick.toNat % 4 = 0)
    (hbusy : s.busy = false) (hslate : s.slate.st ≠ .committing) (hcame : came ≤ s.tick) (hq : s.ledq = (came, q) :: rest)
    (hready : s.ledReady q = true) : ∃ v, v = ({ s with ledq := rest } : State).ledTake q ∧
      s.ledEdge = { v with busyOut := v.busy, rsvOut := v.rsvWord, isl := v.isl.map Island.shown } := by
  have hgo : (decide (came ≤ s.tick) && s.ledReady q) = true := Bool.and_eq_true_iff.2 ⟨decide_eq_true hcame, hready⟩
  have hfind : ((came, q) :: rest).find? (fun x => decide (x.1 ≤ s.tick) && s.ledReady x.2) = some (came, q) := List.find?_cons_of_pos hgo
  have herase : ((came, q) :: rest).eraseP (fun x => decide (x.1 ≤ s.tick) && s.ledReady x.2) = rest := List.eraseP_cons_of_pos hgo
  have hnext : s.ledNext = ({ s with ledq := rest } : State).ledTake q := by
    unfold State.ledNext
    rw [hbusy, decide_eq_false hslate, hq, hfind, herase]
    rfl
  refine ⟨_, rfl, ?_⟩
  unfold State.ledEdge
  rw [if_pos hedge, hnext]

/-- What sets out on the edge leaves the ledgers. -/
theorem Island.shown_led (v : State) (k : IslandNo) : (v.isl.map Island.shown)[k].led = v.isl[k].led := by
  simp [Island.shown]

/-! ### Park -/

theorem lowerReq_none (p : Pers) (mode limit k : Nat) : lowerReq p mode limit k (0, 0, 0) = (0, 0, 0) := by
  obtain ⟨-, h1, h2, h3, -⟩ := lowerReq_spec p mode limit k (0, 0, 0) (Nat.zero_le _)
  generalize lowerReq p mode limit k (0, 0, 0) = a at h1 h2 h3 ⊢
  obtain ⟨r, h, c⟩ := a
  dsimp only at h1 h2 h3
  rw [Nat.le_zero.1 h1, Nat.le_zero.1 h2, Nat.le_zero.1 h3]

/-- An island that may not take its rungs is admitted at rung 0, which is no clamp (R57, R367). -/
theorem State.admits_held (h : s.holdsBack n = true) (limit : Nat) : (s.admits n limit).asked =
    ((s.isl[n].led.reqRung, s.isl[n].led.reqHart, s.isl[n].led.reqChar), 0, 0, false, false) := by
  have ha : s.lowered n limit = (0, 0, 0) := by
    unfold State.lowered State.takesUp
    rw [if_pos h]
    exact lowerReq_none ..
  unfold State.admits Ledger.asked
  rw [ha, h]
  rfl

theorem State.parkCheck_isl (s : State) : s.parkCheck.isl = s.isl := by
  obtain ⟨q, hq, -⟩ := s.parkCheck_spec
  rw [hq]

/-- PARKING lowers every RUNNING island to rung 0, and keeps what is requested (R366). -/
theorem State.parkAll_lowers (hps : s.pow.ps = .parking) (hrun : s.running n = true) (hpers : s.pers n ≠ .off) (m : Master) :
    (s.parkAll m).isl[n].led.asked =
      ((s.isl[n].led.reqRung, s.isl[n].led.reqHart, s.isl[n].led.reqChar), 0, 0, false, false) := by
  unfold State.parkAll
  rw [State.parkCheck_isl]
  refine foldl_islands (Before := fun v => v.unled = s.unled ∧ v.isl[n].led = s.isl[n].led)
    (After := fun v => v.isl[n].led.asked = ((s.isl[n].led.reqRung, s.isl[n].led.reqHart, s.isl[n].led.reqChar), 0, 0, false, false)) n
    ⟨rfl, rfl⟩ (fun v k hk hv => ?_) (fun v hv => ?_) fun v k hk hv => ?_
  · split
    · exact ⟨(v.admitWithin_unled k m 60).trans hv.1, by rw [v.admitWithin_other k m 60 hk.symm]; exact hv.2⟩
    · exact hv
  · obtain ⟨hun, hled⟩ := hv
    have hr : v.running n = true := by
      unfold State.running
      rw [State.unled_power hun n]
      exact hrun
    have hp : v.pers n ≠ .off := by
      have hmem := State.unled_member hun
      have hcfg := State.unled_cfg hun
      unfold State.pers State.recAt State.cfgAt at hpers ⊢
      rw [hmem, hcfg]
      exact hpers
    have hh : v.holdsBack n = true := by
      unfold State.holdsBack State.parked
      rw [State.unled_pow hun, hps]
      simp
    rw [if_pos (Bool.and_eq_true_iff.2 ⟨hr, decide_eq_true hp⟩), State.admitWithin_asked, State.admits_held hh, hled]
  · split
    · rw [v.admitWithin_other k m 60 hk.symm]
      exact hv
    · exact hv

theorem parkEdge_lowers {came : Tick} {rest : List (Tick × LedgerReq)} {m : Master} (hedge : s.tick.toNat % 4 = 0) (hbusy : s.busy = false)
    (hslate : s.slate.st ≠ .committing) (hcame : came ≤ s.tick) (hq : s.ledq = (came, .park m) :: rest) (hps : s.pow.ps = .parking)
    (n : IslandNo) (hrun : s.running n = true) (hpers : s.pers n ≠ .off) : s.ledEdge.isl[n].led.admRung = 0 ∧
      s.ledEdge.isl[n].led.admHart = 0 ∧ s.ledEdge.isl[n].led.admChar = false ∧ s.ledEdge.isl[n].led.reqRung = s.isl[n].led.reqRung := by
  obtain ⟨v, hv, hu⟩ := State.ledEdge_takes hedge hbusy hslate hcame hq rfl
  have hpark : v = ({ s with ledq := rest } : State).parkAll m := hv.trans (if_pos hps)
  have hled : s.ledEdge.isl[n].led = v.isl[n].led := by
    rw [hu]
    exact Island.shown_led v n
  have hasked := State.parkAll_lowers (s := { s with ledq := rest }) (n := n) hps hrun hpers m
  rw [← hpark] at hasked
  obtain ⟨⟨hreq, -⟩, hrung, hhart, hchar, -⟩ : _ ∧ _ ∧ _ ∧ _ ∧ _ := by simpa only [Ledger.asked, Prod.mk.injEq] using hasked
  rw [hled]
  exact ⟨hrung, hhart, hchar, hreq⟩

/-- An arbiter that takes a request is busy, and owes the end of it. -/
theorem State.busied {a v : State} {k : Nat} {c : Instr} (hv : v = ({ a with busy := true } : State).owe k c) : v.busy = true ∧ v.ledq = a.ledq ∧
    (a.tick + BitVec.ofNat 64 k, c) ∈ v.due ∧ v.isl = a.isl := by
  have hmem := State.mem_owe_self ({ a with busy := true } : State) k c
  rw [State.owe_eq] at hmem hv
  rw [hv]
  exact ⟨rfl, rfl, hmem, rfl⟩

theorem unparkEdge_busy {came : Tick} {rest : List (Tick × LedgerReq)} {m : Master} (hedge : s.tick.toNat % 4 = 0) (hbusy : s.busy = false)
    (hslate : s.slate.st ≠ .committing) (hcame : came ≤ s.tick) (hq : s.ledq = (came, .unpark m) :: rest) :
    s.ledEdge.busy = true ∧ (s.tick + 288, .admissionComplete) ∈ s.ledEdge.due := by
  obtain ⟨v, hv, hu⟩ := State.ledEdge_takes hedge hbusy hslate hcame hq rfl
  have htick : (({ s with ledq := rest } : State).unparkAll m).tick = s.tick := (State.unled_tick (State.unparkAll_unled _ m)).trans rfl
  replace hv : v = ({ ({ s with ledq := rest } : State).unparkAll m with busy := true }).owe 288 .admissionComplete := hv
  generalize ({ s with ledq := rest } : State).unparkAll m = w at htick hv
  obtain ⟨hb, -, hd, -⟩ := State.busied hv
  rw [← htick, hu]
  exact ⟨hb, hd⟩

end Edge

/-! ## The device in Park -/

theorem reqPark_asks {s : State} (hc : s.clocked = true) (hps : s.pow.ps = .run) (m : Master) : Completes (.reqPark m) s (fun u =>
    u.pow = { s.pow with ps := .parking, refused := false } ∧
    u.ledq = s.ledq ++ [(s.tick + BitVec.ofNat 64 ((4 - s.tick.toNat % 4) % 4 + 4), .park m)] ∧ u.isl = s.isl) := by
  have heq : s.reqPark m = (s.modPow (fun p => { p with ps := .parking, refused := false })).ledPut (.park m) := by
    unfold State.reqPark
    rw [hps]
  refine ⟨s.reqPark m, by rw [exec_reqPark, execReqPark, State.act_on _ hc], ?_⟩
  rw [heq]
  exact ⟨rfl, rfl, rfl⟩

theorem reqPark_noop {s : State} (hc : s.clocked = true) (hps : s.pow.ps ≠ .run) (m : Master) : exec (.reqPark m) s = .next s := by
  rw [exec_reqPark, execReqPark, State.act_on _ hc, State.reqPark]
  split
  · rename_i h
    exact absurd h hps
  · rfl

theorem reqDormant_refused {s : State} (hc : s.clocked = true) (h1 : s.pow.ps ≠ .dormant) (h2 : s.pow.ps ≠ .toDormant)
    (hrole : s.tan.role = .active) (m : Master) : exec (.reqDormant m) s = .next { s with pow := { s.pow with refused := true } } := by
  rw [exec_reqDormant, execReqDormant, State.act_on _ hc, State.reqDormant_eq h1 h2, if_pos hrole]
  rfl

theorem reqRun_unparks {s : State} (hc : s.clocked = true) (hps : s.pow.ps = .parking ∨ s.pow.ps = .park) (m : Master) :
    Completes (.reqRun m) s (fun u => u.pow = { s.pow with ps := .run, refused := false } ∧
      u.ledq = s.ledq ++ [(s.tick + BitVec.ofNat 64 ((4 - s.tick.toNat % 4) % 4 + 4), .unpark m)] ∧ u.isl = s.isl) := by
  have heq : s.reqRun m = (s.modPow (fun p => { p with ps := .run, refused := false })).ledPut (.unpark m) := by
    unfold State.reqRun
    rcases hps with h | h <;> rw [h]
  refine ⟨s.reqRun m, by rw [exec_reqRun, execReqRun, State.act_on _ hc], ?_⟩
  rw [heq]
  exact ⟨rfl, rfl, rfl⟩

theorem reqRun_noop {s : State} (hc : s.clocked = true) (hps : s.pow.ps = .run) (m : Master) : exec (.reqRun m) s = .next s := by
  rw [exec_reqRun, execReqRun, State.act_on _ hc, State.reqRun, hps]

/-! ## The obligation about supplies, the clock and the power states -/

/-- Settles O40: its waits, stops and power states one by one, each by the lemma about its row or edge. -/
theorem suppliesClockAndPowerStates : Obligations.SuppliesClockAndPowerStates := by
  refine ⟨fun s n => ?_, fun s => ?_, fun s m hc => ?_⟩
  · exact ⟨vmicaUndervoltage_cancels s n, vmicaReturn_waits, vmicaReturn_stopped, fun hc hd hok hr hcv hno => vmicaHoldEnd_ends hc hd hok hr hcv hno,
      fun hc hd => vmicaHoldEnd_lost hc hd, vmicaHoldEnd_early⟩
  · exact ⟨hckStop_holds s, hckResume_runs, hckResume_noop, fun h => State.idle_off (.inl h), resumed_first,
      fun _ _ hck hr hlt he hrun hp hm hd => resumed_pwm hck hr hlt he hrun hp hm hd⟩
  · exact ⟨fun h => reqPark_asks hc h m, fun _ _ hedge hbusy hslate hcame hq => parkEdge_lowers hedge hbusy hslate hcame hq,
      fun h => reqPark_noop hc h m,
      fun h1 h2 => ⟨fun hrole => reqDormant_refused hc h1 h2 hrole m, fun hrole => reqDormant_kills hc h1 h2 hrole m⟩,
      fun h => reqRun_unparks hc h m, fun _ _ => unparkEdge_busy, fun h => reqRun_dormant hc h m, fun h => reqRun_noop hc h m⟩

/-! ## A LEDGER write on the arbiter's edge -/

section WriteEdge

variable {s v : State} {n : IslandNo}

/-- What an admission charges and waits for. -/
def Ledger.grains (l : Ledger) : Nat × Nat × Bool := (l.admGr, l.nextGr, l.waitGr)

/-- The grains that an admission of one island finds free (R53). -/
def State.freeGr (s : State) (n : IslandNo) : Nat :=
  s.member.admissible - (s.admitted - s.isl[n].led.admGr) - s.owedGr n - s.keptBack n

/-- The limit of an admission of one island beside the others (R49, R53). -/
def State.limitGr (s : State) (n : IslandNo) : Nat := min s.isl[n].room (s.freeGr n)

theorem State.admitRungs_eq (hp : s.isl[n].powered = true) (ho : s.pers n ≠ .off) (m : Master) :
    s.admitRungs n m = s.admitWithin n m (s.freeGr n) := by
  unfold State.admitRungs
  rw [if_pos (Bool.and_eq_true_iff.2 ⟨hp, decide_eq_true ho⟩)]
  rfl

/-! ### What a change of requests leaves -/

section Requests

variable (hun : v.unled = s.unled) (hgr : ∀ k : IslandNo, v.isl[k].led.grains = s.isl[k].led.grains)

include hun

theorem State.unled_held (k : IslandNo) : v.isl[k].held = s.isl[k].held := (congrArg Island.held (State.unled_isl hun k) :)
theorem State.unled_powered (k : IslandNo) : v.isl[k].powered = s.isl[k].powered := (congrArg Island.powered (State.unled_isl hun k) :)
theorem State.unled_ready (k : IslandNo) : v.isl[k].ready = s.isl[k].ready := (congrArg Island.ready (State.unled_isl hun k) :)
theorem State.unled_pers (k : IslandNo) : v.pers k = s.pers k := (congrArg (State.pers · k) hun :)
theorem State.unled_modeGr (k : IslandNo) : v.modeGr k = s.modeGr k := (congrArg (State.modeGr · k) hun :)
theorem State.unled_present (k : IslandNo) : v.present k = s.present k := (congrArg (State.present · k) hun :)
theorem State.unled_parked : v.parked = s.parked := (congrArg State.parked hun :)

theorem State.unled_holdsBack (k : IslandNo) : v.holdsBack k = s.holdsBack k := by
  unfold State.holdsBack
  rw [State.unled_ready hun k, State.unled_parked hun]

include hgr

theorem State.limitGr_congr (n : IslandNo) : v.limitGr n = s.limitGr n := by
  have hgrains (k : IslandNo) : v.isl[k].led.admGr = s.isl[k].led.admGr ∧ v.isl[k].led.nextGr = s.isl[k].led.nextGr ∧
      v.isl[k].led.waitGr = s.isl[k].led.waitGr := by simpa only [Ledger.grains, Prod.mk.injEq] using hgr k
  have hheld (k : IslandNo) : v.isl[k].heldGr = s.isl[k].heldGr := by
    unfold Island.heldGr
    rw [State.unled_held hun k]
  have hrsv (k : IslandNo) : v.isl[k].heldRsv = s.isl[k].heldRsv := by
    unfold Island.heldRsv
    rw [State.unled_held hun k]
  have hadm : v.admitted = s.admitted := islSum_congr fun k => by rw [(hgrains k).1, hheld k]
  have howed : v.owedGr n = s.owedGr n := islSum_congr fun k => by
    obtain ⟨h1, h2, h3⟩ := hgrains k
    rw [h1, h2, h3]
  have hkept : v.keptBack n = s.keptBack n := islSum_congr fun k => by
    obtain ⟨h1, -, h3⟩ := hgrains k
    unfold Island.bare
    rw [State.unled_present hun k, State.unled_pers hun k, h1, hheld k, h3]
  unfold State.limitGr State.freeGr Island.room
  rw [hadm, howed, hkept, hheld n, hrsv n, (hgrains n).1, State.unled_member hun]

end Requests

/-! ### What an admission grants -/

/-- The rungs and features of an admission, as the ledger holds them. -/
def Ledger.granted (l : Ledger) : Nat × Nat × Nat := (l.admRung.toNat, l.admHart.toNat, if l.admChar then 1 else 0)

/-- The ledger holds what a request was lowered to. -/
theorem State.admits_granted (s : State) (n : IslandNo) (limit : Nat) : (s.admits n limit).granted = s.lowered n limit := by
  obtain ⟨-, h1, h2, h3, -⟩ := s.lowered_spec n limit
  obtain ⟨hr, hh, hc⟩ := s.takesUp_le n
  unfold Ledger.granted State.admits
  generalize s.lowered n limit = a at h1 h2 h3 ⊢
  generalize s.takesUp n = q at h1 h2 h3 hr hh hc
  obtain ⟨r, h, c⟩ := a
  dsimp only at h1 h2 h3 ⊢
  rw [BitVec.toNat_ofNat, BitVec.toNat_ofNat, Nat.mod_eq_of_lt (by omega), Nat.mod_eq_of_lt (by omega)]
  have hbit : c = 0 ∨ c = 1 := by omega
  rcases hbit with rfl | rfl <;> rfl

/-- Whether an admission is that of the request, or a lowered one with CLAMPED (R53, R55, R57). -/
def grantOk (held : Bool) (cost : Nat × Nat × Nat → Nat) (limit : Nat) (q a : Nat × Nat × Nat) (clamped : Bool) : Prop :=
  (held = true → a = (0, 0, 0) ∧ clamped = false) ∧
  (held = false → cost q ≤ limit → a = q ∧ clamped = false) ∧
  (held = false → limit < cost q →
    (cost a ≤ limit ∨ a = (0, 0, 0)) ∧ (clamped = true ↔ a ≠ q) ∧ a.1 ≤ q.1 ∧ a.2.1 ≤ q.2.1 ∧ a.2.2 ≤ q.2.2 ∧
    (a.2.2 < q.2.2 → a.2.1 = 0) ∧ (a.1 < q.1 → a.2.1 = 0 ∧ a.2.2 = 0))

theorem State.takesUp_free (h : s.holdsBack n = false) : s.takesUp n = s.isl[n].led.request :=
  if_neg (by rw [h]; exact Bool.false_ne_true)

theorem State.admits_ok (s : State) (n : IslandNo) (limit : Nat) : grantOk (s.holdsBack n) (reqCost (s.pers n) (s.modeGr n))
    (min s.isl[n].room limit) s.isl[n].led.request (s.admits n limit).granted (s.admits n limit).clamped := by
  rw [State.admits_granted]
  have hspec := s.lowered_spec n limit
  have hclamped : (s.admits n limit).clamped = (!s.holdsBack n && decide (s.lowered n limit ≠ s.takesUp n)) := rfl
  rw [hclamped]
  refine ⟨fun hh => ?_, fun hh hfit => ?_, fun hh _ => ?_⟩
  · have hq : s.takesUp n = (0, 0, 0) := if_pos hh
    refine ⟨?_, by rw [hh]; rfl⟩
    unfold State.lowered
    rw [hq]
    exact lowerReq_none ..
  · have ha : s.lowered n limit = s.isl[n].led.request := by
      unfold State.lowered
      rw [State.takesUp_free hh]
      exact lowerReq_fits hfit
    exact ⟨ha, by rw [ha, State.takesUp_free hh, decide_eq_false (not_not.2 rfl), Bool.and_false]⟩
  · obtain ⟨hcost, h1, h2, h3, h4, h5⟩ := hspec
    rw [State.takesUp_free hh] at h1 h2 h3 h4 h5 ⊢
    exact ⟨hcost, by rw [hh, Bool.not_false, Bool.true_and, decide_eq_true_eq], h1, h2, h3, h4, h5⟩

/-! ### The edge -/

theorem State.admitRungs_asked (s : State) (n : IslandNo) (m : Master) : (s.admitRungs n m).isl[n].led.asked.1 = s.isl[n].led.asked.1 := by
  unfold State.admitRungs
  split
  · rw [State.admitWithin_asked]
    rfl
  · rfl

theorem State.requests_fields (s : State) (n : IslandNo) (w : Word) :
    (s.requests n w).reqRung.toNat = min (w.toNat % 4) (topRung (s.pers n)) ∧
    (s.requests n w).reqHart.toNat = (if (s.recAt n 0).getLsbD 4 then min (w.toNat / 4 % 4) 2 else 0) ∧
    (s.requests n w).reqChar = (w.getLsbD 4 && (s.pers n).analog && decide (fld (s.recAt n 0) 28 2 ≠ 0)) := by
  have hrung : fld w 0 2 = w.toNat % 4 := rfl
  have hhart : fld w 2 2 = w.toNat / 4 % 4 := by
    unfold fld
    rw [Nat.shiftRight_eq_div_pow]
    norm_num
  refine ⟨?_, ?_, rfl⟩
  · change (BitVec.ofNat 2 (min (fld w 0 2) (topRung (s.pers n)))).toNat = _
    rw [hrung, BitVec.toNat_ofNat]
    exact Nat.mod_eq_of_lt (by omega)
  · change (BitVec.ofNat 2 (if (s.recAt n 0).getLsbD 4 then min (fld w 2 2) 2 else 0)).toNat = _
    rw [hhart, BitVec.toNat_ofNat]
    refine Nat.mod_eq_of_lt ?_
    split <;> omega

theorem State.setRequest_grains (s : State) (n : IslandNo) (w : Word) (m : Master) (k : IslandNo) :
    (s.setRequest n w m).isl[k].led.grains = s.isl[k].led.grains := by
  rw [State.setRequest_isl]
  by_cases hk : k = n
  · subst hk
    rw [State.modIsl_same]
    rfl
  · rw [State.modIsl_other s n k _ hk]

end WriteEdge

/-- A LEDGER write that the arbiter takes on its edge: the request is taken and admitted (R53, R54, R55, R61). -/
theorem writeEdge {s : State} {m : Master} {n : IslandNo} {w : Word} {came : Tick} {rest : List (Tick × LedgerReq)}
    (hedge : s.tick.toNat % 4 = 0) (hbusy : s.busy = false) (hslate : s.slate.st ≠ .committing) (hcame : came ≤ s.tick)
    (hq : s.ledq = (came, .write n w m) :: rest) (hpend : s.isl[n].led.pendingBit = false) :
    let u := s.ledEdge
    let l := u.isl[n].led
    u.busy = true ∧ u.ledq = rest ∧ (s.tick + 48, .admissionComplete) ∈ u.due ∧
    l.asked.1 = (s.requests n w).asked.1 ∧
    (s.isl[n].powered = true → s.pers n ≠ .off →
      grantOk (s.holdsBack n) (reqCost (s.pers n) (s.modeGr n)) (s.limitGr n) l.request l.granted l.clamped) ∧
    ∀ k, k ≠ n → u.isl[k].led = s.isl[k].led := by
  obtain ⟨v, hv, hu⟩ := State.ledEdge_takes hedge hbusy hslate hcame hq (congrArg (fun b => !b) hpend)
  have hset := ({ s with ledq := rest } : State).setRequest_unled n w m
  have hisl := ({ s with ledq := rest } : State).setRequest_isl n w m
  have hgr := ({ s with ledq := rest } : State).setRequest_grains n w m
  replace hv : v = ({ (({ s with ledq := rest } : State).setRequest n w m).admitRungs n m with busy := true } : State).owe 48 .admissionComplete := hv
  generalize ({ s with ledq := rest } : State).setRequest n w m = a at hv hset hisl hgr
  have hled (k : IslandNo) : s.ledEdge.isl[k].led = v.isl[k].led := by
    rw [hu]
    exact Island.shown_led v k
  obtain ⟨hb, hl, hd, hi⟩ := State.busied hv
  have hun := (a.admitRungs_unled n m).trans hset
  rw [show (a.admitRungs n m).tick = s.tick from (State.unled_tick hun).trans rfl] at hd
  have hhere : a.isl[n].led = s.requests n w := by
    rw [hisl, State.modIsl_same]
    rfl
  refine ⟨?_, ?_, ?_, ?_, fun hpow hpers => ?_, fun k hk => ?_⟩
  · rw [hu]
    exact hb
  · rw [hu]
    exact hl.trans ((State.unled_ledq hun).trans rfl)
  · rw [hu]
    exact hd
  · rw [hled n, hi, State.admitRungs_asked, hhere]
  · have hlim : a.limitGr n = s.limitGr n := (State.limitGr_congr hset hgr n).trans rfl
    have hpow' : a.isl[n].powered = true := (State.unled_powered hset n).trans hpow
    have hpers' : a.pers n = s.pers n := (State.unled_pers hset n).trans rfl
    have hmode : a.modeGr n = s.modeGr n := (State.unled_modeGr hset n).trans rfl
    have hhold : a.holdsBack n = s.holdsBack n := (State.unled_holdsBack hset n).trans rfl
    have hasked : s.ledEdge.isl[n].led.asked = (a.admits n (a.freeGr n)).asked := by
      rw [hled n, hi, State.admitRungs_eq hpow' (by rw [hpers']; exact hpers), State.admitWithin_asked]
    have hok := a.admits_ok n (a.freeGr n)
    rw [hhold, hpers', hmode, show min a.isl[n].room (a.freeGr n) = s.limitGr n from hlim] at hok
    generalize s.ledEdge.isl[n].led = l at hasked ⊢
    obtain ⟨⟨hr, hh, hc⟩, har, hah, hac, hcl⟩ := Ledger.asked_parts hasked
    have hreq : l.request = a.isl[n].led.request := by
      unfold Ledger.request
      rw [hr, hh, hc]
      rfl
    have hgrant : l.granted = (a.admits n (a.freeGr n)).granted := by
      unfold Ledger.granted
      rw [har, hah, hac]
    rw [hreq, hgrant, hcl]
    exact hok
  · rw [hled k, hi, a.admitRungs_other n m hk, hisl, State.modIsl_other _ n k _ hk]

theorem readmitEdge {s : State} {m : Master} {came : Tick} {rest : List (Tick × LedgerReq)} (hedge : s.tick.toNat % 4 = 0)
    (hbusy : s.busy = false) (hslate : s.slate.st ≠ .committing) (hcame : came ≤ s.tick) (hq : s.ledq = (came, .readmit m) :: rest) :
    s.ledEdge.busy = true ∧ s.ledEdge.ledq = rest ∧
      (s.tick + BitVec.ofNat 64 (32 + 16 * (islands.filter (fun (k : IslandNo) => s.isl[k].led.clamped)).length), .admissionComplete) ∈
        s.ledEdge.due := by
  obtain ⟨v, hv, hu⟩ := State.ledEdge_takes hedge hbusy hslate hcame hq rfl
  have hun := ({ s with ledq := rest } : State).readmitAll_unled m
  replace hv : v = ({ ({ s with ledq := rest } : State).readmitAll m with busy := true } : State).owe
    (32 + 16 * (islands.filter (fun (k : IslandNo) => s.isl[k].led.clamped)).length) .admissionComplete := hv
  generalize 32 + 16 * (islands.filter (fun (k : IslandNo) => s.isl[k].led.clamped)).length = t at hv ⊢
  generalize ({ s with ledq := rest } : State).readmitAll m = a at hun hv
  obtain ⟨hb, hl, hd, -⟩ := State.busied hv
  rw [show a.tick = s.tick from (State.unled_tick hun).trans rfl] at hd
  rw [hu]
  exact ⟨hb, hl.trans ((State.unled_ledq hun).trans rfl), hd⟩

/-! ## Rungs in force -/

section Rungs

variable {s : State} {n : IslandNo}

/-- A switch of the stages to new rungs leaves what lies beside the island's stages. -/
theorem State.rungsTake_beside (s : State) (n : IslandNo) (r : Rungs) :
    (s.rungsTake n r).beside Island.unstaged n = (s.modIsl n (fun i => { i with rungs := r })).beside Island.unstaged n := by
  have hin {u v : State} (h : u.beside Island.unmeasured n = v.beside Island.unmeasured n) := State.beside_unstaged h
  unfold State.rungsTake
  rw [State.outputs_unstaged, hin (State.hartOff_beside ..), State.reclip_beside]
  simp only [State.beside_ite, hin (State.adcRestart_beside ..), hin (State.gateStart_beside ..), hin (State.modDin_beside ..),
    hin (State.inputStart_beside ..), ite_self]

theorem State.landed_isl (s : State) (n : IslandNo) (d : DownData) : (s.landed n d).isl[n].power = s.isl[n].power ∧
    ∀ k, k ≠ n → (s.landed n d).isl[k] = s.isl[k] := by
  unfold State.landed
  split
  · refine ⟨?_, fun k hk => s.modIsl_other n k _ hk⟩
    rw [State.modIsl_same]
  · exact ⟨rfl, fun _ _ => rfl⟩

/-- RUNG: the stages run at the rungs, and RUNG_ACT is owed within 512 tk (R56). -/
theorem rung_switches (hc : s.clocked = true) (hr : s.running n = true) (r : Rungs) : Completes (.rung n r) s (fun u =>
    u.isl[n].rungs = r ∧ u.isl[n].rungNext = some r ∧ (s.tick + 512, .rungSwitchDone n) ∈ u.due ∧
    (∀ k, k ≠ n → u.isl[k] = s.isl[k]) ∧ u.mem = s.mem ∧ u.cfg = s.cfg ∧ u.fault = s.fault) := by
  obtain ⟨hpow, hother⟩ := s.landed_isl n (.rung r)
  have hr' : (s.landed n (.rung r)).running n = true := by
    unfold State.running at hr ⊢
    rw [hpow]
    exact hr
  have hrun : exec (.rung n r) s = .next (((((s.landed n (.rung r)).modIsl n (fun i => { i with rungNext := some r })).rungsTake n r).cancel
      (.rungSwitchDone n)).owe 512 (.rungSwitchDone n)) := by
    rw [exec_rung, execRung, State.act_on _ hc, if_pos hr']
  have hb := ((s.landed n (.rung r)).modIsl n (fun i => { i with rungNext := some r })).rungsTake_beside n r
  generalize ((s.landed n (.rung r)).modIsl n (fun i => { i with rungNext := some r })).rungsTake n r = v at hrun hb
  have hsame := State.beside_same hb
  rw [State.modIsl_same, State.modIsl_same] at hsame
  have hdue := State.mem_owe_self (v.cancel (.rungSwitchDone n)) 512 (.rungSwitchDone n)
  have htick : v.tick = s.tick := (congrArg State.tick hb :).trans (State.landed_tick s n _)
  rw [State.owe_eq] at hrun hdue
  refine ⟨_, hrun, congrArg Island.rungs hsame, congrArg Island.rungNext hsame, ?_, fun k hk => ?_, ?_, ?_, ?_⟩
  · rw [← htick]
    exact hdue
  · exact (State.beside_other hb hk).trans ((State.modIsl_other _ n k _ hk).trans ((State.modIsl_other _ n k _ hk).trans (hother k hk)))
  · exact (congrArg State.mem hb :).trans (State.landed_mem s n _)
  · exact (congrArg State.cfg hb :).trans (State.landed_cfg s n _)
  · exact (congrArg State.fault hb :).trans (State.landed_fault s n _)

/-- RUNG_SWITCH_DONE: the island sends RUNG_ACT (R56). -/
theorem rungSwitchDone_sends (hc : s.clocked = true) (hr : s.running n = true) (hd : s.isDue (.rungSwitchDone n) = true)
    (hnext : s.isl[n].rungNext ≠ none) : Completes (.rungSwitchDone n) s (fun u =>
      u.isl[n].rungNext = none ∧ u.isl[n].rungs = s.isl[n].rungs ∧ (∃ c ∈ u.isl[n].up, c.data = .rungAct ∧ c.sent = false) ∧
      IslandOnly s u n) := by
  have hgo : (s.settle (.rungSwitchDone n)).isl[n].rungNext.isSome ∧ (s.settle (.rungSwitchDone n)).running n :=
    ⟨Option.isSome_iff_ne_none.2 hnext, hr⟩
  have hrun : exec (.rungSwitchDone n) s =
      .next (((s.settle (.rungSwitchDone n)).modIsl n (fun i => { i with rungNext := none })).sendUp n .rungAct) := by
    rw [exec_rungSwitchDone, execRungSwitchDone, State.timed, State.act_on _ hc, if_pos hd, if_pos hgo]
  have hcell := ((s.settle (.rungSwitchDone n)).modIsl n (fun i => { i with rungNext := none })).sendUp_up n .rungAct
  have hsame : (((s.settle (.rungSwitchDone n)).modIsl n (fun i => { i with rungNext := none })).sendUp n .rungAct).isl[n].rungNext = none ∧
      (((s.settle (.rungSwitchDone n)).modIsl n (fun i => { i with rungNext := none })).sendUp n .rungAct).isl[n].rungs = s.isl[n].rungs := by
    rw [State.sendUp, State.sendUpAs, State.modIsl_same, State.modIsl_same]
    exact ⟨rfl, rfl⟩
  refine ⟨_, hrun, hsame.1, hsame.2, ⟨_, hcell, rfl, rfl⟩, rfl, fun k hk => ?_⟩
  exact (State.modIsl_other _ n k _ hk).trans (State.modIsl_other _ n k _ hk)

/-- A cell that arrives leaves the ledger, and what is not of its island. -/
theorem State.arrived_keeps (s : State) (n : IslandNo) (d : UpData) : s.arrived n d = { s with isl := (s.arrived n d).isl } ∧
    (s.arrived n d).isl[n].led = s.isl[n].led ∧ ∀ k, k ≠ n → (s.arrived n d).isl[k] = s.isl[k] := by
  unfold State.arrived
  split
  · refine ⟨rfl, ?_, fun k hk => s.modIsl_other n k _ hk⟩
    rw [State.modIsl_same]
  · exact ⟨rfl, rfl, fun _ _ => rfl⟩

/-- RUNG_ACT that arrives crosses to the arbiter (R20, R21). -/
theorem rungAct_crosses (hc : s.clocked = true) (hd : s.isDue (.rungAct n) = false) (hf : (flying .rungAct s.isl[n].up).isSome = true) :
    Completes (.rungAct n) s (fun u =>
      u.isl[n].led = s.isl[n].led ∧ (s.tick + BitVec.ofNat 64 (s.qtk + 4), .rungAct n) ∈ u.due ∧ IslandOnly s u n) := by
  have hrun : exec (.rungAct n) s = .next ((s.arrived n .rungAct).owe (s.qtk + 4) (.rungAct n)) := by
    rw [exec_rungAct, execRungAct, State.act_on _ hc, if_neg (by rw [hd]; exact Bool.false_ne_true), if_pos hf]
  obtain ⟨heq, hled, hother⟩ := s.arrived_keeps n .rungAct
  have hdue := State.mem_owe_self (s.arrived n .rungAct) (s.qtk + 4) (.rungAct n)
  rw [State.arrived_tick] at hdue
  generalize s.arrived n .rungAct = a at hrun heq hled hother hdue
  rw [State.owe_eq] at hrun hdue
  refine ⟨_, hrun, hled, hdue, ?_, hother⟩
  generalize (a.owe (s.qtk + 4) (.rungAct n)).due = d
  rw [heq]

/-- The arbiter's checks leave a ledger that waits for nothing. -/
theorem State.sendRungs_settled (h : s.isl[n].led.waitGr = false) : s.sendRungs.isl[n].led = s.isl[n].led := by
  refine foldl_islands_keep (P := fun v => v.isl[n].led = s.isl[n].led) rfl fun v k hv => ?_
  by_cases hk : k = n
  · subst hk
    rcases v.sendRung_spec k with hs | ⟨hwait, -⟩
    · rw [hs]
      exact hv
    · rw [hv, h] at hwait
      exact absurd hwait Bool.false_ne_true
  · rw [v.sendRung_other k (Ne.symm hk)]
    exact hv

/-- The arbiter takes RUNG_ACT: PENDING ends, and the grains of the rungs in force stay (R56). -/
theorem rungAct_ends (hc : s.clocked = true) (hd : s.isDue (.rungAct n) = true) (hp : s.isl[n].led.pending = true)
    (hw : s.isl[n].led.waitGr = false) : Completes (.rungAct n) s (fun u =>
      u.isl[n].led.pending = false ∧ u.isl[n].led.admGr = s.isl[n].led.sentGr) := by
  have hrun : exec (.rungAct n) s = .next ((((((s.settle (.rungAct n)).modIsl n (fun i => { i with led := { i.led with pending := false } })).charge n
      s.isl[n].led.sentGr).sendRungs).parkCheck)) := by
    rw [exec_rungAct, execRungAct, State.act_on _ hc, if_pos hd, State.rungDone, if_pos (show (s.settle (.rungAct n)).isl[n].led.pending = true from hp)]
    rfl
  have hsame := (((s.settle (.rungAct n)).modIsl n (fun i => { i with led := { i.led with pending := false } })).charge_spec n s.isl[n].led.sentGr).1
  generalize ((s.settle (.rungAct n)).modIsl n (fun i => { i with led := { i.led with pending := false } })).charge n s.isl[n].led.sentGr = v
    at hrun hsame
  obtain ⟨-, -, -, -, -, hled⟩ : _ ∧ _ ∧ _ ∧ _ ∧ _ ∧ _ := by simpa only [Island.account, Prod.mk.injEq] using hsame
  rw [State.modIsl_same] at hled
  have hkeep : v.sendRungs.isl[n].led = v.isl[n].led := State.sendRungs_settled (by rw [hled]; exact hw)
  have hu : v.sendRungs.parkCheck.isl[n].led = { s.isl[n].led with pending := false, admGr := s.isl[n].led.sentGr } := by
    rw [State.parkCheck_isl, hkeep, hled]
    rfl
  exact ⟨_, hrun, congrArg Ledger.pending hu, congrArg Ledger.admGr hu⟩

theorem rungAct_noop (hc : s.clocked = true) (hd : s.isDue (.rungAct n) = false) (hf : (flying .rungAct s.isl[n].up).isSome = false) :
    exec (.rungAct n) s = .next s := by
  rw [exec_rungAct, execRungAct, State.act_on _ hc, if_neg (by rw [hd]; exact Bool.false_ne_true), if_neg (by rw [hf]; exact Bool.false_ne_true)]

end Rungs

/-! ## Requests -/

section Requests

variable {s : State} {m : Master} {n : IslandNo} {w : Word}

theorem ledgerWrite_queues (hc : s.clocked = true) (hp : s.present n = true) : exec (.ledgerWrite m n w) s =
    .next { s with ledq := s.ledq ++ [(s.tick + BitVec.ofNat 64 (s.qtk + 4), .write n w m)] } := by
  rw [exec_ledgerWrite, execLedgerWrite, State.act_on _ hc, if_pos hp]
  rfl

theorem ledgerWrite_refused (hc : s.clocked = true) (hp : s.present n = false) :
    Completes (.ledgerWrite m n w) s (fun u => u.ledq = s.ledq ∧ u.isl = s.isl) := by
  refine ⟨_, by rw [exec_ledgerWrite, execLedgerWrite, State.act_on _ hc, if_neg (by rw [hp]; exact Bool.false_ne_true)], ?_⟩
  obtain ⟨d, f, h⟩ := s.accFault_eq .addr m 2 (islBase n + 0x10)
  rw [h]
  exact ⟨rfl, rfl⟩

theorem readmit_queues (hc : s.clocked = true) : exec (.readmit m) s =
    .next { s with ledq := s.ledq ++ [(s.tick + BitVec.ofNat 64 (s.qtk + 4), .readmit m)] } := by
  rw [exec_readmit, execReadmit, State.act_on _ hc]
  rfl

theorem admissionComplete_ends (hc : s.clocked = true) (hd : s.isDue .admissionComplete = true) : Completes .admissionComplete s (fun u =>
    u = { s with due := u.due, busy := decide (s.slate.st = .committing) && s.slate.passed }) :=
  ⟨_, by rw [exec_admissionComplete, execAdmissionComplete, State.timed, State.act_on _ hc, if_pos hd], rfl⟩

theorem State.holdsBack_iff : s.holdsBack n = true ↔ s.isl[n].ready = false ∨ s.parked = true := by
  unfold State.holdsBack
  rw [Bool.or_eq_true, Bool.not_eq_true']

end Requests

/-! ## The obligation about the ledger and the rungs -/

/-- Settles O30: the requests, the edge that takes them, the switch of an island's rungs, and what keeps the grains. -/
theorem ledgerAndRungs : Obligations.LedgerAndRungs := by
  refine ⟨⟨fun s m n w hc => ?_, fun s m n w came rest hedge hbusy hslate hcame => ⟨fun hq hpend => ?_, fun hq => ?_⟩⟩,
    fun s n hc hr => ?_, fun s hadm hisl => ⟨?_, fun m n w c hmem => ?_⟩, fun s m w hadm => ?_⟩
  · exact ⟨ledgerWrite_queues hc, ledgerWrite_refused hc, readmit_queues hc, admissionComplete_ends hc⟩
  · obtain ⟨hb, hl, hd, hasked, hgrant, hother⟩ := writeEdge hedge hbusy hslate hcame hq hpend
    generalize s.ledEdge = u at hb hl hd hasked hgrant hother ⊢
    obtain ⟨hrung, hhart, hchar⟩ : _ ∧ _ ∧ _ := by simpa only [Ledger.asked, Prod.mk.injEq] using hasked
    obtain ⟨frung, fhart, fchar⟩ := s.requests_fields n w
    refine ⟨hb, hl, hd, by rw [hrung, frung], by rw [hhart, fhart], by rw [hchar, fchar], fun hpow hpers => ?_, fun k hk => by rw [hother k hk]⟩
    obtain ⟨hheld, hfit, hlow⟩ := hgrant hpow hpers
    have hfree (hready : s.isl[n].ready = true) (hpark : s.parked = false) : s.holdsBack n = false := by
      rw [State.holdsBack, hready, hpark]
      rfl
    exact ⟨fun h => hheld (State.holdsBack_iff.2 h), fun h1 h2 => hfit (hfree h1 h2), fun h1 h2 => hlow (hfree h1 h2)⟩
  · exact readmitEdge hedge hbusy hslate hcame hq
  · exact ⟨rung_switches hc hr, rungSwitchDone_sends hc hr, rungAct_crosses hc, rungAct_ends hc, rungAct_noop hc⟩
  · exact State.ledEdge_grainsKept ⟨hadm, hisl⟩
  · exact ledgerRow_keeps ⟨hadm, hisl⟩ m n w c hmem
  · exact islandPowerWrite_keeps hadm m w

end Sys2Proof.Machine

/-! # Islands: their power, demands and cells, and commits -/

namespace Sys2Proof.Machine

/-! ## Rows that only grow the calendar -/

/-- u is s with more rows owed. -/
def State.OwesMore (s u : State) : Prop := ∃ d, u = { s with due := d } ∧ s.due ⊆ d

section OwesMore

variable {s u v : State}

theorem State.OwesMore.rfl : s.OwesMore s := ⟨s.due, by rfl, List.Subset.refl _⟩

theorem State.OwesMore.trans (h : s.OwesMore u) (h' : u.OwesMore v) : s.OwesMore v := by
  obtain ⟨d, rfl, hd⟩ := h
  obtain ⟨d', rfl, hd'⟩ := h'
  exact ⟨d', by rfl, fun _ h => hd' (hd h)⟩

theorem State.OwesMore.isl (h : s.OwesMore u) : u.isl = s.isl := by
  obtain ⟨d, rfl, -⟩ := h
  rfl
theorem State.OwesMore.fault (h : s.OwesMore u) : u.fault = s.fault := by
  obtain ⟨d, rfl, -⟩ := h
  rfl
theorem State.OwesMore.time (h : s.OwesMore u) : u.time = s.time := by
  obtain ⟨d, rfl, -⟩ := h
  rfl
theorem State.OwesMore.due (h : s.OwesMore u) : s.due ⊆ u.due := by
  obtain ⟨d, rfl, hd⟩ := h
  exact hd

theorem State.owesMore_oweAt (s : State) (t : Tick) (c : Instr) : s.OwesMore (s.oweAt t c) :=
  ⟨_, s.oweAt_eq t c, fun _ h => State.mem_oweAt.2 (.inl h)⟩
theorem State.owesMore_owe (s : State) (k : Nat) (c : Instr) : s.OwesMore (s.owe k c) := s.owesMore_oweAt _ c

theorem State.owe_isl (s : State) (k : Nat) (c : Instr) : (s.owe k c).isl = s.isl := (s.owesMore_owe k c).isl

theorem State.owesMore_ite (p : Prop) [Decidable p] (hu : s.OwesMore u) (hv : s.OwesMore v) : s.OwesMore (if p then u else v) :=
  ite_keeps p hu hv

theorem State.owesMore_foldl {β : Type} (l : List β) (f : State → β → State) (hf : ∀ (v : State) b, v.OwesMore (f v b)) (s : State) :
    s.OwesMore (l.foldl f s) :=
  List.foldlRecOn (motive := fun v => State.OwesMore s v) l f .rfl fun _ hv b _ => hv.trans (hf _ b)

theorem State.owesMore_pulse (s : State) (src : Nat) : s.OwesMore (s.pulse src) :=
  State.owesMore_foldl _ _ (fun v _ => v.owesMore_owe 0 _) s

theorem State.owesMore_tapChanged (s : State) : s.OwesMore s.tapChanged :=
  State.owesMore_foldl _ _ (fun v _ => State.owesMore_ite _ (State.owesMore_ite _ (State.owesMore_ite _ .rfl (v.owesMore_owe _ _))
    (State.owesMore_ite _ (v.owesMore_owe _ _) .rfl)) .rfl) s

theorem State.owesMore_fenceCheck (s : State) (t : CtxNo) : s.OwesMore (s.fenceCheck t) := by
  unfold State.fenceCheck
  split
  · exact State.owesMore_ite _ .rfl (s.owesMore_owe 0 _)
  · exact .rfl
theorem State.owesMore_fenceChecks (s : State) : s.OwesMore s.fenceChecks := State.owesMore_foldl _ _ State.owesMore_fenceCheck s
theorem State.owesMore_commitCheck (s : State) : s.OwesMore s.commitCheck := State.owesMore_ite _ (s.owesMore_owe _ _) .rfl
theorem State.owesMore_shadowCheck (s : State) : s.OwesMore s.shadowCheck := State.owesMore_ite _ (s.owesMore_oweAt _ _) .rfl
theorem State.owesMore_ackChecks (s : State) : s.OwesMore s.ackChecks :=
  (s.owesMore_fenceChecks.trans (State.owesMore_commitCheck _)).trans (State.owesMore_shadowCheck _)

end OwesMore

/-! ## What a fault leaves -/

/-- A fault takes no row off the calendar. -/
theorem State.raiseAt_due (s : State) (stamp : Tick) (src m : Byte) (typ : BitVec 4) (kind : Byte) (a dt : Word) (inj : Bool) :
    s.due ⊆ (s.raiseAt stamp src m typ kind a dt inj).due := by
  unfold State.raiseAt
  split
  extract_lets mw ha queued grace base r first
  split
  rename_i s1 _ f' r' _
  have hpulse : s.due ⊆ s1.due := (State.owesMore_ite (first = true) (s.owesMore_pulse 0x123) .rfl).due
  clear_value s1
  split
  · exact fun e he => State.mem_owe.2 (.inl (hpulse he))
  · exact fun e he => State.mem_owe.2 (.inl (hpulse he))

/-- A fault that is raised now is held with its source, its master and its detail (R288, R295). -/
theorem State.raiseAt_detail (s : State) (stamp : Tick) (src m : Byte) (typ : BitVec 4) (kind : Byte) (a dt : Word) (inj : Bool) :
    ∃ r ∈ (s.raiseAt stamp src m typ kind a dt inj).fault.react ++ (s.raiseAt stamp src m typ kind a dt inj).fault.dq,
      r.src = src ∧ r.mid = m ∧ r.kind = kind ∧ r.detail = dt ∧ r.came = s.tick := by
  unfold State.raiseAt
  split
  rename_i f q hf
  extract_lets mw ha queued grace base r first
  split
  rename_i s1 _ f' r' hc
  obtain ⟨b, hb⟩ := Collector.capture_record f r
  have hr : r' = { r with capt := b } := (congrArg Prod.snd hc).symm.trans hb
  subst hr
  split
  · exact ⟨_, by rw [State.owe_eq]; exact List.mem_append_right _ (List.mem_append_right _ (List.mem_singleton_self _)), rfl, rfl, rfl, rfl, rfl⟩
  · exact ⟨_, by rw [State.owe_eq]; exact List.mem_append_left _ (List.mem_append_right _ (List.mem_singleton_self _)), rfl, rfl, rfl, rfl, rfl⟩

/-! ## Islands alone -/

/-- Updates that agree on the island that stands there are one. -/
theorem State.modIsl_congr {s : State} {n : IslandNo} {f g : Island → Island} (h : f s.isl[n] = g s.isl[n]) :
    s.modIsl n f = s.modIsl n g := by
  unfold State.modIsl
  rw [h]

/-- An update that leaves its island as it is. -/
theorem State.modIsl_self {s : State} {n : IslandNo} {f : Island → Island} (h : f s.isl[n] = s.isl[n]) : s.modIsl n f = s := by
  have hset : s.isl.set n (f s.isl[n]) = s.isl := by
    rw [h]
    exact Vector.set_getElem_self _
  unfold State.modIsl
  rw [hset]

/-! ## One island alone -/

section IslandOnly

variable {s u v : State} {n : IslandNo}

theorem IslandOnly.rfl : IslandOnly s s n := ⟨by rfl, fun _ _ => by rfl⟩

theorem IslandOnly.trans (h : IslandOnly s u n) (h' : IslandOnly u v n) : IslandOnly s v n := by
  obtain ⟨hu, hi⟩ := h
  obtain ⟨hv, hj⟩ := h'
  refine ⟨?_, fun k hk => (hj k hk).trans (hi k hk)⟩
  rw [hv, hu]

theorem IslandOnly.tick (h : IslandOnly s u n) : u.tick = s.tick := by rw [h.1]
theorem IslandOnly.fault (h : IslandOnly s u n) : u.fault = s.fault := by rw [h.1]
theorem IslandOnly.pow (h : IslandOnly s u n) : u.pow = s.pow := by rw [h.1]

theorem islandOnly_modIsl (s : State) (n : IslandNo) (f : Island → Island) : IslandOnly s (s.modIsl n f) n :=
  ⟨rfl, fun k hk => s.modIsl_other n k f hk⟩

theorem islandOnly_due (s : State) (d : List (Tick × Instr)) (n : IslandNo) : IslandOnly s { s with due := d } n := ⟨rfl, fun _ _ => rfl⟩

theorem islandOnly_sendLane (s : State) (k : Nat) (x : Transit) (n : IslandNo) : IslandOnly s (s.sendLane k x) n := ⟨rfl, fun _ _ => rfl⟩

theorem State.OwesMore.islandOnly (h : s.OwesMore u) (n : IslandNo) : IslandOnly s u n := by
  obtain ⟨d, rfl, -⟩ := h
  exact islandOnly_due s d n

theorem islandOnly_ite (p : Prop) [Decidable p] (hu : IslandOnly s u n) (hv : IslandOnly s v n) : IslandOnly s (if p then u else v) n :=
  ite_keeps (P := fun w => IslandOnly s w n) p hu hv

end IslandOnly

/-- An upstream cell that arrives changes the queue and the expected SEQ of its island. -/
theorem State.arrived_modIsl (s : State) (n : IslandNo) (d : UpData) :
    ∃ l q, s.arrived n d = s.modIsl n (fun i => { i with up := l, upRx := q }) := by
  unfold State.arrived
  split
  · exact ⟨accept d s.isl[n].up, s.isl[n].upRx + 1, State.modIsl_congr rfl⟩
  · exact ⟨s.isl[n].up, s.isl[n].upRx, (State.modIsl_self rfl).symm⟩

/-- A downstream cell that lands changes the queue and the expected SEQ of its island. -/
theorem State.landed_modIsl (s : State) (n : IslandNo) (d : DownData) :
    ∃ l q, s.landed n d = s.modIsl n (fun i => { i with down := l, dnRx := q }) := by
  unfold State.landed
  split
  · exact ⟨accept d s.isl[n].down, s.isl[n].dnRx + 1, State.modIsl_congr rfl⟩
  · exact ⟨s.isl[n].down, s.isl[n].dnRx, (State.modIsl_self rfl).symm⟩

/-! ## APPLY in service hold -/

/-- A RUNNING island in service hold, OFF by its record in force, for which a record with the personality DO has come. -/
def State.heldMoves : State :=
  State.reset.modIsl 0 (fun i => { i with power := .running, hold := true, recShadow := some [(0, 4)] })

theorem exec_cmdApply_heldMoves : exec (.cmdApply 0) State.heldMoves = .next (State.heldMoves.applyRecord 0 [(0, 4)]) := by
  have hlanded : State.heldMoves.landed 0 (.cmd .apply) = State.heldMoves := rfl
  have hshadow : State.heldMoves.isl[(0 : IslandNo)].recShadow = some [(0, 4)] := rfl
  have hrun : State.heldMoves.running 0 = true := rfl
  rw [exec_cmdApply, execCmdApply, State.act_on _ rfl]
  simp only [hlanded, hshadow, hrun, if_true]

/-- The personality has changed, and the end of the service hold has left a raw command behind (R403). -/
theorem cmdApply_heldMoves : Completes (.cmdApply 0) State.heldMoves (fun u =>
    u.isl[(0 : IslandNo)].pers ≠ State.heldMoves.isl[(0 : IslandNo)].pers ∧ u.isl[(0 : IslandNo)].cmd.raw = true) :=
  ⟨_, exec_cmdApply_heldMoves, by decide +kernel⟩

/-- Refutes O43: an APPLY that changes the personality also ends a service hold, and that end leaves a raw command in place of the one after
reset. -/
theorem not_outputAndCommandCells : ¬ Obligations.OutputAndCommandCells := by
  rintro ⟨-, h⟩
  obtain ⟨-, happly, -⟩ := h State.heldMoves 0 rfl rfl
  obtain ⟨u, hu, -, -, -, -, -, -, -, -, hmoved, -⟩ := happly [(0, 4)] rfl
  obtain ⟨v, hv, hpers, hraw⟩ := cmdApply_heldMoves
  obtain rfl := Host.Outcome.next.inj (hv.symm.trans hu)
  obtain ⟨-, hcmd⟩ := hmoved hpers
  rw [hcmd] at hraw
  exact Bool.false_ne_true hraw

/-! ## Cells that fail -/

section Repeat

variable {s : State} {n : IslandNo}

theorem spoil_sent {α : Type} {c : Cell α} {l : List (Cell α)} (hs : c.sent = true) : spoil (c :: l) = { c with bad := true } :: l := if_pos hs

/-- Nothing is on its way that could fail. -/
theorem spoil_unsent {α : Type} {l : List (Cell α)} (h : ∀ c ∈ l, c.sent = false) : spoil l = l := by
  cases l with
  | nil => rfl
  | cons c l => exact if_neg (by rw [h c (List.mem_cons_self ..)]; exact Bool.false_ne_true)

theorem cellRetransmit_spoils (hc : s.clocked = true) :
    (∀ c l, s.isl[n].down = c :: l → c.sent = true → exec (.cellRetransmit n .down) s = .next (s.modIsl n (fun i =>
      { i with down := { c with bad := true } :: l }))) ∧
    (∀ c l, s.isl[n].up = c :: l → c.sent = true → exec (.cellRetransmit n .up) s = .next (s.modIsl n (fun i =>
      { i with up := { c with bad := true } :: l }))) := by
  constructor
  · intro c l hq hs
    rw [exec_cellRetransmit, execCellRetransmit, State.act_on _ hc]
    exact congrArg Host.Outcome.next (State.modIsl_congr (by rw [hq, spoil_sent hs]))
  · intro c l hq hs
    rw [exec_cellRetransmit, execCellRetransmit, State.act_on _ hc]
    exact congrArg Host.Outcome.next (State.modIsl_congr (by rw [hq, spoil_sent hs]))

theorem cellRetransmit_idle (hc : s.clocked = true) :
    ((∀ c ∈ s.isl[n].down, c.sent = false) → exec (.cellRetransmit n .down) s = .next s) ∧
    ((∀ c ∈ s.isl[n].up, c.sent = false) → exec (.cellRetransmit n .up) s = .next s) := by
  constructor
  · intro h
    rw [exec_cellRetransmit, execCellRetransmit, State.act_on _ hc]
    exact congrArg Host.Outcome.next (State.modIsl_self (by rw [spoil_unsent h]))
  · intro h
    rw [exec_cellRetransmit, execCellRetransmit, State.act_on _ hc]
    exact congrArg Host.Outcome.next (State.modIsl_self (by rw [spoil_unsent h]))

/-- The cell of the front is judged 24 tk after its slot (R39). -/
theorem ackDue_front {α : Type} {t : Tick} {c : Cell α} {l : List (Cell α)} (hs : c.sent = true) (ht : c.slot + 24 ≤ t) :
    ackDue t (c :: l) = some c := if_pos (Bool.and_eq_true_iff.2 ⟨hs, decide_eq_true ht⟩)

/-- Whether the acknowledgement of a cell has failed. -/
theorem Cell.refused {α : Type} {c : Cell α} (h : c.got = false ∨ c.bad = true) : ¬ (c.got && !c.bad) = true := by
  rcases h with h | h <;> simp [h]

/-- The cell that has failed, with those behind it that have left, waits to be sent again. -/
theorem goBack_failed {α : Type} {c : Cell α} {l : List (Cell α)} (hs : c.sent = true) : goBack ({ c with failed := true } :: l) =
    { c with sent := false, bad := false, again := true, failed := true } ::
      l.map (fun x => if x.sent then { x with sent := false, bad := false, again := true } else x) := by
  rw [goBack, List.map_cons, if_pos hs]

/-- The island from which an output word was dropped: its SYNC cell stands in front of the cells behind it (R40). -/
def Island.wordLost (c : DownCell) (rest : List DownCell) (now : Tick) (i : Island) : Island :=
  { i with down := syncCell (.sync c.seq) c.seq now :: reseq (c.seq + 1) rest, dnTx := Sys2Proof.Machine.nextSeq (c.seq + 1) rest, stale := true }

/-- The drop of an output word concerns no write, no loopback and no record. -/
theorem State.dropDown_outword {c : DownCell} {w : Word} (hd : c.data = .outword w) (hr : c.req ≠ .slate) (hy : c.sync = false)
    (rest : List DownCell) : s.dropDown n c rest = ((s.modIsl n (Island.wordLost c rest s.tick)).micaCell n).ackChecks := by
  have hleft : rest.filter (fun x => !(decide (c.req = .link) && c.data.isWrite && behind c.xref x)) = rest := by
    simp [hd, DownData.isWrite]
  obtain ⟨data, sync, req, addr, xref, since, sent, slot, seq, bad, got, failed, again⟩ := c
  subst hd hy
  unfold State.dropDown
  dsimp only at hleft hr ⊢
  rw [if_neg Bool.false_ne_true, if_neg hr]
  change State.ackChecks (State.micaCell (s.modIsl n _) n) = _
  simp only [DownData.rank, OfNat.zero_ne_ofNat, decide_false, Bool.false_eq_true, if_false, hleft]
  rfl

section Down

variable {c : DownCell} {l : List DownCell} (hq : s.isl[n].down = c :: l) (hs : c.sent = true) (ht : c.slot + 24 ≤ s.tick)

include hq hs ht

theorem State.ackDown_acked (hg : c.got = true) (hb : c.bad = false) : (s.ackDown n).isl[n].down = l ∧
    (s.ackDown n).isl[n].cellDrop = s.isl[n].cellDrop ∧ (s.ackDown n).fault = s.fault := by
  have hu : s.ackDown n = (s.modIsl n (fun i => { i with down := i.down.tail })).ackChecks := by
    unfold State.ackDown
    rw [hq, ackDue_front hs ht]
    exact if_pos (by rw [hg, hb]; rfl)
  have hack := (s.modIsl n (fun i => { i with down := i.down.tail })).owesMore_ackChecks
  rw [hu, hack.isl, hack.fault, State.modIsl_same, hq]
  exact ⟨rfl, rfl, rfl⟩

/-- The first failure: the cell and every cell behind it that has left go out again (R39). -/
theorem State.ackDown_back (h : c.got = false ∨ c.bad = true) (hf : c.failed = false) : s.ackDown n = s.modIsl n (fun i => { i with
    down := { c with sent := false, bad := false, again := true, failed := true } ::
      l.map (fun x => if x.sent then { x with sent := false, bad := false, again := true } else x) }) := by
  unfold State.ackDown
  rw [hq, ackDue_front hs ht]
  dsimp only
  rw [if_neg (Cell.refused h), if_neg (by rw [hf]; exact Bool.false_ne_true), ← goBack_failed hs]
  exact State.modIsl_congr (by rw [hq, List.tail_cons])

/-- The second failure of an output word: it is dropped, and its SYNC cell goes out in front of those behind it (R40). -/
theorem State.ackDown_drop (h : c.got = false ∨ c.bad = true) (hf : c.failed = true) {w : Word} (hd : c.data = .outword w)
    (hr : c.req ≠ .slate) (hy : c.sync = false) :
    let u := s.ackDown n
    u.isl[n].cellDrop = satAdd s.isl[n].cellDrop 1 ∧ u.isl[n].stale = true ∧ Raises s u 0x10 (mid (.island n)) 0 ∧
      ∃ x, u.isl[n].down = x :: reseq (c.seq + 1) (l.map (fun x => if x.sent then { x with sent := false, bad := false, again := true } else x)) ∧
        x.data = .sync c.seq ∧ x.seq = c.seq ∧ x.sync = true ∧ x.again = true := by
  have hback : (goBack s.isl[n].down).tail = l.map (fun x => if x.sent then { x with sent := false, bad := false, again := true } else x) := by
    rw [hq]
    rfl
  generalize l.map (fun x => if x.sent then { x with sent := false, bad := false, again := true } else x) = rest at hback ⊢
  have hu : s.ackDown n = ((s.modIsl n (Island.wordLost c rest s.tick)).micaCell n).ackChecks := by
    unfold State.ackDown
    rw [hq, ackDue_front hs ht]
    dsimp only
    rw [if_neg (Cell.refused h), if_pos hf, ← hq, hback, State.dropDown_outword hd hr hy]
  have hack := ((s.modIsl n (Island.wordLost c rest s.tick)).micaCell n).owesMore_ackChecks
  have hraise : Raises s ((s.modIsl n (Island.wordLost c rest s.tick)).micaCell n) 0x10 (mid (.island n)) 0 := State.raiseAt_raises ..
  obtain ⟨d, f, hmica⟩ : ∃ d f, (s.modIsl n (Island.wordLost c rest s.tick)).micaCell n = { (s.modIsl n (Island.wordLost c rest s.tick)).modIsl n
    (fun i => { i with cellDrop := satAdd i.cellDrop 1 }) with due := d, fault := f } := State.raise_eq ..
  have hisl : (s.ackDown n).isl[n] = { s.isl[n].wordLost c rest s.tick with cellDrop := satAdd s.isl[n].cellDrop 1 } := by
    rw [hu, hack.isl, hmica]
    dsimp only
    rw [State.modIsl_same, State.modIsl_same]
    rfl
  dsimp only
  rw [hisl]
  exact ⟨rfl, rfl, hraise.congr (by rw [hu, hack.fault]), _, rfl, rfl, rfl, rfl, rfl⟩

end Down

section Up

variable {c : UpCell} {l : List UpCell} (hq : s.isl[n].up = c :: l) (hs : c.sent = true) (ht : c.slot + 24 ≤ s.tick)

include hq hs ht

theorem State.ackUp_acked (hg : c.got = true) (hb : c.bad = false) : s.ackUp n = s.modIsl n (fun i => { i with up := l }) := by
  unfold State.ackUp
  rw [hq, ackDue_front hs ht]
  dsimp only
  rw [if_pos (by rw [hg, hb]; rfl)]
  exact State.modIsl_congr (by rw [hq, List.tail_cons])

theorem State.ackUp_back (h : c.got = false ∨ c.bad = true) (hf : c.failed = false) : s.ackUp n = s.modIsl n (fun i => { i with
    up := { c with sent := false, bad := false, again := true, failed := true } ::
      l.map (fun x => if x.sent then { x with sent := false, bad := false, again := true } else x) }) := by
  unfold State.ackUp
  rw [hq, ackDue_front hs ht]
  dsimp only
  rw [if_neg (Cell.refused h), if_neg (by rw [hf]; exact Bool.false_ne_true), ← goBack_failed hs]
  exact State.modIsl_congr (by rw [hq, List.tail_cons])

end Up

end Repeat

/-- Settles O46: a cell that fails is marked, and what its missing acknowledgement does at its first and at its second failure. -/
theorem cellsAreRepeatedThenDropped : Obligations.CellsAreRepeatedThenDropped := by
  refine ⟨fun s n hc => ?_, fun s n c l hq hs ht => ?_, fun s n c l hq hs ht => ?_⟩
  · obtain ⟨hdown, hup⟩ := cellRetransmit_spoils (n := n) hc
    obtain ⟨hidle, hidle'⟩ := cellRetransmit_idle (n := n) hc
    exact ⟨hdown, hup, hidle, hidle'⟩
  · exact ⟨State.ackDown_acked hq hs ht, State.ackDown_back hq hs ht, fun w h hf hd hr hy => State.ackDown_drop hq hs ht h hf hd hr hy⟩
  · exact ⟨State.ackUp_acked hq hs ht, State.ackUp_back hq hs ht⟩

/-! ## What arrives from an island -/

section Arrivals

variable {s : State} {n : IslandNo}

theorem sync_expects (hc : s.clocked = true) (q : BitVec 2) :
    Completes (.sync n .down q) s (fun u => u.isl[n].dnRx = q + 1 ∧ u.isl[n].upRx = s.isl[n].upRx) ∧
    Completes (.sync n .up q) s (fun u => u.isl[n].upRx = q + 1 ∧ u.isl[n].dnRx = s.isl[n].dnRx) := by
  constructor
  · obtain ⟨l, e, hl⟩ := s.landed_modIsl n (.sync q)
    refine ⟨_, by rw [exec_sync, execSync, State.act_on _ hc], ?_⟩
    dsimp only
    rw [hl, State.modIsl_same, State.modIsl_same]
    exact ⟨rfl, rfl⟩
  · obtain ⟨l, e, hl⟩ := s.arrived_modIsl n (.sync q)
    refine ⟨_, by rw [exec_sync, execSync, State.act_on _ hc], ?_⟩
    dsimp only
    rw [hl, State.modIsl_same, State.modIsl_same]
    exact ⟨rfl, rfl⟩

/-! ### RESULT cells -/

/-- A RESULT cell with VAL gives the image its value (R204). -/
def State.resultValue (s : State) (n : IslandNo) (w : Word) (x : BitVec 19) : State :=
  if w.getLsbD 18 ∧ !s.isl[n].hold then
    s.modIsl n (fun i => { i with ana := { i.ana with
      value := w.extractLsb' 0 16, valid := !x.getLsbD 1, new := true, rawv := i.pers.anaIn && x.getLsbD 0,
      stillCut := i.ana.stillCut || w.getLsbD 25 } })
  else s

theorem State.resultValue_modIsl (s : State) (n : IslandNo) (w : Word) (x : BitVec 19) :
    ∃ a, s.resultValue n w x = s.modIsl n (fun i => { i with ana := a }) ∧
      (w.getLsbD 18 = true → s.isl[n].hold = false → a.value = w.extractLsb' 0 16 ∧ a.valid = !x.getLsbD 1 ∧ a.new = true) ∧
      (w.getLsbD 18 = false → a = s.isl[n].ana) := by
  unfold State.resultValue
  split
  · rename_i h
    exact ⟨_, State.modIsl_congr rfl, fun _ _ => ⟨rfl, rfl, rfl⟩, fun hw => absurd (hw.symm.trans h.1) Bool.false_ne_true⟩
  · rename_i h
    exact ⟨_, (State.modIsl_self rfl).symm, fun hw hh => absurd ⟨hw, by rw [hh]; rfl⟩ h, fun _ => rfl⟩

/-- A result of an entry with DMA = 1 joins the stream while that has room (R260). -/
def State.resultStream (s : State) (n : IslandNo) (w : Word) : State :=
  if (s.isl[n].slotEntry (Fin.ofNat 20 (fld w 27 5))).getLsbD 22 then
    if s.isl[n].rstream.length < 32 then s.modIsl n (fun i => { i with rstream := i.rstream ++ [w] })
    else s.modIsl n (fun i => { i with rsOvr := satAdd i.rsOvr 1 })
  else s

theorem State.resultStream_modIsl (s : State) (n : IslandNo) (w : Word) :
    ∃ k, s.resultStream n w = s.modIsl n (fun i => { i with
      rstream := if (i.slotEntry (Fin.ofNat 20 (fld w 27 5))).getLsbD 22 ∧ i.rstream.length < 32 then i.rstream ++ [w] else i.rstream,
      rsOvr := k }) := by
  unfold State.resultStream
  split
  · rename_i hd
    split
    · rename_i hl
      exact ⟨s.isl[n].rsOvr, State.modIsl_congr (by rw [if_pos ⟨hd, hl⟩])⟩
    · rename_i hl
      exact ⟨satAdd s.isl[n].rsOvr 1, State.modIsl_congr (by rw [if_neg fun h => hl h.2])⟩
  · rename_i hd
    exact ⟨s.isl[n].rsOvr, (State.modIsl_self (by rw [if_neg fun h => hd h.1])).symm⟩

/-- The marks of a result: those of its cell, or the island's own where it comes without one. -/
def State.resultMarks (s : State) (n : IslandNo) (w : Word) : BitVec 19 :=
  match flying (.result w) s.isl[n].up with | some c => c.xref | none => s.isl[n].valueMarks

/-- RESULT_CELL of a RUNNING island. -/
theorem exec_resultCell_running (hc : s.clocked = true) (hr : s.running n = true) (w : Word) : exec (.resultCell n w) s =
    .next (((s.arrived n (.result w)).resultValue n w
      (s.resultMarks n w)).resultStream n w) := by
  obtain ⟨l, q, hl⟩ := s.arrived_modIsl n (.result w)
  have hr' : (s.arrived n (.result w)).running n = true := by
    rw [hl, State.running, State.modIsl_same]
    exact hr
  rw [exec_resultCell, execResultCell, State.act_on _ hc]
  generalize s.arrived n (.result w) = v at hr'
  dsimp only
  rw [if_pos hr']
  obtain ⟨a, ha, -⟩ := v.resultValue_modIsl n w (s.resultMarks n w)
  have hi : (v.resultValue n w (s.resultMarks n w)).isl[n] =
      { v.isl[n] with ana := a } := by rw [ha, State.modIsl_same]
  unfold State.resultStream
  rw [hi]
  rfl

theorem resultCell_takes (hc : s.clocked = true) (hr : s.running n = true) (w : Word) :
    Completes (.resultCell n w) s (fun u =>
      (w.getLsbD 18 = true → s.isl[n].hold = false →
        u.isl[n].ana.value = w.extractLsb' 0 16 ∧ u.isl[n].ana.valid = !(s.resultMarks n w).getLsbD 1 ∧ u.isl[n].ana.new = true) ∧
      (w.getLsbD 18 = false → u.isl[n].ana = s.isl[n].ana) ∧
      u.isl[n].rstream = (if (s.isl[n].slotEntry (Fin.ofNat 20 (fld w 27 5))).getLsbD 22 ∧ s.isl[n].rstream.length < 32 then
        s.isl[n].rstream ++ [w] else s.isl[n].rstream) ∧ IslandOnly s u n) := by
  refine ⟨_, exec_resultCell_running hc hr w, ?_⟩
  obtain ⟨l, q, hl⟩ := s.arrived_modIsl n (.result w)
  obtain ⟨a, ha, hval, hkeep⟩ := (s.arrived n (.result w)).resultValue_modIsl n w (s.resultMarks n w)
  obtain ⟨k, hk⟩ := ((s.arrived n (.result w)).resultValue n w (s.resultMarks n w)).resultStream_modIsl n w
  rw [hl] at hval hkeep
  rw [State.modIsl_same] at hval hkeep
  refine ⟨?_, ?_, ?_, ?_⟩
  all_goals rw [hk, ha, hl]
  · rw [State.modIsl_same, State.modIsl_same]
    exact hval
  · rw [State.modIsl_same, State.modIsl_same]
    exact hkeep
  · rw [State.modIsl_same, State.modIsl_same, State.modIsl_same]
    rfl
  · exact ((islandOnly_modIsl s n _).trans (islandOnly_modIsl _ n _)).trans (islandOnly_modIsl _ n _)

/-! ### STATUS cells -/

/-- The sources that an island reports (R288). -/
theorem islSource_iff (src : Byte) : islSource src = true ↔ src ∈ [(0x10 : Byte), 0x31, 0x4C, 0x4D, 0x4E] ∨ (0x40 ≤ src ∧ src ≤ 0x4B) := by
  revert src
  decide +kernel

/-- Neither is a source outside the list and the range. -/
theorem islSource_foreign {src : Byte} (h : src ∉ [(0x10 : Byte), 0x31, 0x4C, 0x4D, 0x4E]) (h' : src < 0x40 ∨ 0x4B < src) :
    islSource src = false := by
  rw [Bool.eq_false_iff, ne_eq, islSource_iff]
  rintro (hm | ⟨hlo, hhi⟩)
  · exact h hm
  · exact h'.elim (fun hlt => absurd hlo (BitVec.not_le.2 hlt)) fun hlt => absurd hhi (BitVec.not_le.2 hlt)

theorem statusCell_foreign (hc : s.clocked = true) {src : Byte} (hs : islSource src = false) (kind : Byte) (d : Word) :
    Completes (.statusCell n (.fault src kind d)) s (fun u => u.fault = s.fault ∧ IslandOnly s u n) := by
  obtain ⟨l, q, hl⟩ := s.arrived_modIsl n (.status (.fault src kind d))
  refine ⟨s.arrived n (.status (.fault src kind d)), ?_, ?_, ?_⟩
  · rw [exec_statusCell, execStatusCell, State.act_on _ hc]
    dsimp only
    rw [hs]
    rfl
  · rw [hl]
    rfl
  · rw [hl]
    exact islandOnly_modIsl s n _

theorem islandOnly_diagEvent (s : State) (n : IslandNo) : IslandOnly s (s.diagEvent n) n :=
  islandOnly_ite _ .rfl ((islandOnly_modIsl s n _).trans ((State.owesMore_pulse _ _).islandOnly n))

/-- A change of DIAG sets the island's event bit unless its image is frozen (R83, R121). -/
theorem State.diagEvent_diagEv {s : State} {n : IslandNo} (h : s.isl[n].imgFrozen = none) : (s.diagEvent n).isl[n].diagEv = true := by
  unfold State.diagEvent
  rw [h]
  have hp := (s.modIsl n (fun i => { i with diagEv := true })).owesMore_pulse (0x0A0 + n.val)
  change ((s.modIsl n (fun i => { i with diagEv := true })).pulse (0x0A0 + n.val)).isl[n].diagEv = true
  rw [hp.isl, State.modIsl_same]

theorem statusCell_fault (hc : s.clocked = true) {src : Byte} (hs : islSource src = true) (kind : Byte) (d : Word) :
    Completes (.statusCell n (.fault src kind d)) s (fun u =>
      (∃ r ∈ u.fault.react ++ u.fault.dq, r.src = src ∧ r.mid = mid (.island n) ∧ r.kind = kind ∧ r.detail = d ∧ r.came = s.tick) ∧
      (diagSource src = true → s.isl[n].imgFrozen = none → u.isl[n].diagEv = true)) := by
  obtain ⟨l, q, hl⟩ := s.arrived_modIsl n (.status (.fault src kind d))
  have hfroz : (s.arrived n (.status (.fault src kind d))).isl[n].imgFrozen = s.isl[n].imgFrozen := by rw [hl, State.modIsl_same]
  have htick : (s.arrived n (.status (.fault src kind d))).tick = s.tick := by rw [hl, State.modIsl_tick]
  refine ⟨_, by rw [exec_statusCell, execStatusCell, State.act_on _ hc], ?_⟩
  dsimp only
  rw [hs]
  generalize s.arrived n (.status (.fault src kind d)) = a at hfroz htick
  change (∃ r ∈ ((if diagSource src then a.diagEvent n else a).raise ..).fault.react ++ _, _) ∧ _
  have hdiag : IslandOnly a (if diagSource src then a.diagEvent n else a) n := islandOnly_ite _ (islandOnly_diagEvent a n) .rfl
  constructor
  · rw [← htick, ← hdiag.tick]
    exact State.raiseAt_detail ..
  · intro hsrc hno
    obtain ⟨d', f, hr⟩ := (a.diagEvent n).raise_eq src (0x30 + BitVec.ofNat 8 n.val) (islType src) kind 0 d false
    rw [if_pos hsrc, hr]
    exact State.diagEvent_diagEv (hfroz.trans hno)

theorem statusCell_echo (hc : s.clocked = true) (hst : s.isl[n].loop.st = 1) (hd : s.isl[n].loop.depth = 1) (w : Word) :
    Completes (.statusCell n (.echo w)) s (fun u =>
      u.isl[n].loop.st = 2 ∧ u.isl[n].loop.code = (s.tick - s.isl[n].loop.start).extractLsb' 0 18 ∧
      u.isl[n].loop.pass = decide (w = (s.isl[n].loop.pattern ++ ~~~s.isl[n].loop.pattern : BitVec 32)) ∧ IslandOnly s u n) := by
  obtain ⟨l, q, hl⟩ := s.arrived_modIsl n (.status (.echo w))
  have hloop : (s.arrived n (.status (.echo w))).isl[n].loop = s.isl[n].loop := by rw [hl, State.modIsl_same]
  have htick : (s.arrived n (.status (.echo w))).tick = s.tick := by rw [hl, State.modIsl_tick]
  have hisl : IslandOnly s (s.arrived n (.status (.echo w))) n := hl ▸ islandOnly_modIsl s n _
  refine ⟨_, by rw [exec_statusCell, execStatusCell, State.act_on _ hc], ?_⟩
  generalize s.arrived n (.status (.echo w)) = a at hloop htick hisl
  dsimp only
  rw [hloop, htick, if_pos ⟨hst, hd⟩, State.loopDone, State.modIsl_same]
  exact ⟨rfl, rfl, rfl, hisl.trans (islandOnly_modIsl a n _)⟩

theorem statusCell_measured (hc : s.clocked = true) (hst : s.isl[n].loop.st = 1) (hd : 2 ≤ s.isl[n].loop.depth.val) (code : BitVec 18) :
    Completes (.statusCell n (.measured code)) s (fun u =>
      u.isl[n].loop.st = 2 ∧ u.isl[n].loop.code = code ∧
      u.isl[n].loop.pass = loopPass s.isl[n].loop.depth.val s.isl[n].loop.pattern code ∧ IslandOnly s u n) := by
  obtain ⟨l, q, hl⟩ := s.arrived_modIsl n (.status (.measured code))
  have hloop : (s.arrived n (.status (.measured code))).isl[n].loop = s.isl[n].loop := by rw [hl, State.modIsl_same]
  have hisl : IslandOnly s (s.arrived n (.status (.measured code))) n := hl ▸ islandOnly_modIsl s n _
  refine ⟨_, by rw [exec_statusCell, execStatusCell, State.act_on _ hc], ?_⟩
  generalize s.arrived n (.status (.measured code)) = a at hloop hisl
  dsimp only
  rw [hloop, if_pos ⟨hst, hd⟩, State.loopDone, State.modIsl_same]
  exact ⟨rfl, rfl, rfl, hisl.trans (islandOnly_modIsl a n _)⟩

/-! ### The reservoir -/

theorem islandOnly_cvTakes (s : State) (n : IslandNo) (ok : Bool) : IslandOnly s (s.cvTakes n ok) n :=
  islandOnly_ite _ ((islandOnly_modIsl s n _).trans (islandOnly_due _ _ n))
    (islandOnly_ite _ ((islandOnly_modIsl s n _).trans ((State.owesMore_owe _ _ _).islandOnly n)) (islandOnly_modIsl s n _))

theorem State.cvTakes_cvOk (s : State) (n : IslandNo) (ok : Bool) : (s.cvTakes n ok).isl[n].cvOk = ok := by
  have hmod : (s.modIsl n (fun i => { i with cvOk := ok })).isl[n].cvOk = ok := by rw [State.modIsl_same]
  exact ite_keeps (P := fun v => v.isl[n].cvOk = ok) _ hmod (ite_keeps (P := fun v => v.isl[n].cvOk = ok) _
    ((congrArg (fun v : Vector Island 16 => v[n].cvOk) (State.owe_isl _ _ _)).trans hmod) hmod)

/-- A reservoir that falls back takes the end of the delivery off the calendar (R352). -/
theorem State.cvTakes_falls (s : State) (n : IslandNo) : ∀ e ∈ (s.cvTakes n false).due, e.2 ≠ .vmicaHoldEnd n :=
  fun e he => ((State.cancel_due _ _ e).1 he).2

/-- A reservoir that comes back after an under-voltage starts the 8192 tk of delivery (R352). -/
theorem State.cvTakes_rises {s : State} {n : IslandNo} (hcv : s.isl[n].cvOk = false) (hok : s.pow.vmicaOk = true)
    (hno : s.isl[n].safe.noCarrier = true) : (s.tick + BitVec.ofNat 64 (8192 + s.itk), .vmicaHoldEnd n) ∈ (s.cvTakes n true).due := by
  have hno' : (s.modIsl n (fun i => { i with cvOk := true })).isl[n].safe.noCarrier = true := by rw [State.modIsl_same]; exact hno
  have hu : s.cvTakes n true = (s.modIsl n (fun i => { i with cvOk := true })).owe
      (8192 + (s.modIsl n (fun i => { i with cvOk := true })).itk) (.vmicaHoldEnd n) := by
    unfold State.cvTakes
    dsimp only
    rw [if_neg (by decide), if_pos (by rw [hcv, hno', State.modIsl_pow, hok]; rfl)]
  rw [hu]
  exact State.mem_owe_self ..

theorem statusCell_reservoir (hc : s.clocked = true) (ok : Bool) : Completes (.statusCell n (.cvOk ok)) s (fun u =>
    u.isl[n].cvOk = ok ∧ IslandOnly s u n ∧
    (s.running n = true → ok = false → ∀ e ∈ u.due, e.2 ≠ .vmicaHoldEnd n) ∧
    (s.running n = true → ok = true → s.isl[n].cvOk = false → s.pow.vmicaOk = true → s.isl[n].safe.noCarrier = true →
      (s.tick + BitVec.ofNat 64 (8192 + s.itk), .vmicaHoldEnd n) ∈ u.due)) := by
  obtain ⟨l, q, hl⟩ := s.arrived_modIsl n (.status (.cvOk ok))
  have hsame : (s.arrived n (.status (.cvOk ok))).isl[n] = { s.isl[n] with up := l, upRx := q } := by rw [hl, State.modIsl_same]
  have hisl : IslandOnly s (s.arrived n (.status (.cvOk ok))) n := hl ▸ islandOnly_modIsl s n _
  have hrun : (s.arrived n (.status (.cvOk ok))).running n = s.running n := by
    unfold State.running
    rw [hsame]
  refine ⟨_, by rw [exec_statusCell, execStatusCell, State.act_on _ hc], ?_⟩
  generalize s.arrived n (.status (.cvOk ok)) = a at hsame hisl hrun
  dsimp only
  rw [hrun]
  split
  · rename_i hr
    refine ⟨a.cvTakes_cvOk n ok, hisl.trans (islandOnly_cvTakes a n ok), fun _ hok => ?_, fun _ hok hcv hv hno => ?_⟩
    · rw [hok]
      exact a.cvTakes_falls n
    · have hitk : a.itk = s.itk := by unfold State.itk; rw [hisl.tick, hisl.pow]
      rw [hok, ← hisl.tick, ← hitk]
      exact State.cvTakes_rises (by rw [hsame]; exact hcv) (by rw [hisl.pow]; exact hv) (by rw [hsame]; exact hno)
  · rename_i hr
    exact ⟨by rw [State.modIsl_same], hisl.trans (islandOnly_modIsl a n _), fun h => absurd h hr, fun h => absurd h hr⟩

end Arrivals

/-- Settles O45: SYNC, RESULT and STATUS cells one by one, each by the lemma about its row. -/
theorem islandReportsArrive : Obligations.IslandReportsArrive := by
  intro s n hc
  refine ⟨sync_expects hc, fun w hr => resultCell_takes hc hr w, fun src kind d => ⟨fun h h' => ?_, fun h => ?_⟩,
    fun w hst hd => statusCell_echo hc hst hd w, fun code hst hd => statusCell_measured hc hst hd code, statusCell_reservoir hc⟩
  · exact statusCell_foreign hc (islSource_foreign h h') kind d
  · exact statusCell_fault hc ((islSource_iff src).2 h) kind d

/-! ## Kills and losses of an island -/

section Loss

variable {s u v : State} {n : IslandNo}

/-- A change of islands' charging places leaves what is admitted to them. -/
theorem State.grantCharge_led (s : State) (n : IslandNo) : s.grantCharge.isl[n].led = s.isl[n].led := by
  refine foldl_islands_keep (P := fun v => v.isl[n].led = s.isl[n].led) rfl fun v k hv =>
    ite_keeps (P := fun v => v.isl[n].led = s.isl[n].led) _ ?_ hv
  by_cases hk : n = k
  · subst hk
    rw [State.fitRsv, State.modIsl_same, State.modIsl_same]
    exact hv
  · rw [State.fitRsv, State.modIsl_other _ _ n _ hk, State.modIsl_other _ _ n _ hk]
    exact hv

/-- A kill moves the island's grains to those that are still to return, and its ledger waits for nothing (R43). -/
theorem State.kill_here (s : State) (n : IslandNo) (p : IslPower) :
    (s.kill n p).isl[n].held = s.isl[n].held ++ [(s.isl[n].led.admGr, s.isl[n].rsv)] ∧
    (s.kill n p).isl[n].led = { s.isl[n].led with pending := false, waitGr := false, admGr := 0, nextGr := 0, sentGr := 0 } := by
  have hacc := Island.account_parts (State.account_isl (s.cleared_account n p) n)
  rw [State.modIsl_same] at hacc
  obtain ⟨-, -, -, -, hheld, hled⟩ := hacc
  rw [State.kill_eq]
  generalize s.cleared n p = c at hheld hled
  obtain ⟨q, hq, -⟩ := (c.parkCheck.sendRungs.grantCharge.ackChecks).dormantCheck_spec
  have hun : (c.parkCheck.sendRungs.grantCharge).unled = c.parkCheck.unled := by rw [State.grantCharge_unled, State.sendRungs_unled]
  have hwait : c.parkCheck.isl[n].led.waitGr = false := by rw [State.parkCheck_isl, hled]; rfl
  rw [hq]
  dsimp only
  rw [(State.owesMore_ackChecks _).isl]
  constructor
  · rw [State.unled_held hun n, State.parkCheck_isl, hheld]
    rfl
  · rw [State.grantCharge_led, State.sendRungs_settled hwait, State.parkCheck_isl, hled]
    rfl

/-- What a kill has left owed stays owed behind its checks. -/
theorem State.kill_due (s : State) (n : IslandNo) (p : IslPower) : (s.cleared n p).due ⊆ (s.kill n p).due := by
  rw [State.kill_eq]
  generalize s.cleared n p = c
  obtain ⟨q, hq, -⟩ := (c.parkCheck.sendRungs.grantCharge.ackChecks).dormantCheck_spec
  obtain ⟨q', hq', -⟩ := c.parkCheck_spec
  have hun : (c.parkCheck.sendRungs.grantCharge).unled = c.parkCheck.unled := by rw [State.grantCharge_unled, State.sendRungs_unled]
  have hdue : (c.parkCheck.sendRungs.grantCharge).due = c.due := (State.unled_due hun).trans (congrArg State.due hq' :)
  have hack := (State.owesMore_ackChecks (c.parkCheck.sendRungs.grantCharge)).due
  rw [hdue] at hack
  rw [hq]
  dsimp only
  exact hack

theorem State.tick_of_time (h : u.time = s.time) : u.tick = s.tick := congrArg Prod.fst h

/-- Clearing an island takes no time. -/
theorem State.clearing_tick (v : State) (n : IslandNo) (f : Island → Island) :
    ((((v.modIsl n f).discardCells n).loopStop n 3 7).leaveRunning n).tick = v.tick :=
  State.tick_of_time (by simp)

/-- The grains of a kill return 512 tk later (R43). -/
theorem State.kill_returns (s : State) (n : IslandNo) (p : IslPower) : (s.tick + 512, .grainRelease n) ∈ (s.kill n p).due := by
  refine s.kill_due n p ?_
  unfold State.cleared
  extract_lets v w
  have htick : (((w.discardCells n).loopStop n 3 7).leaveRunning n).tick = s.tick := State.clearing_tick v n _
  generalize ((w.discardCells n).loopStop n 3 7).leaveRunning n = x at htick
  refine (State.owesMore_tapChanged _).due ?_
  rw [← htick]
  exact x.mem_owe_self 512 _

/-- What the loss of island n leaves (R42, R43). -/
def State.Lost (s u : State) (n : IslandNo) : Prop :=
  u.isl[n].power = .lost ∧ u.isl[n].en = false ∧ u.isl[n].held = s.isl[n].held ++ [(s.isl[n].led.admGr, s.isl[n].rsv)] ∧
  u.isl[n].led.admGr = 0 ∧ u.isl[n].led.pending = false ∧ (s.tick + 512, .grainRelease n) ∈ u.due ∧
  (∃ r ∈ u.fault.react ++ u.fault.dq, r.src = 0x11 ∧ r.mid = mid (.island n) ∧ r.kind = 0 ∧ r.came = s.tick) ∧
  ∀ k, k ≠ n → u.isl[k].power = s.isl[k].power

/-- A loss depends on the tick and the ledger's side alone. -/
theorem State.Lost.congr (h : v.Lost u n) (ht : v.tick = s.tick) (ha : v.account = s.account) : s.Lost u n := by
  obtain ⟨-, -, -, hrsv, hheld, hled⟩ := Island.account_parts (State.account_isl ha n)
  obtain ⟨hpow, hen, hh, hadm, hpend, hdue, hraise, hother⟩ := h
  rw [ht] at hdue hraise
  rw [hheld, hled, hrsv] at hh
  exact ⟨hpow, hen, hh, hadm, hpend, hdue, hraise, fun k hk => (hother k hk).trans (Island.account_parts (State.account_isl ha k)).1⟩

theorem State.lose_lost (s : State) (n : IslandNo) : s.Lost (s.lose n) n := by
  have htick : (s.outOfReach n).tick = s.tick := State.tick_of_time (ite_keeps (P := fun v : State =>
    (v.modIsl n (fun i => { i with down0 := true })).time = s.time) _ rfl rfl)
  refine State.Lost.congr (v := s.outOfReach n) ?_ htick (s.outOfReach_account n)
  have hu : s.lose n = ((s.outOfReach n).kill n .lost).raise 0x11 (0x30 + BitVec.ofNat 8 n.val) 0 0 0 0 false := rfl
  generalize s.outOfReach n = v at hu
  obtain ⟨hheld, hled⟩ := v.kill_here n .lost
  have hkill := v.kill_spec n .lost
  have hret := v.kill_returns n .lost
  have hnow : (v.kill n .lost).tick = v.tick := State.tick_of_time (v.kill_time n .lost)
  generalize v.kill n .lost = w at hu hheld hled hkill hret hnow
  have hrec := w.raiseAt_detail w.tick 0x11 (0x30 + BitVec.ofNat 8 n.val) 0 0 0 0 false
  have hkept := w.raiseAt_due w.tick 0x11 (0x30 + BitVec.ofNat 8 n.val) 0 0 0 0 false hret
  obtain ⟨r, hr, hsrc, hmid, hkind, -, hcame⟩ := hrec
  obtain ⟨d, f, hraise⟩ := w.raise_eq 0x11 (0x30 + BitVec.ofNat 8 n.val) 0 0 0 0 false
  have hisl : (s.lose n).isl = w.isl := by rw [hu, hraise]
  obtain ⟨hpow, hen⟩ := Island.station_parts (i := { v.isl[n] with power := .lost, en := false }) hkill.here
  unfold State.Lost
  rw [hisl, hheld, hled, hu]
  exact ⟨hpow, hen, rfl, rfl, rfl, hkept, ⟨r, hr, hsrc, hmid, hkind, hcame.trans hnow⟩, fun k hk => (Island.station_parts (hkill.other k hk)).1⟩

/-! ### Rows that lose an island -/

section Rows

variable (hc : s.clocked = true)

include hc

theorem symbolTimeout_loses (hr : s.running n = true) : Completes (.symbolTimeout n) s (fun u => s.Lost u n) := by
  refine ⟨_, by rw [exec_symbolTimeout, execSymbolTimeout, State.act_on _ hc, if_pos (show (s.settle (.symbolTimeout n)).running n = true from hr)], ?_⟩
  refine (State.lose_lost _ n).congr rfl (Eq.trans ?_ (s.settle_account (.symbolTimeout n)))
  exact State.account_modIsl _ n _ fun _ => rfl

theorem fatal_loses (hr : s.running n = true) : Completes (.fatal n) s (fun u => s.Lost u n) := by
  have hacc := s.arrived_account n .fatal
  have hr' : (s.arrived n .fatal).running n = true := by
    unfold State.running at hr ⊢
    rw [(Island.account_parts (State.account_isl hacc n)).1]
    exact hr
  refine ⟨_, by rw [exec_fatal, execFatal, State.act_on _ hc, if_pos hr'], ?_⟩
  exact (State.lose_lost _ n).congr (s.arrived_tick n .fatal) hacc

theorem couplerFault_loses (hp : s.isl[n].powered = true) : Completes (.couplerFault n) s (fun u => s.Lost u n) := by
  refine ⟨_, by rw [exec_couplerFault, execCouplerFault, State.taken_on _ _ hc,
    if_pos (show (s.settle (.couplerFault n)).isl[n].powered = true from hp)], ?_⟩
  exact (State.lose_lost _ n).congr rfl (s.settle_account _)

theorem firstSymbolTimeout_loses (hd : s.isDue (.firstSymbolTimeout n) = true) (hp : s.isl[n].power = .charging) (hv : s.isl[n].cvOk = true) :
    Completes (.firstSymbolTimeout n) s (fun u => s.Lost u n) := by
  have hgo : (s.settle (.firstSymbolTimeout n)).isl[n].power = .charging ∧ (s.settle (.firstSymbolTimeout n)).isl[n].cvOk = true := ⟨hp, hv⟩
  refine ⟨_, by rw [exec_firstSymbolTimeout, execFirstSymbolTimeout, State.timed, State.act_on _ hc, if_pos hd, if_pos hgo], ?_⟩
  exact (State.lose_lost _ n).congr rfl (s.settle_account _)

end Rows

/-! ### Power windows -/

section Windows

variable {gr100 : Nat} (hc : s.clocked = true)

include hc

section Judged

variable (hj : s.tick.toNat % 8192 = 0 ∧ s.isl[n].winJudge = true)

include hj

/-- A window over its limit counts, and the second in a row raises LEDGER_OVER (R58). -/
theorem exec_powerWindowEnd_over (h : 125 * s.isl[n].winPrev + 200 < gr100) : exec (.powerWindowEnd n gr100) s = .next (
    if s.isl[n].winBad = 1 then (s.modIsl n (fun i => { i with winJudge := false, winBad := min 3 (i.winBad + 1) })).raise 0x12
      (0x30 + BitVec.ofNat 8 n.val) 6 0 0 0 false
    else s.modIsl n (fun i => { i with winJudge := false, winBad := min 3 (i.winBad + 1) })) := by
  rw [exec_powerWindowEnd, execPowerWindowEnd, State.act_on _ hc]
  dsimp only
  rw [if_pos (by rw [hj.1, hj.2]; rfl), if_pos h]

theorem powerWindowEnd_first (h : 125 * s.isl[n].winPrev + 200 < gr100) (hb : s.isl[n].winBad = 0) :
    Completes (.powerWindowEnd n gr100) s (fun u => u.isl[n].winBad = 1 ∧ u.isl[n].winJudge = false ∧ u.fault = s.fault) := by
  refine ⟨_, (exec_powerWindowEnd_over hc hj h).trans (congrArg Host.Outcome.next (if_neg (by rw [hb]; decide))), ?_⟩
  dsimp only
  rw [State.modIsl_same, hb]
  exact ⟨rfl, rfl, rfl⟩

theorem powerWindowEnd_second (h : 125 * s.isl[n].winPrev + 200 < gr100) (hb : s.isl[n].winBad = 1) :
    Completes (.powerWindowEnd n gr100) s (fun u => u.isl[n].winBad = 2 ∧ Raises s u 0x12 (0x30 + BitVec.ofNat 8 n.val) 0) := by
  refine ⟨_, (exec_powerWindowEnd_over hc hj h).trans (congrArg Host.Outcome.next (if_pos hb)), ?_, State.raiseAt_raises ..⟩
  obtain ⟨d, f, hr⟩ := (s.modIsl n (fun i => { i with winJudge := false, winBad := min 3 (i.winBad + 1) })).raise_eq 0x12
    (0x30 + BitVec.ofNat 8 n.val) 6 0 0 0 false
  rw [hr]
  dsimp only
  rw [State.modIsl_same, hb]
  rfl

theorem powerWindowEnd_within (h : gr100 ≤ 125 * s.isl[n].winPrev + 200) :
    Completes (.powerWindowEnd n gr100) s (fun u => u.isl[n].winBad = 0 ∧ u.isl[n].winJudge = false ∧ u.fault = s.fault) := by
  refine ⟨s.modIsl n (fun i => { i with winJudge := false, winBad := 0 }), ?_, ?_⟩
  · rw [exec_powerWindowEnd, execPowerWindowEnd, State.act_on _ hc]
    dsimp only
    rw [if_pos (by rw [hj.1, hj.2]; rfl), if_neg (Nat.not_lt.2 h)]
  · dsimp only
    rw [State.modIsl_same]
    exact ⟨rfl, rfl, rfl⟩

end Judged

theorem powerWindowEnd_unjudged (h : ¬ (s.tick.toNat % 8192 = 0 ∧ s.isl[n].winJudge = true)) : exec (.powerWindowEnd n gr100) s = .next s := by
  rw [exec_powerWindowEnd, execPowerWindowEnd, State.act_on _ hc]
  dsimp only
  rw [if_neg (by rwa [Bool.and_eq_true, decide_eq_true_eq])]

end Windows

/-- The windows roll on the multiples of 8192 tk (R58). -/
theorem State.rollWindows_isl (h : s.tick.toNat % 8192 = 0) (n : IslandNo) : s.rollWindows.isl[n] = s.isl[n].rollWindow := by
  have hu : s.rollWindows = { s with isl := s.isl.map Island.rollWindow } := if_pos h
  rw [hu]
  simp

/-- A count of windows over the limit goes on only over a window that was judged, or not to be judged yet. -/
theorem Island.rollWindow_winBad (i : Island) : i.rollWindow.winBad =
    if i.winJudge = true ∨ i.winWhole = false ∨ i.powered = false then 0 else i.winBad := by
  have hiff : (i.winJudge || !(i.winWhole && i.powered)) = true ↔ i.winJudge = true ∨ i.winWhole = false ∨ i.powered = false := by
    rw [Bool.or_eq_true, Bool.not_eq_true', Bool.and_eq_false_iff]
  exact if_congr hiff rfl rfl

end Loss

/-- Settles O32: the rows that lose an island, each by what a loss leaves, and the power windows by their cases. -/
theorem islandsLostAndJudged : Obligations.IslandsLostAndJudged := by
  refine ⟨fun s n hc => ⟨fun hr => ⟨symbolTimeout_loses hc hr, fatal_loses hc hr⟩, couplerFault_loses hc, firstSymbolTimeout_loses hc⟩,
    fun s n gr100 hc => ⟨powerWindowEnd_first hc, powerWindowEnd_second hc, powerWindowEnd_within hc, powerWindowEnd_unjudged hc⟩,
    fun s n h => ?_⟩
  dsimp only
  rw [State.rollWindows_isl h]
  exact ⟨rfl, rfl, rfl, Island.rollWindow_winBad _, rfl⟩

/-! ## Powering islands up -/

section PowerUp

variable {s u : State} {m : Master} {n : IslandNo} {w : Word}

/-- The power of island n and its EN behind a write of b to its EN (R59). -/
def State.switched (s : State) (n : IslandNo) (b : Bool) : IslPower × Bool :=
  if b then (if s.mayPower n ∧ s.isl[n].powered = false then (.charging, true) else s.isl[n].station)
  else (if s.isl[n].powered then .bedrock else s.isl[n].power, false)

theorem State.switched_congr (hl : u.licence = s.licence) (hi : u.isl[n].station = s.isl[n].station) (b : Bool) : u.switched n b = s.switched n b := by
  unfold State.switched
  rw [State.mayPower_congr hl, Island.powered_station hi, hi, (Island.station_parts hi).1]

/-- EN written 0 kills an island that is powered, and reads 0 (R59, R415). -/
theorem State.writeEn_off (s : State) (m : Master) (n : IslandNo) : (s.writeEn m n false).isl[n].station = s.switched n false := by
  have hsame := s.modIsl_same n (fun i => { i with en := false, down0 := i.down0 || i.en })
  unfold State.writeEn State.killPowered State.switched
  rw [if_neg Bool.false_ne_true, if_neg Bool.false_ne_true]
  generalize s.modIsl n (fun i => { i with en := false, down0 := i.down0 || i.en }) = v at hsame
  have hp : v.isl[n].powered = s.isl[n].powered := by rw [hsame]; rfl
  rw [hp]
  by_cases h : s.isl[n].powered = true
  · rw [if_pos h, if_pos h]
    exact (v.kill_spec n .bedrock).here
  · rw [if_neg h, if_neg h, hsame]
    rfl

/-- EN written 1 starts an island that may be powered and is not, and leaves every other one (R59). -/
theorem State.writeEn_on (s : State) (m : Master) (n : IslandNo) : (s.writeEn m n true).isl[n].station = s.switched n true := by
  unfold State.switched
  rw [if_pos rfl]
  by_cases hmay : s.mayPower n = true
  · by_cases hp : s.isl[n].powered = true
    · rw [if_neg (fun h => Bool.false_ne_true (h.2.symm.trans hp)), State.writeEn, if_pos rfl, if_pos hmay, if_pos hp]
    · rw [if_pos ⟨hmay, Bool.eq_false_iff.2 hp⟩]
      exact State.writeEn_powers hmay (Bool.eq_false_iff.2 hp) m
  · rw [if_neg (fun h => hmay h.1), State.writeEn, if_pos rfl, if_neg hmay, State.clamped_isl]

theorem State.writeEn_station (s : State) (m : Master) (n : IslandNo) (b : Bool) : (s.writeEn m n b).isl[n].station = s.switched n b := by
  cases b
  · exact s.writeEn_off m n
  · exact s.writeEn_on m n

/-- Outside DORMANT each island's EN is written with its bit of the word (R59). -/
theorem State.writePower_station (h1 : s.pow.ps ≠ .dormant) (h2 : s.pow.ps ≠ .toDormant) (m : Master) (w : Word) (n : IslandNo) :
    (s.writePower m w).isl[n].station = s.switched n (w.getLsbD n.val) := by
  unfold State.writePower
  rw [if_neg (not_or.2 ⟨h1, h2⟩)]
  refine foldl_islands (Before := fun v => v.licence = s.licence ∧ v.isl[n].station = s.isl[n].station)
    (After := fun v => v.isl[n].station = s.switched n (w.getLsbD n.val)) n ⟨rfl, rfl⟩ (fun v k hk hv => ?_) (fun v hv => ?_) fun v k hk hv => ?_
  · have hb := v.writeEn_beyond m k (w.getLsbD k.val)
    exact ⟨hb.licence.trans hv.1, (hb.other n hk.symm).trans hv.2⟩
  · exact (v.writeEn_station m n _).trans (State.switched_congr hv.1 hv.2 _)
  · exact ((v.writeEn_beyond m k _).other n hk.symm).trans hv

theorem islandPowerWrite_switches (hc : s.clocked = true) (h1 : s.pow.ps ≠ .dormant) (h2 : s.pow.ps ≠ .toDormant) :
    Completes (.islandPowerWrite m w) s (fun u => ∀ n : IslandNo,
      (w.getLsbD n.val = true → s.mayPower n = true → s.isl[n].powered = false → u.isl[n].power = .charging ∧ u.isl[n].en = true) ∧
      (w.getLsbD n.val = true → s.isl[n].powered = true → u.isl[n].power = s.isl[n].power) ∧
      (w.getLsbD n.val = true → s.mayPower n = false → s.isl[n].powered = false → u.isl[n].power = s.isl[n].power) ∧
      (w.getLsbD n.val = false → u.isl[n].en = false ∧ u.isl[n].power = if s.isl[n].powered then .bedrock else s.isl[n].power)) := by
  refine ⟨_, by rw [exec_islandPowerWrite, execIslandPowerWrite, State.act_on _ hc], fun n => ?_⟩
  have hu := State.writePower_station h1 h2 m w n
  generalize (s.writePower m w).isl[n] = j at hu ⊢
  have hstays (h : ¬ (s.mayPower n ∧ s.isl[n].powered = false)) (hb : w.getLsbD n.val = true) : j.power = s.isl[n].power := by
    rw [hb, State.switched, if_pos rfl, if_neg h] at hu
    exact (Island.station_parts hu).1
  refine ⟨fun hb hmay hp => ?_, fun hb hp => hstays (fun h => ?_) hb, fun hb hmay _ => hstays (fun h => ?_) hb, fun hb => ?_⟩
  · rw [hb, State.switched, if_pos rfl, if_pos ⟨hmay, hp⟩] at hu
    exact Prod.mk.inj hu
  · exact Bool.false_ne_true (h.2.symm.trans hp)
  · exact Bool.false_ne_true (hmay.symm.trans h.1)
  · rw [hb, State.switched, if_neg Bool.false_ne_true] at hu
    exact (Prod.mk.inj hu).symm

theorem islandPowerWrite_dormant (hc : s.clocked = true) (h : s.pow.ps = .dormant ∨ s.pow.ps = .toDormant) :
    exec (.islandPowerWrite m w) s = .next { s with pow := { s.pow with resume := w.extractLsb' 0 16 } } := by
  rw [exec_islandPowerWrite, execIslandPowerWrite, State.act_on _ hc, State.writePower, if_pos h]

theorem reservoirOk_owes (hc : s.clocked = true) (hp : s.isl[n].power = .charging) (hv : s.isl[n].cvOk = false) :
    Completes (.reservoirOk n) s (fun u =>
      u.isl[n].cvOk = true ∧ u.isl[n].power = .charging ∧ (s.tick + 2048, .firstSymbolTimeout n) ∈ u.due ∧
      u.ledq = s.ledq ++ [(s.tick + BitVec.ofNat 64 (s.qtk + 4), .resOk n)]) := by
  have hgo : (s.settle (.reservoirOk n)).isl[n].power = .charging ∧ (!(s.settle (.reservoirOk n)).isl[n].cvOk) = true :=
    ⟨hp, congrArg (fun b => !b) hv⟩
  refine ⟨_, by rw [exec_reservoirOk, execReservoirOk, State.taken_on _ _ hc, if_pos hgo], ?_⟩
  have hmem := State.mem_owe_self (((s.settle (.reservoirOk n)).modIsl n (fun i => { i with cvOk := true })).ledPut (.resOk n)) 2048
    (.firstSymbolTimeout n)
  have hsame := (s.settle (.reservoirOk n)).modIsl_same n (fun i => { i with cvOk := true })
  rw [State.owe_eq] at hmem ⊢
  refine ⟨?_, ?_, hmem, rfl⟩
  · exact (congrArg Island.cvOk hsame :)
  · exact (congrArg Island.power hsame :).trans hp

/-! ### Cells that the host side queues -/

/-- u is s with more cells queued for island n. -/
def State.QueuesMore (s u : State) (n : IslandNo) : Prop :=
  ∃ l r, u = s.modIsl n (fun i => { i with down := l, wrun := r }) ∧ s.isl[n].down ⊆ l

theorem State.QueuesMore.rfl : s.QueuesMore s n :=
  ⟨s.isl[n].down, s.isl[n].wrun, (State.modIsl_self (by rfl)).symm, List.Subset.refl _⟩

theorem State.QueuesMore.trans {v : State} (h : s.QueuesMore u n) (h' : u.QueuesMore v n) : s.QueuesMore v n := by
  obtain ⟨l, r, rfl, hl⟩ := h
  obtain ⟨l', r', rfl, hl'⟩ := h'
  rw [State.modIsl_same] at hl'
  exact ⟨l', r', by rw [State.modIsl_modIsl], fun _ hx => hl' (hl hx)⟩

theorem State.queuesMore_send (s : State) (n : IslandNo) (r : Master) (d : DownData) (a : Word) (x : BitVec 19) :
    s.QueuesMore (s.send n r d a x) n :=
  ⟨insertDown (newCell d r a x (s.tick + 1)) s.isl[n].down, nextRun d r a s.isl[n].wrun,
    by unfold State.send State.sendFrom; exact State.modIsl_congr (by rfl), fun _ hx => mem_insertDown.2 (.inr hx)⟩

theorem State.QueuesMore.queues (h : s.QueuesMore u n) {r : Master} {d : DownData} (hq : Queues s n r d) : Queues u n r d := by
  obtain ⟨l, w, rfl, hl⟩ := h
  obtain ⟨c, hc, hdata⟩ := hq
  exact ⟨c, by rw [State.modIsl_same]; exact hl hc, hdata⟩

/-- The record leaves, and APPLY waits behind it (R118, R120). -/
theorem State.sendRecord_queues (s : State) (n : IslandNo) : s.QueuesMore (s.sendRecord n) n ∧ Queues (s.sendRecord n) n .slate (.cmd .apply) := by
  have hcells (l : List DownData) : s.QueuesMore (l.foldl (fun s d => s.send n .slate d) s) n :=
    List.foldlRecOn (motive := fun v => State.QueuesMore s v n) l _ .rfl fun v hv d _ => hv.trans (v.queuesMore_send n .slate d 0 0)
  exact ⟨(hcells _).trans (State.queuesMore_send _ n .slate _ 0 0), queues_send _ n .slate _ 0 0⟩

/-- The island's lane takes what stands now. -/
theorem State.laneUpdate_here (s : State) (n : IslandNo) : (s.laneUpdate n).isl[n] = { s.isl[n] with laneDn := s.laneNow n } := by
  rw [State.laneUpdate_isl]
  simp

theorem State.laneUpdate_other (s : State) {n k : IslandNo} (hk : k ≠ n) : (s.laneUpdate n).isl[k] = s.isl[k] := by
  have hv : n.val ≠ k.val := fun e => hk (Fin.ext e.symm)
  rw [State.laneUpdate_isl]
  simp [hv]

/-! ### The first symbol -/

/-- An island whose first symbol has come: RUNNING at rung 0, without a record yet (R362). -/
def Island.started (lvl : TermLevel) (supplied : Bool) (i : Island) : Island :=
  { i.fallen with
    power := .running, recOut := true, stale := false, imgFrozen := none, dnTx := 0, dnRx := 0, upTx := 0, upRx := 0,
    safe := { SafeLogic.reset with mark := i.safe.mark, noCarrier := i.safe.noCarrier && !supplied },
    din := { DigIn.reset with lvl := lvl }, host := Island.reset.host, laneDn := DLane.zero, outBit := false }

/-- Its record leaves, and on a standby SHADOW behind it (R120, R335). -/
def State.introduce (s : State) (n : IslandNo) : State :=
  let s := s.sendRecord n
  if s.tan.role = .standby && shadows (s.pers n) then s.send n .tandem (.cmd .shadow) else s

theorem State.introduce_queues (s : State) (n : IslandNo) : s.QueuesMore (s.introduce n) n ∧ Queues (s.introduce n) n .slate (.cmd .apply) ∧
    (s.tan.role = .standby → shadows (s.pers n) = true → Queues (s.introduce n) n .tandem (.cmd .shadow)) := by
  obtain ⟨hmore, happly⟩ := s.sendRecord_queues n
  have hkept : (s.sendRecord n).tan = s.tan ∧ (s.sendRecord n).pers n = s.pers n := by
    obtain ⟨l, r, hq, -⟩ := hmore
    rw [hq]
    exact ⟨rfl, rfl⟩
  obtain ⟨htan, hpers⟩ := hkept
  have hsend := (s.sendRecord n).queuesMore_send n .tandem (.cmd .shadow) 0 0
  unfold State.introduce
  dsimp only
  rw [htan, hpers]
  split
  · exact ⟨hmore.trans hsend, hsend.queues happly, fun _ _ => queues_send _ n .tandem _ 0 0⟩
  · rename_i h
    exact ⟨hmore, happly, fun hrole hsh => absurd (by rw [hrole, hsh]; rfl) h⟩

theorem exec_firstSymbol_charging (hc : s.clocked = true) (hp : s.isl[n].power = .charging) (hv : s.isl[n].cvOk = true) (lvl : TermLevel) :
    exec (.firstSymbol n lvl) s = .next (((((s.cancel (.firstSymbolTimeout n)).modIsl n (Island.started lvl s.pow.vmicaOk)).introduce n).laneUpdate
      n).tapChanged) := by
  rw [exec_firstSymbol, execFirstSymbol, State.act_on _ hc]
  dsimp only
  rw [if_pos ⟨hp, hv⟩]
  unfold State.introduce Island.started
  rfl

theorem firstSymbol_starts (hc : s.clocked = true) (hp : s.isl[n].power = .charging) (hv : s.isl[n].cvOk = true) (lvl : TermLevel) :
    Completes (.firstSymbol n lvl) s (fun u =>
      u.isl[n].power = .running ∧ u.isl[n].rungs = Rungs.zero ∧ u.isl[n].recOut = true ∧ u.isl[n].din.lvl = lvl ∧
      Queues u n .slate (.cmd .apply) ∧ (s.tan.role = .standby → shadows (s.pers n) = true → Queues u n .tandem (.cmd .shadow)) ∧
      ∀ k, k ≠ n → u.isl[k] = s.isl[k]) := by
  refine ⟨_, exec_firstSymbol_charging hc hp hv lvl, ?_⟩
  obtain ⟨⟨l, r, hq, -⟩, happly, hshadow⟩ :=
    ((s.cancel (.firstSymbolTimeout n)).modIsl n (Island.started lvl s.pow.vmicaOk)).introduce_queues n
  have hother : ∀ k : IslandNo, k ≠ n →
      (((s.cancel (.firstSymbolTimeout n)).modIsl n (Island.started lvl s.pow.vmicaOk)).introduce n).isl[k] = s.isl[k] := fun k hk => by
    rw [hq, State.modIsl_other _ n k _ hk, State.modIsl_other _ n k _ hk]
    rfl
  have hhere : (((s.cancel (.firstSymbolTimeout n)).modIsl n (Island.started lvl s.pow.vmicaOk)).introduce n).isl[n] =
      { s.isl[n].started lvl s.pow.vmicaOk with down := l, wrun := r } := by
    rw [hq, State.modIsl_same, State.modIsl_same]
    rfl
  have hrole : ((s.cancel (.firstSymbolTimeout n)).modIsl n (Island.started lvl s.pow.vmicaOk)).tan = s.tan := rfl
  have hpers : ((s.cancel (.firstSymbolTimeout n)).modIsl n (Island.started lvl s.pow.vmicaOk)).pers n = s.pers n := rfl
  rw [hrole, hpers] at hshadow
  generalize ((s.cancel (.firstSymbolTimeout n)).modIsl n (Island.started lvl s.pow.vmicaOk)).introduce n = v at happly hshadow hother hhere
  have hlane := v.laneUpdate_here n
  have hisl := (v.laneUpdate n).owesMore_tapChanged.isl
  have hcells {m : Master} {d : DownData} (h : Queues v n m d) : Queues (v.laneUpdate n).tapChanged n m d := by
    unfold Queues at h ⊢
    rwa [hisl, hlane]
  refine ⟨?_, ?_, ?_, ?_, hcells happly, fun h1 h2 => hcells (hshadow h1 h2), fun k hk => ?_⟩
  · rw [hisl, hlane, hhere]
    rfl
  · rw [hisl, hlane, hhere]
    rfl
  · rw [hisl, hlane, hhere]
    rfl
  · rw [hisl, hlane, hhere]
    rfl
  · rw [hisl, v.laneUpdate_other hk, hother k hk]

/-! ### Charging places and the return of grains -/

/-- An island that does not wait for a charging place is given none. -/
theorem State.grantCharge_calm (h : s.isl[n].waitCharge = false) : s.grantCharge.isl[n] = s.isl[n] := by
  refine foldl_islands_keep (P := fun v => v.isl[n] = s.isl[n]) rfl fun v k hv => ?_
  by_cases hk : n = k
  · subst hk
    rw [if_neg (fun hw => Bool.false_ne_true (h.symm.trans ((congrArg Island.waitCharge hv).symm.trans hw.1)))]
    exact hv
  · refine ite_keeps (P := fun v => v.isl[n] = s.isl[n]) _ ?_ hv
    rw [State.fitRsv, State.modIsl_other _ _ n _ hk, State.modIsl_other _ _ n _ hk]
    exact hv

theorem chargeComplete_returns (hc : s.clocked = true) (hch : s.isl[n].charging = true) : Completes (.chargeComplete n) s (fun u =>
    u.isl[n].charging = false ∧ u.isl[n].rsv = 0 ∧ u.isl[n].power = s.isl[n].power) := by
  refine ⟨_, by rw [exec_chargeComplete, execChargeComplete, State.taken_on _ _ hc,
    if_pos (show (s.settle (.chargeComplete n)).isl[n].charging = true from hch)], ?_⟩
  have hsame := (s.settle (.chargeComplete n)).modIsl_same n (fun i => { i with charging := false, waitCharge := false, rsv := 0 })
  unfold State.endCharge
  generalize (s.settle (.chargeComplete n)).modIsl n (fun i => { i with charging := false, waitCharge := false, rsv := 0 }) = v at hsame
  dsimp only
  rw [State.grantCharge_calm (by rw [hsame]), hsame]
  exact ⟨rfl, rfl, rfl⟩

/-- The grains of the oldest kill return: the island's other grains stay, and one without power is admitted nothing more (R43). -/
theorem State.released (hw : s.isl[n].led.waitGr = false) :
    (((((s.modIsl n Island.returned).fitRsv n).grantCharge).sendRungs).dormantCheck).isl[n].held = s.isl[n].held.tail ∧
    (((((s.modIsl n Island.returned).fitRsv n).grantCharge).sendRungs).dormantCheck).isl[n].led = s.isl[n].returned.led := by
  have hfit := (s.modIsl n Island.returned).fitRsv_spec n
  obtain ⟨-, -, -, -, hheld, hled⟩ : _ ∧ _ ∧ _ ∧ _ ∧ _ ∧ _ := by simpa only [Island.account, Prod.mk.injEq] using hfit.1
  rw [State.modIsl_same] at hheld hled
  generalize (s.modIsl n Island.returned).fitRsv n = c at hheld hled
  obtain ⟨q, hq, -⟩ := c.grantCharge.sendRungs.dormantCheck_spec
  have hun : c.grantCharge.sendRungs.unled = c.unled := by rw [State.sendRungs_unled, State.grantCharge_unled]
  have hkept : c.grantCharge.sendRungs.isl[n].led = c.grantCharge.isl[n].led := by
    refine State.sendRungs_settled ?_
    obtain ⟨-, -, -, hwait, -⟩ := Island.returned_led s.isl[n]
    rw [State.grantCharge_led, hled, hwait, hw]
  rw [hq]
  dsimp only
  constructor
  · exact (State.unled_held hun n).trans hheld
  · rw [hkept, State.grantCharge_led, hled]

theorem grainRelease_returns (hc : s.clocked = true) {g : Nat × Nat} {rest : List (Nat × Nat)} (hd : s.isDue (.grainRelease n) = true)
    (hh : s.isl[n].held = g :: rest) (hw : s.isl[n].led.waitGr = false) : Completes (.grainRelease n) s (fun u =>
      u.isl[n].held = rest ∧ u.isl[n].led.admGr = s.isl[n].led.admGr ∧
      (s.isl[n].powered = false → u.isl[n].led.admRung = 0 ∧ u.isl[n].led.clamped = false)) := by
  have hsome : ¬ (s.settle (.grainRelease n)).isl[n].held = [] := by
    change ¬ s.isl[n].held = []
    rw [hh]
    exact List.cons_ne_nil _ _
  have hrun : exec (.grainRelease n) s = .next ((((((s.settle (.grainRelease n)).modIsl n Island.returned).fitRsv n).grantCharge).sendRungs).dormantCheck) := by
    rw [exec_grainRelease, execGrainRelease, State.timed, State.act_on _ hc, if_pos hd, if_neg hsome]
    rfl
  obtain ⟨hheld, hled⟩ := State.released (s := s.settle (.grainRelease n)) (n := n) hw
  obtain ⟨hadm, -⟩ := Island.returned_led s.isl[n]
  refine ⟨_, hrun, ?_, ?_, fun hp => ?_⟩
  · rw [hheld]
    change s.isl[n].held.tail = rest
    rw [hh, List.tail_cons]
  · rw [hled]
    exact hadm
  · rw [hled]
    change s.isl[n].returned.led.admRung = 0 ∧ s.isl[n].returned.led.clamped = false
    unfold Island.returned
    rw [if_neg (by rw [hp]; exact Bool.false_ne_true)]
    exact ⟨rfl, rfl⟩

theorem grainRelease_empty (hc : s.clocked = true) (hh : s.isl[n].held = []) :
    Completes (.grainRelease n) s (fun u => u = { s with due := u.due }) := by
  refine ⟨_, by rw [exec_grainRelease, execGrainRelease, State.timed, State.act_on _ hc], ?_⟩
  rw [if_pos (show (s.settle (.grainRelease n)).isl[n].held = [] from hh)]
  exact ite_keeps (P := fun u => u = { s with due := u.due }) _ (s.settle_eq _) rfl

end PowerUp

/-- Settles O31: the write of ISLAND_POWER, and the rows of an island's charging, start and grains, one by one. -/
theorem islandsPowerUp : Obligations.IslandsPowerUp := by
  refine ⟨fun s m w hc => ⟨fun h1 h2 => islandPowerWrite_switches hc h1 h2, islandPowerWrite_dormant hc⟩, fun s n hc => ?_⟩
  exact ⟨reservoirOk_owes hc, firstSymbol_starts hc, chargeComplete_returns hc, fun g rest hd hh hw => grainRelease_returns hc hd hh hw,
    grainRelease_empty hc⟩

/-! ## Safe demands -/

section Demands

variable {s u : State} {n : IslandNo}

/-! ### What a change of demands leaves beside its island -/

theorem islandOnly_owe (s : State) (k : Nat) (c : Instr) (n : IslandNo) : IslandOnly s (s.owe k c) n := (s.owesMore_owe k c).islandOnly n
theorem islandOnly_cancel (s : State) (c : Instr) (n : IslandNo) : IslandOnly s (s.cancel c) n := islandOnly_due s _ n

theorem islandOnly_setSwitch (s : State) (n : IslandNo) (b : Bool) : IslandOnly s (s.setSwitch n b) n :=
  islandOnly_ite _ .rfl (islandOnly_ite _ (((islandOnly_cancel s _ n).trans (islandOnly_modIsl _ n _)).trans (islandOnly_owe _ _ _ n))
    (islandOnly_modIsl s n _))

theorem islandOnly_pwmStop (s : State) (n : IslandNo) : IslandOnly s (s.pwmStop n) n :=
  ((((islandOnly_cancel s _ n).trans (islandOnly_cancel _ _ n)).trans (islandOnly_modIsl _ n _))).trans (islandOnly_setSwitch _ n _)

theorem islandOnly_pwmStart (s : State) (n : IslandNo) : IslandOnly s (s.pwmStart n) n := by
  unfold State.pwmStart
  extract_lets i d p k u v w
  have hv : IslandOnly s v n := ((islandOnly_cancel s _ n).trans (islandOnly_cancel _ _ n)).trans (islandOnly_modIsl u n _)
  have hw : IslandOnly s w n := (hv.trans (islandOnly_setSwitch v n _)).trans (islandOnly_owe _ _ _ n)
  exact islandOnly_ite _ hw (hw.trans (islandOnly_owe _ _ _ n))

theorem islandOnly_pwmOff (s : State) (n : IslandNo) : IslandOnly s (s.pwmOff n) n :=
  ((islandOnly_cancel s _ n).trans (islandOnly_modIsl _ n _)).trans (islandOnly_setSwitch _ n _)

theorem islandOnly_digOutputs (s : State) (n : IslandNo) (later : Bool) : IslandOnly s (s.digOutputs n later) n :=
  islandOnly_ite _
    (islandOnly_ite _ (islandOnly_pwmStop s n) (islandOnly_ite _
      (islandOnly_ite _ ((islandOnly_pwmStop s n).trans (islandOnly_setSwitch _ n _)) .rfl)
      (islandOnly_ite _ (islandOnly_pwmStart s n) (islandOnly_ite _ .rfl (islandOnly_ite _ (islandOnly_pwmOff s n) (islandOnly_pwmStart s n))))))
    (islandOnly_setSwitch s n _)

theorem islandOnly_outputs (s : State) (n : IslandNo) (later : Bool) : IslandOnly s (s.outputs n later) n :=
  islandOnly_ite _ (islandOnly_digOutputs s n later) (islandOnly_ite _ (islandOnly_ite _ .rfl (islandOnly_modIsl s n _)) .rfl)

theorem islandOnly_demands (s : State) (n : IslandNo) (f : Island → Island) : IslandOnly s (s.demands n f) n :=
  ((islandOnly_modIsl s n _).trans (islandOnly_ite _ (islandOnly_modIsl _ n _) .rfl)).trans (islandOnly_outputs _ n _)

/-! ### What stands behind a change of demands -/

/-- The demands that stand in an island, and its upstream queue. -/
def Island.demanded (i : Island) : Bool × Bool × Bool × Bool × List UpCell := (i.safe.mark, i.safe.noCarrier, i.safe.chFault, i.safe.therm, i.up)

theorem Island.demanded_undriven (i : Island) : i.undriven.demanded = i.demanded := rfl

theorem State.recapture_demanded (s : State) (n : IslandNo) : (s.recapture n).isl[n].demanded = s.isl[n].demanded := by
  unfold State.recapture
  split
  · rw [State.modIsl_same]
    rfl
  · rfl

/-- A change of demands sets them as it says; what an entry captures and an end keeps is no demand. -/
theorem State.demands_demanded (s : State) (n : IslandNo) (f : Island → Island) :
    (s.demands n f).isl[n].demanded = (f s.isl[n]).demanded := by
  have hite {p : Prop} [Decidable p] {i j : Island} (h : i.demanded = j.demanded) : (if p then i else j).demanded = j.demanded := by
    split
    · exact h
    · rfl
  unfold State.demands
  extract_lets i j0 _ j1 j2 j3 _ _ j4
  have h1 : j1.demanded = j0.demanded := hite rfl
  have h2 : j2.demanded = j1.demanded := hite rfl
  have h3 : j3.demanded = j2.demanded := hite rfl
  have h4 : j4.demanded = j3.demanded := hite rfl
  have hout := State.beside_same (State.outputs_beside ((s.modIsl n fun _ => j4).recapture n) n (decide (i.digTarget = j4.digTarget)))
  rw [← Island.demanded_undriven, hout, Island.demanded_undriven, State.recapture_demanded, State.modIsl_same, h4, h3, h2, h1]

theorem Island.demanded_parts {i j : Island} (h : i.demanded = j.demanded) : i.safe.mark = j.safe.mark ∧ i.safe.noCarrier = j.safe.noCarrier ∧
    i.safe.chFault = j.safe.chFault ∧ i.safe.therm = j.safe.therm ∧ i.up = j.up := by
  simpa only [Island.demanded, Prod.mk.injEq] using h

/-- A SAFE mark and the loss of the carrier demand the safe state of the controller. -/
theorem Island.inSafe_of_ctl {i : Island} (h : i.safe.mark = true ∨ i.safe.noCarrier = true) : i.inSafe = true := by
  rcases h with h | h <;> simp [Island.inSafe, Island.safeCtl, h]

/-- A Channel fault and the die's protection demand the programmed safe state. -/
theorem Island.inSafe_of_logic {i : Island} (h : i.safe.chFault = true ∨ i.safe.therm = true) : i.inSafe = true := by
  rcases h with h | h <;> simp [Island.inSafe, Island.safeLogic, h]

/-- What the output stage follows does not depend on the cells that leave the island. -/
theorem follows_sendUp {s : State} {n : IslandNo} (h : Follows s n) (d : UpData) : Follows (s.sendUp n d) n := by
  have hao : (s.sendUp n d).aoTarget n = s.aoTarget n := by
    unfold State.aoTarget State.aoBase State.aoPlain State.almHigh State.sendUp State.sendUpAs
    rw [State.modIsl_same]
    rfl
  obtain ⟨hdig, hana⟩ := h
  unfold Follows
  rw [hao]
  unfold State.sendUp State.sendUpAs
  rw [State.modIsl_same]
  exact ⟨hdig, hana⟩

theorem islandOnly_arrives (s : State) (n : IslandNo) (d : DownData) : IslandOnly s (s.landed n d) n := by
  obtain ⟨l, q, hl⟩ := s.landed_modIsl n d
  rw [hl]
  exact islandOnly_modIsl s n _

theorem islandOnly_sendUp (s : State) (n : IslandNo) (d : UpData) : IslandOnly s (s.sendUp n d) n := by
  unfold State.sendUp State.sendUpAs
  exact islandOnly_modIsl s n _

theorem islandOnly_settle (s : State) (c : Instr) (n : IslandNo) : IslandOnly s (s.settle c) n := islandOnly_due s _ n

/-- A fault that the island reports waits in its upstream queue. -/
theorem reports_islandFault (s : State) (n : IslandNo) (src kind : Byte) : Reports (s.islandFault n src kind) n src kind :=
  ⟨_, s.sendUp_up n _, rfl, _, rfl⟩

/-! ### Marks and the carrier -/

theorem safeMarkDetect_demands (hm : s.markAll = true) (hp : s.isl[n].powered = true) : Completes (.safeMarkDetect n) s (fun u =>
    u.isl[n].safe.mark = true ∧ u.isl[n].inSafe = true ∧ Follows u n ∧ IslandOnly s u n) := by
  have hrun : exec (.safeMarkDetect n) s = .next (s.demands n (fun i => { i with safe := { i.safe with mark := true } })) := by
    rw [exec_safeMarkDetect, execSafeMarkDetect, hm, hp]
    rfl
  refine ⟨_, hrun, ?_⟩
  obtain ⟨hmark, -⟩ := Island.demanded_parts (s.demands_demanded n (fun i => { i with safe := { i.safe with mark := true } }))
  exact ⟨hmark, Island.inSafe_of_ctl (.inl hmark), State.demands_follows .., islandOnly_demands ..⟩

theorem carrierLoss_demands (hp : s.isl[n].powered = true) : Completes (.carrierLoss n) s (fun u =>
    u.isl[n].safe.noCarrier = true ∧ u.isl[n].inSafe = true ∧ Follows u n ∧ IslandOnly s u n) := by
  have hrun : exec (.carrierLoss n) s = .next (s.demands n (fun i => { i with safe := { i.safe with noCarrier := true } })) := by
    rw [exec_carrierLoss, execCarrierLoss, if_pos hp]
  refine ⟨_, hrun, ?_⟩
  have hno := s.demands_noCarrier n (fun i => { i with safe := { i.safe with noCarrier := true } })
  exact ⟨hno, Island.inSafe_of_ctl (.inr hno), State.demands_follows .., islandOnly_demands ..⟩

/-! ### Channel faults -/

theorem channelFaultCell_demands (hc : s.clocked = true) (hr : s.running n = true) : Completes (.channelFaultCell n) s (fun u =>
    u.isl[n].safe.chFault = true ∧ u.isl[n].inSafe = true ∧ Follows u n ∧ ∀ k, k ≠ n → u.isl[k] = s.isl[k]) := by
  have hr' : (s.landed n (.cmd .chanFault)).running n = true := by
    unfold State.running at hr ⊢
    rw [(s.landed_isl n _).1]
    exact hr
  refine ⟨_, by rw [exec_channelFaultCell, execChannelFaultCell, State.act_on _ hc, if_pos hr'], ?_⟩
  obtain ⟨-, -, hch, -⟩ := Island.demanded_parts ((s.landed n (.cmd .chanFault)).demands_demanded n (fun i =>
    { i with safe := { i.safe with chFault := true } }))
  exact ⟨hch, Island.inSafe_of_logic (.inl hch), State.demands_follows ..,
    ((islandOnly_arrives s n _).trans (islandOnly_demands _ n _)).2⟩

/-- A cell that lands is no other cell: whether one with other content is still to land stands. -/
theorem accept_any {α : Type} [DecidableEq α] {d e : α} (h : e ≠ d) (l : List (Cell α)) :
    (accept d l).any (fun c => decide (c.data = e) && !c.got) = l.any (fun c => decide (c.data = e) && !c.got) := by
  induction l with
  | nil => rfl
  | cons c l ih =>
    unfold accept
    split
    · rename_i hc
      have hd : c.data = d := by
        simp only [Bool.and_eq_true, decide_eq_true_eq] at hc
        exact hc.2
      simp only [List.any_cons, hd, decide_eq_false (Ne.symm h), Bool.false_and]
    · rw [List.any_cons, List.any_cons, ih]

theorem landed_down (s : State) (n : IslandNo) (d : DownData) :
    (s.landed n d).isl[n].down = accept d s.isl[n].down ∨ (s.landed n d).isl[n].down = s.isl[n].down := by
  unfold State.landed
  split
  · exact .inl (by rw [State.modIsl_same])
  · exact .inr rfl

/-- A Channel fault that is still to land applies again (R302). -/
def State.faultsAgain (s : State) (n : IslandNo) : Bool := s.isl[n].down.any (fun c => decide (c.data = .cmd .chanFault) && !c.got)

theorem State.faultsAgain_landed (s : State) (n : IslandNo) : (s.landed n (.cmd .clear)).faultsAgain n = s.faultsAgain n := by
  unfold State.faultsAgain
  rcases landed_down s n (.cmd .clear) with h | h
  · rw [h]
    exact accept_any (by decide) _
  · rw [h]

theorem clearCell_clears (hc : s.clocked = true) : Completes (.clearCell n) s (fun u =>
    u.isl[n].safe.chFault = false ∧ Follows u n ∧
    ((∃ c ∈ s.isl[n].down, c.data = .cmd .chanFault ∧ c.got = false) → u.fault.chFault = s.fault.chFault) ∧
    ((∀ c ∈ s.isl[n].down, c.data = .cmd .chanFault → c.got = true) → u.fault.chFault = s.fault.chFault &&& ~~~(1#16 <<< n.val)) ∧
    ∀ k, k ≠ n → u.isl[k] = s.isl[k]) := by
  refine ⟨_, by rw [exec_clearCell, execClearCell, State.act_on _ hc], ?_⟩
  have hagain : (s.landed n (.cmd .clear)).isl[n].down.any (fun c => decide (c.data = .cmd .chanFault) && !c.got) = s.faultsAgain n :=
    s.faultsAgain_landed n
  have hland := islandOnly_arrives s n (.cmd .clear)
  generalize s.landed n (.cmd .clear) = a at hagain hland
  dsimp only
  rw [hagain]
  generalize hv : (if s.faultsAgain n then a else { a with fault := { a.fault with chFault := a.fault.chFault &&& ~~~(1#16 <<< n.val) } }) = v
  have hisl : v.isl = a.isl := by
    rw [← hv]
    exact ite_keeps (P := fun v => v.isl = a.isl) _ rfl rfl
  have hfault : v.fault.chFault = if s.faultsAgain n then s.fault.chFault else s.fault.chFault &&& ~~~(1#16 <<< n.val) := by
    rw [← hv, ← hland.fault]
    split <;> rfl
  obtain ⟨-, -, hch, -⟩ := Island.demanded_parts (v.demands_demanded n (fun i => { i with safe := { i.safe with chFault := false } }))
  have honly := islandOnly_demands v n (fun i => { i with safe := { i.safe with chFault := false } })
  refine ⟨hch, State.demands_follows .., fun h => ?_, fun h => ?_, fun k hk => ?_⟩
  · obtain ⟨c, hmem, hdata, hgot⟩ := h
    have ha : s.faultsAgain n = true := List.any_eq_true.2 ⟨c, hmem, by rw [hdata, hgot]; rfl⟩
    rw [honly.fault, hfault, if_pos ha]
  · have ha : ¬ s.faultsAgain n = true := fun hany => by
      obtain ⟨c, hmem, hcell⟩ := List.any_eq_true.1 hany
      rw [Bool.and_eq_true, decide_eq_true_eq, Bool.not_eq_true'] at hcell
      exact Bool.false_ne_true (hcell.2.symm.trans (h c hmem hcell.1))
    rw [honly.fault, hfault, if_neg ha]
  · rw [honly.2 k hk, hisl]
    exact hland.2 k hk

/-! ### The die's protection -/

theorem islTherm_reports (hc : s.clocked = true) (hr : s.running n = true) (ht : s.isl[n].safe.therm = false) : Completes (.islTherm n) s (fun u =>
    u.isl[n].safe.therm = true ∧ u.isl[n].inSafe = true ∧ Follows u n ∧ Reports u n 0x31 0 ∧ IslandOnly s u n) := by
  have hrun : exec (.islTherm n) s =
      .next (((s.settle (.islTherm n)).demands n (fun i => { i with safe := { i.safe with therm := true } })).islandFault n 0x31 0) := by
    rw [exec_islTherm, execIslTherm, if_pos hr, State.protects, if_pos hc, ht]
    rfl
  refine ⟨_, hrun, ?_⟩
  obtain ⟨-, -, -, hd, -⟩ := Island.demanded_parts ((s.settle (.islTherm n)).demands_demanded n (fun i => { i with safe := { i.safe with therm := true } }))
  have hf := State.demands_follows (s.settle (.islTherm n)) n (fun i => { i with safe := { i.safe with therm := true } })
  have honly := (islandOnly_settle s (.islTherm n) n).trans (islandOnly_demands _ n (fun i => { i with safe := { i.safe with therm := true } }))
  generalize (s.settle (.islTherm n)).demands n (fun i => { i with safe := { i.safe with therm := true } }) = v at hd hf honly
  have hth : (v.islandFault n 0x31 0).isl[n].safe.therm = true := by
    unfold State.islandFault State.sendUp State.sendUpAs
    rw [State.modIsl_same]
    exact hd
  exact ⟨hth, Island.inSafe_of_logic (.inr hth), follows_sendUp hf _, reports_islandFault v n 0x31 0, honly.trans (islandOnly_sendUp v n _)⟩

theorem islTherm_stopped (hh : s.pow.hck = false) (hk : s.pow.k4 = false) (hdef : s.pow.deferral = false) (hr : s.running n = true)
    (ht : s.isl[n].safe.therm = false) : Completes (.islTherm n) s (fun u =>
      u.isl[n].safe.therm = true ∧ u.isl[n].inSafe = true ∧ Follows u n ∧ u.isl[n].up = s.isl[n].up ∧ (s.tick + 1, .islTherm n) ∈ u.due ∧
      IslandOnly s u n) := by
  have hoff : ¬ s.clocked = true := by simp [State.clocked, State.ticks, hh]
  have hrun : exec (.islTherm n) s = .next ((s.demands n (fun i => { i with safe := { i.safe with therm := true } })).owe 1 (.islTherm n)) := by
    rw [exec_islTherm, execIslTherm, if_pos hr, State.protects, if_neg hoff, if_neg (by rw [ht]; exact Bool.false_ne_true),
      if_neg (by rw [hk, hdef]; exact Bool.false_ne_true)]
  obtain ⟨-, -, -, hth, hup⟩ := Island.demanded_parts (s.demands_demanded n (fun i => { i with safe := { i.safe with therm := true } }))
  have hf := State.demands_follows s n (fun i => { i with safe := { i.safe with therm := true } })
  have honly := islandOnly_demands s n (fun i => { i with safe := { i.safe with therm := true } })
  generalize s.demands n (fun i => { i with safe := { i.safe with therm := true } }) = v at hrun hth hup hf honly
  have hmem := v.mem_owe_self 1 (.islTherm n)
  have howe := islandOnly_owe v 1 (.islTherm n) n
  rw [State.owe_eq] at hrun hmem howe
  rw [honly.tick] at hmem
  exact ⟨_, hrun, hth, Island.inSafe_of_logic (.inr hth), hf, hup, hmem, honly.trans howe⟩

theorem islTherm_due (hc : s.clocked = true) (hr : s.running n = true) (ht : s.isl[n].safe.therm = true) (hd : s.isDue (.islTherm n) = true) :
    Completes (.islTherm n) s (fun u => Reports u n 0x31 0 ∧ IslandOnly s u n) := by
  refine ⟨(s.settle (.islTherm n)).islandFault n 0x31 0, ?_, reports_islandFault _ n 0x31 0,
    (islandOnly_settle s _ n).trans (islandOnly_sendUp _ n _)⟩
  rw [exec_islTherm, execIslTherm, if_pos hr, State.protects, if_pos hc, ht, hd]
  rfl

theorem islTherm_again (hc : s.clocked = true) (hr : s.running n = true) (ht : s.isl[n].safe.therm = true) (hd : s.isDue (.islTherm n) = false) :
    exec (.islTherm n) s = .next s := by
  rw [exec_islTherm, execIslTherm, if_pos hr, State.protects, if_pos hc, ht, hd]
  rfl

theorem islThermRelease_ends : Completes (.islThermRelease n) s (fun u => u.isl[n].safe.therm = false ∧ Follows u n ∧ IslandOnly s u n) := by
  obtain ⟨-, -, -, hth, -⟩ := Island.demanded_parts (s.demands_demanded n (fun i => { i with safe := { i.safe with therm := false } }))
  exact ⟨_, rfl, hth, State.demands_follows .., islandOnly_demands ..⟩

/-! ### Islands without power -/

theorem islandOnly_fall (s : State) (n : IslandNo) : IslandOnly s (s.fall n) n := (islandOnly_due s _ n).trans (islandOnly_modIsl _ n _)

theorem State.fall_isl (s : State) (n : IslandNo) : (s.fall n).isl[n] = s.isl[n].fallen := State.modIsl_same _ n _

theorem killMarkDetect_falls (hp : s.isl[n].powered = false) : Completes (.killMarkDetect n) s (fun u =>
    u.isl[n] = s.isl[n].fallen ∧ IslandOnly s u n) :=
  ⟨_, by rw [exec_killMarkDetect, execKillMarkDetect, if_neg (by rw [hp]; exact Bool.false_ne_true)], s.fall_isl n, islandOnly_fall s n⟩

theorem killMarkDetect_powered (hp : s.isl[n].powered = true) : exec (.killMarkDetect n) s = .next s := by
  rw [exec_killMarkDetect, execKillMarkDetect, if_pos hp]

theorem cvBelow6v_falls : Completes (.cvBelow6v n) s (fun u =>
    u.isl[n] = { s.isl[n].fallen with discharge := true, cvOk := false } ∧ IslandOnly s u n) := by
  refine ⟨_, rfl, ?_, (islandOnly_fall s n).trans (islandOnly_modIsl _ n _)⟩
  rw [State.modIsl_same, s.fall_isl n]

end Demands

/-- Settles O33: each demand and its end by the lemma about its row. -/
theorem islandSafeDemands : Obligations.IslandSafeDemands := fun _ _ =>
  ⟨safeMarkDetect_demands, carrierLoss_demands, channelFaultCell_demands, clearCell_clears, islTherm_reports, islTherm_stopped,
    fun hc hr ht => ⟨islTherm_due hc hr ht, islTherm_again hc hr ht⟩, islThermRelease_ends, killMarkDetect_falls, killMarkDetect_powered,
    cvBelow6v_falls⟩

/-! ## Reads and writes of islands -/

section Access

variable {s u : State} {n : IslandNo}

/-! ### What an island reads -/

/-- A read of a register changes the modem and the converter alone. -/
theorem State.islRegRead_modIsl (s : State) (n : IslandNo) (off : Nat) :
    ∃ h a, (s.islRegRead n off).1 = s.modIsl n (fun i => { i with hart := h, adc := a }) := by
  have hsame : ∃ h a, s = s.modIsl n (fun i => { i with hart := h, adc := a }) :=
    ⟨s.isl[n].hart, s.isl[n].adc, (State.modIsl_self rfl).symm⟩
  have hhart (f : Hart → Hart) : ∃ h a, s.modHart n f = s.modIsl n (fun i => { i with hart := h, adc := a }) :=
    ⟨f s.isl[n].hart, s.isl[n].adc, State.modIsl_congr rfl⟩
  have hadc (f : Adc → Adc) : ∃ h a, s.modAdc n f = s.modIsl n (fun i => { i with hart := h, adc := a }) :=
    ⟨s.isl[n].hart, f s.isl[n].adc, State.modIsl_congr rfl⟩
  unfold State.islRegRead
  dsimp only
  split
  · exact hsame
  · split
    case h_12 =>
      dsimp only
      exact hhart _
    case h_16 =>
      dsimp only
      exact hadc _
    case h_17 =>
      split
      · unfold State.slotRead
        dsimp only
        exact hadc _
      · exact hsame
    all_goals exact hsame

/-- The value that a register reads does not depend on the cells that go to the island. -/
theorem State.islRegRead_congr (hp : u.pow = s.pow) {l : List DownCell} {q : BitVec 2} (hi : u.isl[n] = { s.isl[n] with down := l, dnRx := q })
    (off : Nat) : (u.islRegRead n off).2 = (s.islRegRead n off).2 := by
  have hast : u.astat n = s.astat n := by
    unfold State.astat State.almHigh
    rw [hi, hp]
    rfl
  unfold State.islRegRead
  rw [hi, hast]
  by_cases hserves : (!regServes s.isl[n].pers off) = true
  · exact (congrArg Prod.snd (if_pos hserves : _ = (u, (0 : Word)))).trans (congrArg Prod.snd (if_pos hserves : _ = (s, (0 : Word)))).symm
  · refine (congrArg Prod.snd (if_neg hserves)).trans (Eq.trans ?_ (congrArg Prod.snd (if_neg hserves)).symm)
    split
    case h_17 =>
      split
      next k hk => 
        show u.isl[n].adc.slots[k] = s.isl[n].adc.slots[k]
        rw [hi]
      next hk => rfl
    all_goals rfl


/-! ### RADDR -/

/-- What an island reads at the address of a RADDR cell: island SRAM or a register (R35). -/
def State.islRead (s : State) (n : IslandNo) (a : Word) : State × Word :=
  if a.getLsbD 31 then (s, s.isl[n].word (fld a 0 14)) else s.islRegRead n (fld a 0 14)

theorem State.islRead_modIsl (s : State) (n : IslandNo) (a : Word) :
    ∃ h c, (s.islRead n a).1 = s.modIsl n (fun i => { i with hart := h, adc := c }) := by
  unfold State.islRead
  split
  · exact ⟨s.isl[n].hart, s.isl[n].adc, (State.modIsl_self rfl).symm⟩
  · exact s.islRegRead_modIsl n _

theorem State.landed_islRead (s : State) (n : IslandNo) (d : DownData) (a : Word) :
    ((s.landed n d).islRead n a).2 = (s.islRead n a).2 := by
  obtain ⟨l, q, hl⟩ := s.landed_modIsl n d
  have hi : (s.landed n d).isl[n] = { s.isl[n] with down := l, dnRx := q } := by rw [hl, State.modIsl_same]
  unfold State.islRead
  split
  · show (s.landed n d).isl[n].word _ = _
    rw [hi]
    rfl
  · exact State.islRegRead_congr (by simp) hi _

/-- The island notes whose read it is and answers it with an RDATA cell that is ready 4 tk later (R35, R38). -/
def State.replies (s : State) (n : IslandNo) (a : Word) (req : Master) : State :=
  let ad := (if a.getLsbD 31 then 0x0080_0000 + n.val * 0x4000 else islBase n) + fld a 0 14
  ((s.islRead n a).1.modIsl n (fun i => { i with reads := i.reads ++ [(req, BitVec.ofNat 32 ad)] })).sendUpAs n (.rdata (s.islRead n a).2) req
    (BitVec.ofNat 32 ad) 4

theorem exec_raddr_running (hc : s.clocked = true) (hr : s.running n = true) (a : Word) :
    exec (.raddr n a) s = .next ((s.landed n (.raddr a)).replies n a (s.requester n (.raddr a))) := by
  have hr' : (s.landed n (.raddr a)).running n = true := by
    obtain ⟨l, q, hl⟩ := s.landed_modIsl n (.raddr a)
    simpa [State.running, hl] using hr
  rw [exec_raddr, execRaddr, State.act_on _ hc]
  exact congrArg _ (if_pos hr')

theorem replies_islandOnly (s : State) (n : IslandNo) (a : Word) (m : Master) : IslandOnly s (s.replies n a m) n := by
  obtain ⟨h, c, hm⟩ := s.islRead_modIsl n a
  unfold State.replies State.sendUpAs
  rw [hm]
  exact ((islandOnly_modIsl s n _).trans (islandOnly_modIsl _ n _)).trans (islandOnly_modIsl _ n _)

theorem replies_up (s : State) (n : IslandNo) (a : Word) (m : Master) : ∃ c ∈ (s.replies n a m).isl[n].up,
    c.data = .rdata (s.islRead n a).2 ∧ c.sent = false ∧ c.since = s.tick + 4 ∧ c.req = m := by
  obtain ⟨h, c, hm⟩ := s.islRead_modIsl n a
  have ht : (s.islRead n a).1.tick = s.tick := by rw [hm]; rfl
  unfold State.replies State.sendUpAs
  rw [State.modIsl_same]
  exact ⟨_, mem_insertUp.mpr (.inl rfl), rfl, rfl, congrArg (· + 4) ht, rfl⟩

theorem replies_reads (s : State) (n : IslandNo) (a : Word) (m : Master) :
    (s.replies n a m).isl[n].reads.length = s.isl[n].reads.length + 1 := by
  obtain ⟨h, c, hm⟩ := s.islRead_modIsl n a
  unfold State.replies State.sendUpAs
  rw [hm]
  simp

/-- A RADDR cell that lands is answered with the word that its address names. -/
theorem raddr_answers (hc : s.clocked = true) (hr : s.running n = true) (a : Word) :
    let v : Word := if a.getLsbD 31 then s.isl[n].word (fld a 0 14) else (s.islRegRead n (fld a 0 14)).2
    Completes (.raddr n a) s (fun u =>
      (∃ c ∈ u.isl[n].up, c.data = .rdata v ∧ c.sent = false ∧ c.since = s.tick + 4 ∧ c.req = s.requester n (.raddr a)) ∧
      u.isl[n].reads.length = s.isl[n].reads.length + 1 ∧ IslandOnly s u n) := by
  intro v
  have hv : (s.islRead n a).2 = v := apply_ite Prod.snd _ _ _
  obtain ⟨l, q, hl⟩ := s.landed_modIsl n (.raddr a)
  refine ⟨_, exec_raddr_running hc hr a, ?_, ?_, ?_⟩
  · obtain ⟨c, hmem, hd, hs, ht, hm⟩ := replies_up (s.landed n (.raddr a)) n a (s.requester n (.raddr a))
    rw [State.landed_islRead, hv] at hd
    exact ⟨c, hmem, hd, hs, by rw [ht]; simp, hm⟩
  · rw [replies_reads, hl, State.modIsl_same]
  · refine IslandOnly.trans ?_ (replies_islandOnly _ n a _)
    rw [hl]
    exact islandOnly_modIsl s n _

/-! ### RDATA -/

/-- The read that an RDATA cell answers: the one that its cell carries, else the oldest. -/
def State.readOf (s : State) (n : IslandNo) (w : Word) : Option (Master × Word) :=
  match flying (.rdata w) s.isl[n].up with
  | some c => some (c.req, c.addr)
  | none => s.isl[n].reads.head?

/-- The state in which the answer is handed over: the cell is accepted and its read is done. -/
theorem exec_rdata_reading (hc : s.clocked = true) {w a : Word} {m : Master} (hr : s.readOf n w = some (m, a)) :
    ∃ l q, exec (.rdata n w) s =
      .next ((s.modIsl n (fun i => { i with up := l, upRx := q, reads := i.reads.erase (m, a) })).answer n m a (some w)) := by
  obtain ⟨l, q, hl⟩ := s.arrived_modIsl n (.rdata w)
  refine ⟨l, q, ?_⟩
  rw [exec_rdata, execRdata, State.act_on _ hc]
  refine congrArg _ ?_
  change (match s.readOf n w with
    | none => s.arrived n (.rdata w)
    | some r => ((s.arrived n (.rdata w)).modIsl n (fun i => { i with reads := i.reads.erase r })).answer n r.1 r.2 (some w)) = _
  rw [hr, hl]
  dsimp only
  rw [State.modIsl_modIsl]

theorem rdata_to_link (hc : s.clocked = true) {w a : Word} (hr : s.readOf n w = some (.link, a)) :
    Completes (.rdata n w) s (fun u =>
      u.link.readq = fillRead n (some w) s.link.readq ∧ u.isl[n].reads = s.isl[n].reads.erase (.link, a)) := by
  obtain ⟨l, q, he⟩ := exec_rdata_reading hc hr
  refine ⟨_, he, rfl, ?_⟩
  simp [State.answer]

theorem rdata_to_channel (hc : s.clocked = true) {w a : Word} {c : ChNo} (hr : s.readOf n w = some (.dma c, a))
    (hst : s.dma[c].st = .move) (hrd : s.dma[c].reading ≠ 0) :
    Completes (.rdata n w) s (fun u =>
      (s.dma[c].buf = none → u.dma[c].buf = some w) ∧ (s.dma[c].buf ≠ none → u.dma[c].more = s.dma[c].more ++ [w]) ∧
      u.dma[c].reading = s.dma[c].reading - 1 ∧ u.isl[n].reads = s.isl[n].reads.erase (.dma c, a)) := by
  obtain ⟨l, q, he⟩ := exec_rdata_reading hc hr
  refine ⟨_, he, ?_⟩
  generalize hu : s.modIsl n _ = u
  have hd : u.dma = s.dma := by rw [← hu]; rfl
  have hi : u.isl[n].reads = s.isl[n].reads.erase (.dma c, a) := by rw [← hu, State.modIsl_same]
  have ha : u.answer n (.dma c) a (some w) = u.modCh c (fun h => h.take w) := if_pos (by rw [hd]; exact ⟨hst, hrd⟩)
  have hch : (u.modCh c (fun h => h.take w)).dma[c] = s.dma[c].take w := by simp [State.modCh, hd]
  rw [ha, hch]
  refine ⟨fun hb => ?_, fun hb => ?_, ?_, hi⟩
  · rw [Channel.take, hb]
    rfl
  · rw [Channel.take, if_neg (by simpa using hb)]
  · unfold Channel.take
    split <;> rfl

theorem rdata_to_thread (hc : s.clocked = true) {w a : Word} {t : CtxNo} {rd : RegNo} {k : LoadKind} {ad : Word} {e : Bool}
    (hr : s.readOf n w = some (.thread t, a)) (hst : s.facet.ctx[t].stall = .load rd k n ad none e) :
    Completes (.rdata n w) s (fun u =>
      u.facet.ctx[t].stall = .load rd k n ad (some w) false ∧ (s.tick, .islandLoadReturn t) ∈ u.due ∧
      u.isl[n].reads = s.isl[n].reads.erase (.thread t, a)) := by
  obtain ⟨l, q, he⟩ := exec_rdata_reading hc hr
  refine ⟨_, he, ?_⟩
  generalize hu : s.modIsl n _ = u
  have hf : u.facet = s.facet := by rw [← hu]; rfl
  have ht : u.tick + 0 = s.tick := by rw [← hu]; simp
  have hi : u.isl[n].reads = s.isl[n].reads.erase (.thread t, a) := by rw [← hu, State.modIsl_same]
  have ha : u.answer n (.thread t) a (some w) =
      (u.modCtx t (fun x => { x with stall := .load rd k n ad (some w) false })).owe 0 (.islandLoadReturn t) := by
    have hstall : u.facet.ctx[t].stall = .load rd k n ad none e := by rw [hf, hst]
    unfold State.answer
    simp only [hstall]
    exact if_pos trivial
  rw [ha]
  refine ⟨?_, ?_, ?_⟩
  · rw [State.owe_eq]
    show (u.facet.ctx.set t _)[t].stall = _
    exact congrArg Ctx.stall (Vector.getElem_set_self ..)
  · have hdue := State.mem_owe_self (u.modCtx t (fun x => { x with stall := .load rd k n ad (some w) false })) 0 (.islandLoadReturn t)
    rwa [show (u.modCtx t _).tick + BitVec.ofNat 64 0 = s.tick from ht] at hdue
  · rw [State.owe_isl]
    exact hi

/-! ### WADDR and WDATA -/

theorem waddr_sets (hc : s.clocked = true) (hr : s.running n = true) (a : Word) :
    Completes (.waddr n a) s (fun u => u.isl[n].waddr = a ∧ u.isl[n].mem = s.isl[n].mem ∧ ∀ k, k ≠ n → u.isl[k] = s.isl[k]) := by
  obtain ⟨l, q, hl⟩ := s.landed_modIsl n (.waddr a)
  have hr' : (s.landed n (.waddr a)).running n = true := by simpa [State.running, hl] using hr
  refine ⟨_, by rw [exec_waddr, execWaddr, State.act_on _ hc, if_pos hr'], ?_⟩
  rw [hl, State.modIsl_modIsl]
  exact ⟨by simp, by simp, fun k hk => State.modIsl_other _ n k _ hk⟩

/-- What a WDATA word does in the island, once its cell has landed and the address has stepped. -/
def State.wdataTo (s : State) (n : IslandNo) (req : Master) (a : Word) (lanes : BitVec 4) (w : Word) : State :=
  let off := fld a 0 14
  if req = .slate then
    s.modIsl n (fun i =>
      { i with recShadow := some (i.recShadow.getD [] ++ [(if a.getLsbD 31 then off + 0x10000 else off, w)]) })
  else if a.getLsbD 31 then s.modIsl n (fun i => i.putWord off (mergeLanes lanes (i.word off) w))
  else s.islRegWrite n req off (mergeLanes lanes (if off = 0x44 then s.isl[n].din.count else 0) w)

theorem exec_wdata_running (hc : s.clocked = true) (hr : s.running n = true) (w : Word) :
    ∃ l q, exec (.wdata n w) s = .next ((s.modIsl n (fun i => { i with down := l, dnRx := q, waddr := s.isl[n].waddr + 4 })).wdataTo n
      (s.requester n (.wdata w)) s.isl[n].waddr (s.lanesOf n w) w) := by
  obtain ⟨l, q, hl⟩ := s.landed_modIsl n (.wdata w)
  have hr' : (s.landed n (.wdata w)).running n = true := by simpa [State.running, hl] using hr
  refine ⟨l, q, ?_⟩
  rw [exec_wdata, execWdata, State.act_on _ hc]
  refine congrArg _ ((if_pos hr').trans ?_)
  rw [hl, State.modIsl_modIsl]
  rfl

/-- A word of a slate joins the shadow of the record. -/
theorem wdata_of_slate (hc : s.clocked = true) (hr : s.running n = true) {w : Word} (hq : s.requester n (.wdata w) = .slate) :
    let a := s.isl[n].waddr
    let off := fld a 0 14
    Completes (.wdata n w) s (fun u =>
      u.isl[n].waddr = a + 4 ∧ u.isl[n].mem = s.isl[n].mem ∧ u.isl[n].recd = s.isl[n].recd ∧
      u.isl[n].recShadow = some (s.isl[n].recShadow.getD [] ++ [(if a.getLsbD 31 then off + 0x10000 else off, w)])) := by
  obtain ⟨l, q, he⟩ := exec_wdata_running hc hr w
  refine ⟨_, he.trans (congrArg _ (if_pos hq)), ?_⟩
  beta_reduce
  rw [State.modIsl_modIsl, State.modIsl_same]
  exact ⟨rfl, rfl, rfl, rfl⟩

/-- The byte lanes of a cell that no thread sent are all four (R234). -/
theorem State.lanesOf_full {w : Word} (h : ∀ t, s.requester n (.wdata w) ≠ .thread t) : s.lanesOf n w = 15 := by
  unfold State.requester at h
  unfold State.lanesOf
  cases hf : flying (.wdata w) s.isl[n].down with
  | none => rfl
  | some c =>
    rw [hf] at h
    dsimp only at h ⊢
    split
    next t ht => exact absurd ht (h t)
    next => rfl

theorem mergeLanes_full (old w : Word) : mergeLanes 15 old w = w := by
  have h : laneMask 15 = BitVec.allOnes 32 := by decide
  rw [mergeLanes, h, BitVec.not_allOnes, BitVec.and_zero, BitVec.zero_or, BitVec.and_allOnes]

theorem Island.putWord_byte {i : Island} (h : Memory.wf i.mem = true) (a b : Nat) (w : Word) :
    (i.putWord a w).byte b = if a ≤ b ∧ b < a + 4 then wordByte w (b - a) else i.byte b := by
  have h0 := swf_sput (d := fun _ => (0 : Byte)) (a + 0) (wordByte w 0) h
  have h1 := swf_sput (d := fun _ => (0 : Byte)) (a + 1) (wordByte w 1) h0
  have h2 := swf_sput (d := fun _ => (0 : Byte)) (a + 2) (wordByte w 2) h1
  simp only [Island.putWord, Island.byte, List.foldl]
  rw [sget_sput _ h2, sget_sput _ h1, sget_sput _ h0, sget_sput _ h]
  by_cases hb : a ≤ b ∧ b < a + 4
  · obtain ⟨k, rfl⟩ := Nat.exists_eq_add_of_le hb.1
    have hk : k < 4 := by omega
    interval_cases k <;> simp
  · rw [if_neg hb, if_neg (by omega), if_neg (by omega), if_neg (by omega), if_neg (by omega)]

theorem Island.putWord_word {i : Island} (h : Memory.wf i.mem = true) (a : Nat) (w : Word) : (i.putWord a w).word a = w := by
  have hb (k : Nat) (hk : k < 4) : (i.putWord a w).byte (a + k) = wordByte w k := by
    rw [Island.putWord_byte h, if_pos (by omega), Nat.add_sub_cancel_left]
  unfold Island.word
  rw [hb 1 (by decide), hb 2 (by decide), hb 3 (by decide), show (i.putWord a w).byte a = wordByte w 0 from hb 0 (by decide)]
  exact bytesWord_wordByte w

/-- A word that no slate sent goes to island SRAM, and nowhere else in it. -/
theorem wdata_to_sram (hc : s.clocked = true) (hr : s.running n = true) {w : Word} (hq : s.requester n (.wdata w) ≠ .slate)
    (ha : s.isl[n].waddr.getLsbD 31 = true) (hwf : Memory.wf s.isl[n].mem = true) :
    let off := fld s.isl[n].waddr 0 14
    Completes (.wdata n w) s (fun u =>
      u.isl[n].waddr = s.isl[n].waddr + 4 ∧ u.isl[n].word off = mergeLanes (s.lanesOf n w) (s.isl[n].word off) w ∧
      Memory.wf u.isl[n].mem = true ∧ ((∀ t, s.requester n (.wdata w) ≠ .thread t) → u.isl[n].word off = w) ∧
      (∀ b : Nat, b < off ∨ off + 4 ≤ b → u.isl[n].byte b = s.isl[n].byte b) ∧ ∀ k, k ≠ n → u.isl[k] = s.isl[k]) := by
  intro off
  obtain ⟨l, q, he⟩ := exec_wdata_running hc hr w
  refine ⟨_, he.trans (congrArg _ ((if_neg hq).trans (if_pos ha))), ?_⟩
  beta_reduce
  rw [State.modIsl_modIsl, State.modIsl_same]
  have hput := Island.putWord_word (i := { s.isl[n] with down := l, dnRx := q, waddr := s.isl[n].waddr + 4 }) hwf off
    (mergeLanes (s.lanesOf n w) (s.isl[n].word off) w)
  refine ⟨rfl, hput, Island.putWord_wf _ _ hwf, fun ht => ?_, fun b hb => ?_, fun k hk => State.modIsl_other _ n k _ hk⟩
  · refine hput.trans ?_
    rw [State.lanesOf_full ht, mergeLanes_full]
  · exact (Island.putWord_byte hwf off b _).trans (if_neg (by omega))

/-- A word that no slate sent to the counter of a counting input becomes its count. -/
theorem wdata_to_count (hc : s.clocked = true) (hr : s.running n = true) {w : Word} (hq : s.requester n (.wdata w) ≠ .slate)
    (ha : s.isl[n].waddr.getLsbD 31 = false) (hoff : fld s.isl[n].waddr 0 14 = 0x44) (hp : s.isl[n].pers = .diCnt) :
    Completes (.wdata n w) s (fun u =>
      u.isl[n].din.count = mergeLanes (s.lanesOf n w) s.isl[n].din.count w ∧ u.isl[n].mem = s.isl[n].mem) := by
  obtain ⟨l, q, he⟩ := exec_wdata_running hc hr w
  have hpos : ¬ s.isl[n].waddr.getLsbD 31 = true := by
    rw [ha]
    exact Bool.false_ne_true
  refine ⟨_, he.trans (congrArg _ ((if_neg hq).trans (if_neg hpos))), ?_⟩
  rw [hoff]
  generalize hu : s.modIsl n _ = u
  have hi : u.isl[n].din.count = s.isl[n].din.count := by rw [← hu, State.modIsl_same]
  have hm : u.isl[n].mem = s.isl[n].mem := by rw [← hu, State.modIsl_same]
  have hp' : u.isl[n].pers = .diCnt := by rw [← hp, ← hu, State.modIsl_same]; rfl
  have hserves : ¬ (!regServes u.isl[n].pers 0x44) = true := by rw [hp']; decide
  have hw : u.islRegWrite n (s.requester n (.wdata w)) 0x44 (mergeLanes (s.lanesOf n w) s.isl[n].din.count w) =
      u.modDin n (fun d => { d with count := mergeLanes (s.lanesOf n w) s.isl[n].din.count w }) := by
    exact (if_neg hserves).trans (if_pos hp')
  rw [if_pos rfl, hi, hw]
  unfold State.modDin
  beta_reduce
  rw [State.modIsl_same]
  exact ⟨rfl, hm⟩

end Access

/-- Settles O44: what each of the four cells does when it lands or arrives, one requester or destination at a time. -/
theorem islandAccessCells : Obligations.IslandAccessCells := by
  unfold Obligations.IslandAccessCells
  refine ⟨fun s n hc => ⟨fun a hr => raddr_answers hc hr a, fun w a => ⟨fun h => rdata_to_link hc h, fun c h hst hrd => ?_,
    fun t rd k ad e h hst => rdata_to_thread hc h hst⟩⟩, fun s n hc hr => ⟨fun a => waddr_sets hc hr a, fun w => ⟨fun hq => wdata_of_slate hc hr hq,
    fun hq ha hwf => wdata_to_sram hc hr hq ha hwf, fun hq ha hoff hp => wdata_to_count hc hr hq ha hoff hp⟩⟩⟩
  exact rdata_to_channel hc h hst hrd

/-! ## Commits

At its switch a commit runs through every island, the reflex table, the channels, the timers and the roles. What it has committed, and
what it has put in its islands, is carried from each of these steps to the next. -/

/-- What the device has committed, its memory, and whether it is in a Lockout. -/
def State.ground (s : State) : Member × Words × Slate × List Host.Cell × Bool := (s.member, s.cfg, s.slate, s.mem, s.fault.lockout)

/-- j is the island i with its power, its request and the cells of the slate that wait for it. -/
structure Island.Carries (i j : Island) : Prop where
  power : j.power = i.power
  en : j.en = i.en
  request : j.led.reqRung = i.led.reqRung
  cells : ∀ c ∈ i.down, c.req = .slate → c ∈ j.down

/-- u is s with what has been committed, and with all its islands as far as a commit settles them. -/
structure State.Carries (s u : State) : Prop where
  ground : u.ground = s.ground
  isl : ∀ n : IslandNo, s.isl[n].Carries u.isl[n]

section Carries

variable {i j k : Island} {s u v : State}

theorem Island.Carries.rfl : i.Carries i := ⟨by rfl, by rfl, by rfl, fun _ hc _ => hc⟩

theorem Island.Carries.trans (h : i.Carries j) (h' : j.Carries k) : i.Carries k :=
  ⟨h'.power.trans h.power, h'.en.trans h.en, h'.request.trans h.request, fun c hc hr => h'.cells c (h.cells c hc hr) hr⟩

/-- An update of an island that leaves power, request and downstream cells. -/
theorem Island.Carries.of_eq (hp : j.power = i.power) (he : j.en = i.en) (hr : j.led.reqRung = i.led.reqRung) (hd : j.down = i.down) :
    i.Carries j := ⟨hp, he, hr, fun _ hc _ => hd ▸ hc⟩

theorem State.Carries.rfl : s.Carries s := ⟨by rfl, fun _ => .rfl⟩

theorem State.Carries.trans (h : s.Carries u) (h' : u.Carries v) : s.Carries v :=
  ⟨h'.ground.trans h.ground, fun n => (h.isl n).trans (h'.isl n)⟩

/-- A step that touches neither the islands nor what has been committed. -/
theorem State.Carries.of_isl (hg : u.ground = s.ground) (hi : u.isl = s.isl) : s.Carries u := ⟨hg, fun n => by rw [hi]; exact .rfl⟩

theorem State.OwesMore.carries (h : s.OwesMore u) : s.Carries u := by
  obtain ⟨d, rfl, -⟩ := h
  exact .of_isl (by rfl) (by rfl)

theorem carries_ite (p : Prop) [Decidable p] (hu : s.Carries u) (hv : s.Carries v) : s.Carries (if p then u else v) := ite_keeps p hu hv

theorem carries_foldl {β : Type} (l : List β) (f : State → β → State) (hf : ∀ (v : State) b, v.Carries (f v b)) (s : State) :
    s.Carries (l.foldl f s) :=
  List.foldlRecOn (motive := fun v => State.Carries s v) l f .rfl fun _ hv b _ => hv.trans (hf _ b)

theorem carries_modIsl (s : State) (n : IslandNo) (f : Island → Island) (hf : ∀ i : Island, i.Carries (f i)) : s.Carries (s.modIsl n f) := by
  refine ⟨by rfl, fun k => ?_⟩
  by_cases hk : k = n
  · subst hk
    rw [State.modIsl_same]
    exact hf _
  · rw [State.modIsl_other _ n k _ hk]
    exact .rfl

theorem carries_mapIsl (s : State) (f : Island → Island) (hf : ∀ i : Island, i.Carries (f i)) :
    s.Carries { s with isl := s.isl.map f } :=
  ⟨by rfl, fun k => by simpa using hf s.isl[k]⟩

theorem carries_owe (s : State) (k : Nat) (c : Instr) : s.Carries (s.owe k c) := (s.owesMore_owe k c).carries

theorem carries_cancel (s : State) (c : Instr) : s.Carries (s.cancel c) := .of_isl rfl rfl

theorem carries_modCtx (s : State) (t : CtxNo) (f : Ctx → Ctx) : s.Carries (s.modCtx t f) := .of_isl rfl rfl

theorem carries_sendFrom (s : State) (t : Tick) (n : IslandNo) (r : Master) (d : DownData) (a : Word) (x : BitVec 19) :
    s.Carries (s.sendFrom t n r d a x) := by
  refine carries_modIsl s n _ fun i => ?_
  exact ⟨rfl, rfl, rfl, fun _ hc _ => mem_insertDown.2 (.inr hc)⟩

theorem carries_send (s : State) (n : IslandNo) (r : Master) (d : DownData) (a : Word) (x : BitVec 19) : s.Carries (s.send n r d a x) :=
  carries_sendFrom s _ n r d a x

theorem Queues.carried {n : IslandNo} {d : DownData} (hq : Queues s n .slate d) (h : s.isl[n].Carries u.isl[n]) : Queues u n .slate d := by
  obtain ⟨c, hc, hd, hr, hs⟩ := hq
  exact ⟨c, h.cells c hc hr, hd, hr, hs⟩

theorem carries_modTan (s : State) (f : Tandem → Tandem) : s.Carries (s.modTan f) := .of_isl rfl rfl

/-! ### Cells that fail -/

theorem carries_raiseAt (s : State) (stamp : Tick) (src m : Byte) (typ : BitVec 4) (kind : Byte) (a dt : Word) (inj : Bool) :
    s.Carries (s.raiseAt stamp src m typ kind a dt inj) := by
  obtain ⟨d, f, h⟩ := s.raiseAt_eq stamp src m typ kind a dt inj
  have hl := s.raiseAt_lockout stamp src m typ kind a dt inj
  rw [h] at hl ⊢
  exact .of_isl (congrArg (fun b => (s.member, s.cfg, s.slate, s.mem, b)) hl) rfl

theorem carries_accFault (s : State) (e : AccErr) (m : Master) (typ : BitVec 4) (a : Nat) : s.Carries (s.accFault e m typ a) :=
  carries_raiseAt ..

/-- Cells of other requesters may change or go. -/
theorem Island.orphanDma_carries (c : ChNo) (i : Island) : i.Carries (i.orphanDma c) := by
  refine ⟨rfl, rfl, rfl, fun x hx hr => List.mem_map.2 ⟨x, hx, if_neg fun h => ?_⟩⟩
  rw [hr] at h
  exact Master.noConfusion h.1

theorem Island.dropDma_carries (c : ChNo) (i : Island) : i.Carries (i.dropDma c) := by
  refine Island.Carries.trans (j := { i with down := i.down.filter (fun x => decide (x.req ≠ Master.dma c) || x.sent || x.again) })
    ⟨rfl, rfl, rfl, fun x hx hr => List.mem_filter.2 ⟨hx, ?_⟩⟩ (Island.orphanDma_carries c _)
  simp [hr]

theorem Island.stopFrame_carries (x : BitVec 19) (i : Island) : i.Carries (i.stopFrame x) := by
  unfold Island.stopFrame
  split
  · exact ⟨rfl, rfl, rfl, fun c hc hr => List.mem_filter.2 ⟨hc, by simp [behind, hr]⟩⟩
  · exact .rfl

/-- A channel that stops, with the reads that are out. -/
theorem carries_stopDma (s : State) (c : ChNo) (l : Option (ChNo × Tick)) (f : Channel → Channel) :
    s.Carries (({ s with isl := s.isl.map (Island.orphanDma c), nvmRd := l } : State).modCh c f) := by
  have hmap := carries_mapIsl s _ (Island.orphanDma_carries c)
  exact ⟨hmap.ground, hmap.isl⟩

theorem carries_dmaFail (s : State) (c : ChNo) (err : BitVec 3) (a : Word) (typ : BitVec 4) : s.Carries (s.dmaFail c err a typ) :=
  carries_ite _ .rfl ((carries_stopDma s c _ _).trans (carries_raiseAt ..))

theorem carries_linkXerr (s : State) (x : BitVec 19) : s.Carries (s.linkXerr x) :=
  (carries_mapIsl s _ (Island.stopFrame_carries x)).trans (.of_isl rfl rfl)

theorem carries_answer (s : State) (n : IslandNo) (r : Master) (a : Word) (v : Option Word) : s.Carries (s.answer n r a v) := by
  unfold State.answer
  split
  · have hq : s.Carries { s with link := { s.link with readq := fillRead n v s.link.readq } } := .of_isl rfl rfl
    exact carries_ite _ (hq.trans (carries_accFault ..)) hq
  · split
    next rd k m ad e hst =>
      have hq (w : Stall) (t : CtxNo) : s.Carries ((s.modCtx t (fun x => { x with stall := w })).owe 0 (.islandLoadReturn t)) :=
        (carries_modCtx s t _).trans (carries_owe _ 0 _)
      exact carries_ite _ (carries_ite _ ((hq _ _).trans (carries_accFault ..)) (hq _ _)) .rfl
    next => exact .rfl
  · split
    · exact carries_ite _ (.of_isl rfl rfl) .rfl
    · exact carries_dmaFail s _ 4 a 1
  · exact .rfl

theorem carries_writeFailed (s : State) (r : Master) (a : Word) (x : BitVec 19) : s.Carries (s.writeFailed r a x) := by
  unfold State.writeFailed
  split
  · exact (carries_linkXerr s x).trans (carries_accFault ..)
  · exact (carries_modCtx s _ _).trans (carries_accFault ..)
  · exact carries_dmaFail s _ 4 a 2
  · exact .rfl

theorem carries_cmdFailed (s : State) (r : Master) (a : Word) (x : BitVec 19) : s.Carries (s.cmdFailed r a x) := by
  unfold State.cmdFailed
  split
  · exact (carries_linkXerr s x).trans (carries_accFault ..)
  · exact .of_isl rfl rfl
  · exact carries_dmaFail s _ 4 a 2
  · exact .rfl

theorem carries_cellFailed (s : State) (n : IslandNo) (c : DownCell) : s.Carries (s.cellFailed n c) := by
  unfold State.cellFailed
  split
  · exact carries_ite _ .rfl (carries_answer s n _ _ none)
  · exact carries_writeFailed s _ _ _
  · exact carries_writeFailed s _ _ _
  · exact carries_writeFailed s _ _ _
  · exact carries_cmdFailed s _ _ _
  · exact .rfl

/-- Once the queues of an island are empty, what their cells leave behind carries the rest. -/
theorem carries_discardCells (s : State) (n : IslandNo) :
    (s.modIsl n (fun i => { i with down := [], up := [], reads := [] })).Carries (s.discardCells n) := by
  unfold State.discardCells
  extract_lets cells reads v w x y
  have hw : v.Carries w := carries_foldl _ _ (fun u c => carries_cellFailed u n c) v
  have hx : w.Carries x := carries_foldl _ _ (fun u r => carries_answer u n _ _ none) w
  have hy : x.Carries y := carries_ite _ (carries_owe x 0 _) .rfl
  exact ((hw.trans hx).trans hy).trans y.owesMore_fenceChecks.carries

/-! ### Grains -/

theorem carries_fitRsv (s : State) (n : IslandNo) : s.Carries (s.fitRsv n) := by
  unfold State.fitRsv
  refine carries_modIsl s n _ fun i => ?_
  exact .of_eq rfl rfl rfl rfl

theorem carries_charge (s : State) (n : IslandNo) (g : Nat) : s.Carries (s.charge n g) := by
  refine (carries_modIsl s n _ fun i => ?_).trans (carries_fitRsv _ n)
  exact .of_eq rfl rfl rfl rfl

theorem carries_sendRung (s : State) (n : IslandNo) : s.Carries (s.sendRung n) := by
  have hled (f : Ledger → Ledger) (hf : ∀ l, (f l).reqRung = l.reqRung) (g : Nat) :
      s.Carries ((s.modIsl n (fun i => { i with led := f i.led })).charge n g) := by
    refine (carries_modIsl s n _ fun i => ?_).trans (carries_charge _ n g)
    exact .of_eq rfl rfl (hf i.led) rfl
  unfold State.sendRung
  extract_lets i l
  refine carries_ite _ (carries_ite _ ?_ (carries_ite _ (State.Carries.trans ?_ (carries_sendFrom ..)) (carries_charge s n _))) .rfl
  · exact hled (fun l => { l with waitGr := false }) (fun _ => rfl) _
  · exact hled (fun k => { k with waitGr := false, pending := true, sentGr := l.nextGr }) (fun _ => rfl) _

theorem carries_grantCharge (s : State) : s.Carries s.grantCharge := by
  refine carries_foldl _ _ (fun u n => carries_ite _ ((carries_modIsl u n _ fun i => ?_).trans (carries_fitRsv _ n)) .rfl) s
  exact .of_eq rfl rfl rfl rfl

theorem carries_parkCheck (s : State) : s.Carries s.parkCheck := carries_ite _ (.of_isl rfl rfl) .rfl

theorem carries_dormantCheck (s : State) : s.Carries s.dormantCheck := carries_ite _ (.of_isl rfl rfl) .rfl

/-! ### Kills -/

/-- What lies beside an island's stages is carried. -/
theorem carries_of_beside {n : IslandNo} (h : u.beside Island.unstaged n = s.beside Island.unstaged n) : s.Carries u := by
  have hg : (u.beside Island.unstaged n).ground = (s.beside Island.unstaged n).ground := by rw [h]
  refine ⟨hg, fun k => ?_⟩
  by_cases hk : k = n
  · subst hk
    have hi := State.beside_same h
    have hp : u.isl[k].unstaged.power = s.isl[k].unstaged.power := by rw [hi]
    have he : u.isl[k].unstaged.en = s.isl[k].unstaged.en := by rw [hi]
    have hr : u.isl[k].unstaged.led.reqRung = s.isl[k].unstaged.led.reqRung := by rw [hi]
    have hd : u.isl[k].unstaged.down = s.isl[k].unstaged.down := by rw [hi]
    exact .of_eq hp he hr hd
  · rw [State.beside_other h hk]
    exact .rfl

theorem carries_loopStop (s : State) (n : IslandNo) (st : BitVec 2) (r : BitVec 4) : s.Carries (s.loopStop n st r) := by
  have hend (v : State) (m : IslandNo) : v.Carries (v.loopEnd m st r) := carries_of_beside (v.loopEnd_beside m st r)
  exact carries_ite _ ((hend s n).trans (hend _ _)) (hend s n)

theorem carries_leaveRunning (s : State) (n : IslandNo) : s.Carries (s.leaveRunning n) := by
  unfold State.leaveRunning
  refine State.Carries.trans (u := s.modIsl n _) (carries_modIsl s n _ fun i => ?_) (.of_isl rfl rfl)
  exact .of_eq rfl rfl rfl rfl

/-- The island that a kill leaves, before anything else learns of it. -/
def Island.cut (p : IslPower) (i : Island) : Island := { i.killed p with down := [], up := [], reads := [] }

theorem carries_kill (s : State) (n : IslandNo) (p : IslPower) : (s.modIsl n (Island.cut p)).Carries (s.kill n p) := by
  have hclear : (s.modIsl n (Island.cut p)).Carries (s.cleared n p) := by
    unfold State.cleared
    extract_lets v w
    have hcut : (s.modIsl n (Island.cut p)).Carries (w.modIsl n (fun i => { i with down := [], up := [], reads := [] })) := by
      refine .of_isl rfl ?_
      rw [State.modIsl_modIsl]
      rfl
    exact ((((hcut.trans (carries_discardCells w n)).trans (carries_loopStop _ n 3 7)).trans (carries_leaveRunning _ n)).trans
      (carries_owe _ 512 _)).trans (State.owesMore_tapChanged _).carries
  rw [State.kill_eq]
  generalize s.cleared n p = c at hclear ⊢
  exact ((((hclear.trans (carries_parkCheck c)).trans (carries_foldl _ _ carries_sendRung _)).trans (carries_grantCharge _)).trans
    (State.owesMore_ackChecks _).carries).trans (carries_dormantCheck _)

/-! ### After the islands -/

theorem carries_evt (s : State) (e : Events) : s.Carries { s with evt := e } := .of_isl rfl rfl

theorem carries_sendLane (s : State) (k : Nat) (x : Transit) : s.Carries (s.sendLane k x) := .of_isl rfl rfl

theorem carries_orphan (s o : State) (i : Fin 64) : s.Carries (s.orphan o i) := by
  unfold State.orphan
  refine carries_ite _ ((carries_evt s _).trans (carries_foldl _ _ (fun u n => ?_) _)) .rfl
  refine carries_ite _ .rfl (carries_ite _ (carries_modIsl u n _ fun i => ?_) (carries_modIsl u n _ fun i => ?_))
  · exact .of_eq rfl rfl rfl rfl
  · exact .of_eq rfl rfl rfl rfl

theorem carries_tmrStart (s : State) (k : Fin 16) : s.Carries (s.tmrStart k) := by
  obtain ⟨d, e, h⟩ := s.tmrStart_eq k
  rw [h]
  exact .of_isl rfl rfl

theorem carries_wire (s o : State) : s.Carries (s.wire o) :=
  (carries_foldl _ _ (fun u _ => carries_ite _ (carries_evt u _) .rfl) s).trans
    (carries_foldl _ _ (fun u k => carries_ite _ (carries_tmrStart u k) .rfl) _)

theorem carries_rfxApply (s : State) (mask : BitVec 16) : s.Carries (s.rfxApply mask) :=
  carries_foldl _ _ (fun u _ => carries_ite _ (carries_sendLane u 8 _) .rfl) s

theorem carries_nvmRd (s : State) (l : Option (ChNo × Tick)) : s.Carries { s with nvmRd := l } := .of_isl rfl rfl

theorem carries_chDisable (s : State) (c : ChNo) : s.Carries (s.chDisable c) := by
  have hdrop (u : State) (n : IslandNo) : u.Carries (u.modIsl n (Island.dropDma c)) := carries_modIsl u n _ (Island.dropDma_carries c)
  unfold State.chDisable
  extract_lets v f
  have hv : s.Carries v := ((carries_nvmRd s _).trans (carries_cancel _ _)).trans (carries_foldl _ _ hdrop _)
  clear_value v
  exact hv.trans (.of_isl rfl rfl)

theorem carries_dmaSwitch (s o : State) : s.Carries (s.dmaSwitch o) :=
  carries_foldl _ _ (fun u c => by
    extract_lets v
    have hv : u.Carries v := carries_ite _ (carries_chDisable u c) .rfl
    exact carries_ite _ (hv.trans (carries_owe v 1 _)) hv) s

theorem carries_modFlint (s : State) (ch : FlintChan) (f : FlintCh → FlintCh) : s.Carries (s.modFlint ch f) := by
  cases ch <;> exact .of_isl rfl rfl

theorem carries_flintStart (s : State) (ch : FlintChan) : s.Carries (s.flintStart ch) :=
  carries_ite _ ((carries_cancel s _).trans (carries_modFlint _ ch _))
    (((carries_modFlint s ch _).trans (carries_cancel _ _)).trans (carries_owe _ _ _))

theorem carries_flintSwitch (s o : State) (ch : FlintChan) : s.Carries (s.flintSwitch o ch) := carries_ite _ (carries_flintStart s ch) .rfl

theorem carries_modFault (s : State) (f : Collector → Collector) (hf : ∀ c, (f c).lockout = c.lockout) : s.Carries (s.modFault f) :=
  .of_isl (congrArg (fun b => (s.member, s.cfg, s.slate, s.mem, b)) (hf s.fault)) rfl

theorem carries_haltWait (s : State) : s.Carries s.haltWait := (carries_cancel s _).trans (State.owesMore_oweAt _ _ _).carries

theorem carries_sendShadow (s : State) (on : Bool) : s.Carries (s.sendShadow on) :=
  carries_foldl _ _ (fun u n => carries_ite _ (carries_send u n _ _ 0 0) .rfl) s

theorem carries_toStandby (s : State) : s.Carries s.toStandby := (carries_modTan s _).trans (carries_sendShadow _ true)

theorem carries_soloIsland (s : State) (n : IslandNo) : s.Carries (s.soloIsland n) := by
  unfold State.soloIsland
  refine carries_ite _ (carries_modIsl s n _ fun i => ?_) (carries_ite _ (carries_send s n _ _ 0 0) .rfl)
  exact .of_eq rfl rfl rfl rfl

theorem carries_roleRow (s : State) : s.Carries s.roleRow := by
  unfold State.roleRow
  refine carries_ite _ (carries_modTan s _) ((carries_modTan s (fun t => { t with commitWait := false })).trans ?_)
  generalize s.modTan _ = v
  dsimp only
  split
  · exact carries_ite _ (carries_modTan _ _) (carries_toStandby _)
  · exact carries_modTan _ _
  · exact (carries_foldl _ _ carries_soloIsland _).trans (carries_modTan _ _)
  · exact .rfl

theorem carries_tanLinkFor (s : State) : s.Carries s.tanLinkFor :=
  carries_ite _ .rfl (carries_ite _ (carries_ite _ (carries_modTan s _) .rfl)
    ((((carries_cancel s _).trans (carries_cancel _ _)).trans (carries_cancel _ _)).trans (carries_modTan _ _)))

/-! ### The islands at a switch -/

/-- u is s as a commit carries it, but for island n. -/
def State.CarriesBeside (s u : State) (n : IslandNo) : Prop := u.ground = s.ground ∧ ∀ k : IslandNo, k ≠ n → s.isl[k].Carries u.isl[k]

theorem State.Carries.beside (h : s.Carries u) (n : IslandNo) : s.CarriesBeside u n := ⟨h.ground, fun k _ => h.isl k⟩

theorem carriesBeside_modIsl (s : State) (n : IslandNo) (f : Island → Island) : s.CarriesBeside (s.modIsl n f) n :=
  ⟨rfl, fun k hk => by rw [State.modIsl_other s n k f hk]; exact .rfl⟩

theorem State.CarriesBeside.trans {n : IslandNo} (h : s.CarriesBeside u n) (h' : u.CarriesBeside v n) : s.CarriesBeside v n :=
  ⟨h'.1.trans h.1, fun k hk => (h.2 k hk).trans (h'.2 k hk)⟩

/-- Island n falls to Bedrock with its personality. -/
def State.dropped (s : State) (n : IslandNo) : State := (s.modIsl n (fun i => { i with en := false })).killPowered n

theorem dropped_spec (s : State) (n : IslandNo) : s.CarriesBeside (s.dropped n) n ∧
    (s.dropped n).isl[n].en = false ∧ (s.dropped n).isl[n].powered = false ∧ (s.dropped n).isl[n].led.reqRung = s.isl[n].led.reqRung := by
  have hv := carriesBeside_modIsl s n (fun i => { i with en := false })
  have hi : (s.modIsl n (fun i => { i with en := false })).isl[n] = { s.isl[n] with en := false } := s.modIsl_same n _
  unfold State.dropped State.killPowered
  generalize s.modIsl n (fun i => { i with en := false }) = v at hv hi ⊢
  split
  · have hkill := carries_kill v n .bedrock
    have hn := hkill.isl n
    rw [State.modIsl_same] at hn
    refine ⟨(hv.trans (carriesBeside_modIsl v n _)).trans (hkill.beside n), hn.en, ?_, ?_⟩
    · unfold Island.powered
      rw [hn.power]
      rfl
    · rw [hn.request, hi]
      rfl
  next hp => exact ⟨hv, by rw [hi], by simpa using hp, by rw [hi]⟩

theorem islandPhase_off {s o : State} {n : IslandNo} (hs : s.pers n = .off) (ho : o.pers n ≠ .off) : s.islandPhase o n = s.dropped n :=
  if_pos ⟨hs, ho⟩

theorem carries_sendRecord (s : State) (n : IslandNo) : s.Carries (s.sendRecord n) :=
  (carries_foldl _ _ (fun u d => carries_send u n .slate d 0 0) s).trans (carries_send _ n _ _ 0 0)

theorem islandPhase_on {s o : State} {n : IslandNo} (h : ¬ (s.pers n = .off ∧ o.pers n ≠ .off)) : s.Carries (s.islandPhase o n) := by
  have hprep := carries_send s n .slate (.cmd .prep) 0 0
  unfold State.islandPhase
  rw [if_neg h]
  exact carries_ite _ (carries_ite _ (carries_sendRecord s n) (carries_ite _ (hprep.trans (carries_send _ n _ _ 0 0)) hprep)) .rfl

theorem islandPhase_beside (s o : State) (n : IslandNo) : s.CarriesBeside (s.islandPhase o n) n := by
  by_cases h : s.pers n = .off ∧ o.pers n ≠ .off
  · rw [islandPhase_off h.1 h.2]
    exact (dropped_spec s n).1
  · exact (islandPhase_on h).beside n

/-- A changed record goes out with APPLY behind it, or PREP goes first where the personality changes (R118, R121). -/
theorem islandPhase_queues {s o : State} {n : IslandNo} (hoff : s.pers n ≠ .off) (hrun : s.running n = true) (hrec : s.recordOf n ≠ o.recordOf n)
    (hlock : s.fault.lockout = false) : (s.pers n = o.pers n → Queues (s.islandPhase o n) n .slate (.cmd .apply)) ∧
      (s.pers n ≠ o.pers n → Queues (s.islandPhase o n) n .slate (.cmd .prep)) := by
  have hgo : (s.running n && s.recordChanged o n && !s.fault.lockout) = true := by simp [hrun, hlock, State.recordChanged, hrec]
  unfold State.islandPhase
  rw [if_neg fun h => hoff h.1, if_pos hgo]
  refine ⟨fun hp => ?_, fun hp => ?_⟩
  · rw [if_pos hp]
    exact (s.sendRecord_queues n).2
  · rw [if_neg hp]
    have hq : Queues (s.send n .slate (.cmd .prep)) n .slate (.cmd .prep) := queues_send s n .slate _ 0 0
    exact hq.carried ((carries_ite _ (carries_send _ n _ _ 0 0) .rfl).isl n)

/-- What the switch of a commit does to island n, from t to u, where the configuration before it was that of o. -/
structure State.Phased (t o u : State) (n : IslandNo) : Prop where
  ground : u.ground = t.ground
  off : t.pers n = .off → o.pers n ≠ .off → u.isl[n].en = false ∧ u.isl[n].powered = false
  record : t.pers n ≠ .off → t.running n = true → t.recordOf n ≠ o.recordOf n → t.fault.lockout = false →
    (t.pers n = o.pers n → Queues u n .slate (.cmd .apply)) ∧ (t.pers n ≠ o.pers n → Queues u n .slate (.cmd .prep))
  request : u.isl[n].led.reqRung = t.isl[n].led.reqRung

theorem State.Phased.carried {t o : State} {n : IslandNo} (h : t.Phased o u n) (hg : v.ground = u.ground) (hi : u.isl[n].Carries v.isl[n]) :
    t.Phased o v n := by
  refine ⟨hg.trans h.ground, fun ht ho => ?_, fun ht hr hc hl => ?_, hi.request.trans h.request⟩
  · obtain ⟨he, hp⟩ := h.off ht ho
    exact ⟨hi.en.trans he, by rw [← hp]; unfold Island.powered; rw [hi.power]⟩
  · obtain ⟨ha, hp⟩ := h.record ht hr hc hl
    exact ⟨fun e => (ha e).carried hi, fun e => (hp e).carried hi⟩

theorem State.ground_parts {m : Member} {c : Words} {z : Slate} {l : List Host.Cell} {b : Bool} (h : u.ground = (m, c, z, l, b)) :
    u.cfg = c ∧ u.slate = z ∧ u.mem = l ∧ u.fault.lockout = b := by
  simp only [State.ground, Prod.mk.injEq] at h
  exact h.2

theorem State.recAt_of_ground (h : u.ground = s.ground) (n : IslandNo) (a : Nat) : u.recAt n a = s.recAt n a :=
  congrArg (fun g : Member × Words × Slate × List Host.Cell × Bool => sget (cfgReset g.1) g.2.1 (islBase n + a)) h

theorem State.pers_of_ground (h : u.ground = s.ground) (n : IslandNo) : u.pers n = s.pers n := congrArg persOf (State.recAt_of_ground h n 0)

theorem State.recordOf_of_ground (h : u.ground = s.ground) (n : IslandNo) : u.recordOf n = s.recordOf n := by
  have hm : u.slate.islmem = s.slate.islmem := congrArg (fun g : Member × Words × Slate × List Host.Cell × Bool => g.2.2.1.islmem) h
  unfold State.recordOf
  rw [hm]
  simp only [State.recAt_of_ground h]

theorem State.lockout_of_ground (h : u.ground = s.ground) : u.fault.lockout = s.fault.lockout :=
  congrArg (fun g : Member × Words × Slate × List Host.Cell × Bool => g.2.2.2.2) h

/-- The phase of an island whose turn has come. -/
theorem islandPhase_phased {t o : State} {n : IslandNo} (hg : v.ground = t.ground) (hi : t.isl[n].Carries v.isl[n]) :
    t.Phased o (v.islandPhase o n) n := by
  have hpers := State.pers_of_ground hg n
  have hrun : v.running n = t.running n := by
    unfold State.running
    rw [hi.power]
  refine ⟨(islandPhase_beside v o n).1.trans hg, fun ht ho => ?_, fun ht hr hc hl => ?_, ?_⟩
  · obtain ⟨-, he, hp, -⟩ := dropped_spec v n
    rw [islandPhase_off (hpers.trans ht) ho]
    exact ⟨he, hp⟩
  · rw [← hpers] at ht ⊢
    exact islandPhase_queues ht (hrun.trans hr) (by rwa [State.recordOf_of_ground hg n]) ((State.lockout_of_ground hg).trans hl)
  · by_cases h : v.pers n = .off ∧ o.pers n ≠ .off
    · rw [islandPhase_off h.1 h.2]
      exact (dropped_spec v n).2.2.2.trans hi.request
    · exact ((islandPhase_on h).isl n).request.trans hi.request

theorem islands_phased (t o : State) (n : IslandNo) : t.Phased o (islands.foldl (fun (s : State) (n : IslandNo) => s.islandPhase o n) t) n := by
  refine foldl_islands (Before := fun v => v.ground = t.ground ∧ t.isl[n].Carries v.isl[n]) (After := fun v => t.Phased o v n) n ⟨rfl, .rfl⟩
    (fun v k hk hv => ?_) (fun v hv => islandPhase_phased hv.1 hv.2) (fun v k hk hv => ?_)
  · obtain ⟨hg, hi⟩ := islandPhase_beside v o k
    exact ⟨hg.trans hv.1, hv.2.trans (hi n hk.symm)⟩
  · obtain ⟨hg, hi⟩ := islandPhase_beside v o k
    exact hv.carried hg (hi n hk.symm)

/-! ### The switch -/

/-- The staged values of a slate. -/
def State.stagedAs (s : State) : Staged := stage s.member (sections s.slate.staged.length (s.slate.staged.drop 8)).1

/-- The slate at T_C. -/
def State.slateAtTc (s : State) : Slate :=
  { s.slate with islmem := s.stagedAs.islmem, switched := true, tc := s.tick, id := s.slate.staged.getD 3 0,
                 schema := (s.slate.staged.getD 4 0).extractLsb' 16 16 }

theorem takeSlate_keeps (s : State) (n : IslandNo) :
    s.takeSlate.ground = (s.member, s.stagedAs.cfg, s.slateAtTc, s.mem, s.fault.lockout) ∧
    ∃ w : Word, w = s.takeSlate.recAt n 0x10 ∧ s.takeSlate.isl[n] = Island.requestsOf w s.isl[n] := by
  unfold State.takeSlate
  extract_lets w x v u
  have hu : u.ground = (s.member, s.stagedAs.cfg, s.slateAtTc, s.mem, s.fault.lockout) ∧ u.isl = s.isl := ⟨rfl, rfl⟩
  clear_value u
  obtain ⟨hg, hi⟩ := hu
  have hall : ∀ f : State, f.ground = u.ground ∧ f.isl[n] = Island.requestsOf (u.recAt n 0x10) s.isl[n] →
      f.ground = _ ∧ ∃ w : Word, w = f.recAt n 0x10 ∧ f.isl[n] = Island.requestsOf w s.isl[n] := fun f hf =>
    ⟨hf.1.trans hg, _, (State.recAt_of_ground hf.1 n 0x10).symm, hf.2⟩
  refine hall _ (foldl_islands (Before := fun v => v.ground = u.ground ∧ v.isl[n] = s.isl[n])
    (After := fun v => v.ground = u.ground ∧ v.isl[n] = Island.requestsOf (u.recAt n 0x10) s.isl[n]) n ⟨rfl, by rw [hi]⟩
    (fun v k hk hv => ⟨hv.1, ?_⟩) (fun v hv => ⟨hv.1, ?_⟩) (fun v k hk hv => ⟨hv.1, ?_⟩))
  · rw [State.modIsl_other _ _ _ _ hk.symm]
    exact hv.2
  · rw [State.modIsl_same, State.recAt_of_ground hv.1, hv.2]
  · rw [State.modIsl_other _ _ _ _ hk.symm]
    exact hv.2

/-- A row that is taken off first does not matter to what is committed. -/
theorem settle_takeSlate (s : State) (c : Instr) : (s.settle c).takeSlate.ground = s.takeSlate.ground :=
  (takeSlate_keeps (s.settle c) 0).1.trans (takeSlate_keeps s 0).1.symm

/-- The state of a switch once the islands have had their phase. -/
def State.phasesDone (o : State) : State := islands.foldl (fun (s : State) (n : IslandNo) => s.islandPhase o n) (o.takeSlate.pulse 0x122)

theorem carries_tapEval (s : State) (k : Nat) : s.Carries (s.tapEval k) :=
  carries_foldl _ _ (fun u _ => carries_ite _
    (carries_ite _ (carries_ite _ .rfl (carries_owe u _ _)) (carries_ite _ (carries_owe u _ _) .rfl)) .rfl) s

/-- The wiring of events after the switch. -/
def State.rewired (s o : State) : State := ((s.wire o).rfxApply 0xFFFF).tapEval s.itk

/-- The channels of DMA and of Flint after the switch. -/
def State.restarted (s o : State) : State := ((s.dmaSwitch o).flintSwitch o .host).flintSwitch o .core

/-- The log and a Halt after the switch. -/
def State.reported (s o : State) : State :=
  let s := if s.changedFrom o.cfg 0x6038 2 then s.modFault (fun f => { f with index := 0, logMoved := decide (f.logWord ≠ 0) }) else s
  if s.fault.halt && !s.fault.escalating then s.haltWait else s

theorem State.commitSwitch_eq (o : State) : o.commitSwitch =
    ((((entries.foldl (fun (s : State) (i : Fin 64) => s.orphan o i) o.phasesDone).rewired o).restarted o).reported
      o).roleRow.tanLinkFor.commitCheck := rfl

theorem carries_rewired (s o : State) : s.Carries (s.rewired o) :=
  ((carries_wire s o).trans (carries_rfxApply _ _)).trans (carries_tapEval _ _)

theorem carries_restarted (s o : State) : s.Carries (s.restarted o) :=
  ((carries_dmaSwitch s o).trans (carries_flintSwitch _ o _)).trans (carries_flintSwitch _ o _)

theorem carries_reported (s o : State) : s.Carries (s.reported o) := by
  unfold State.reported
  extract_lets v
  have hv : s.Carries v := carries_ite _ (carries_modFault s _ fun _ => rfl) .rfl
  exact carries_ite _ (hv.trans (carries_haltWait v)) hv

/-- Everything of a switch that follows the phases of the islands carries them. -/
theorem carries_commitSwitch (o : State) : o.phasesDone.Carries o.commitSwitch := by
  rw [State.commitSwitch_eq]
  exact ((((((carries_foldl _ _ (fun u i => carries_orphan u o i) _).trans (carries_rewired _ o)).trans (carries_restarted _ o)).trans
    (carries_reported _ o)).trans (carries_roleRow _)).trans (carries_tanLinkFor _)).trans (State.owesMore_commitCheck _).carries

end Carries

/-! ### The commands of a commit -/

section Commands

variable {s : State}

theorem commitSwitch_phased (o : State) (n : IslandNo) : (o.takeSlate.pulse 0x122).Phased o o.commitSwitch n :=
  have h := carries_commitSwitch o
  (islands_phased _ o n).carried h.ground (h.isl n)

/-- At T_C the staged values come into force, in the device and island by island. -/
theorem commitSwitch_switches (hc : s.clocked = true) (hst : s.slate.st = .committing) (hsw : s.slate.switched = false) :
    Completes .commitSwitch s (fun u =>
      u.cfg = s.stagedAs.cfg ∧ u.slate.id = s.slate.staged.getD 3 0 ∧ u.slate.tc = s.tick ∧ u.slate.switched = true ∧ u.mem = s.mem ∧
      ∀ n : IslandNo,
        (s.takeSlate.pers n = .off → s.pers n ≠ .off → u.isl[n].en = false ∧ u.isl[n].powered = false) ∧
        (s.takeSlate.pers n ≠ .off → s.running n = true → s.takeSlate.recordOf n ≠ s.recordOf n → s.fault.lockout = false →
          (s.takeSlate.pers n = s.pers n → Queues u n .slate (.cmd .apply)) ∧
          (s.takeSlate.pers n ≠ s.pers n → Queues u n .slate (.cmd .prep))) ∧
        u.isl[n].led.reqRung = (u.recAt n 0x10).extractLsb' 0 2) := by
  have hgo : (s.settle .commitSwitch).slate.st = .committing ∧ (!(s.settle .commitSwitch).slate.switched) = true := by
    rw [State.settle_slate]
    exact ⟨hst, by rw [hsw]; rfl⟩
  refine ⟨(s.settle .commitSwitch).commitSwitch, by rw [exec_commitSwitch, execCommitSwitch, State.act_on _ hc, if_pos hgo], ?_⟩
  have hog : (s.settle .commitSwitch).ground = s.ground := rfl
  have htaken := settle_takeSlate s .commitSwitch
  have hisl (n : IslandNo) := (takeSlate_keeps (s.settle .commitSwitch) n).2
  rw [State.settle_isl] at hisl
  generalize s.settle .commitSwitch = o at hog htaken hisl ⊢
  have hpulse := (o.takeSlate.owesMore_pulse 0x122).carries
  have hpi : (o.takeSlate.pulse 0x122).isl = o.takeSlate.isl := (o.takeSlate.owesMore_pulse 0x122).isl
  have hph := commitSwitch_phased o
  have htg := hpulse.ground.trans htaken
  generalize o.takeSlate.pulse 0x122 = t at hpi hph htg
  have hg := ((hph 0).ground.trans htg).trans (takeSlate_keeps s 0).1
  obtain ⟨hcfg, hslate, hmem, -⟩ := State.ground_parts hg
  refine ⟨hcfg, by rw [hslate]; rfl, by rw [hslate]; rfl, by rw [hslate]; rfl, hmem, fun n => ?_⟩
  obtain ⟨w, hw, hi⟩ := hisl n
  have hrun : t.running n = s.running n := by
    unfold State.running
    rw [hpi, hi]
    rfl
  obtain ⟨-, -, -, hlock⟩ := State.ground_parts (htg.trans (takeSlate_keeps s 0).1)
  have hrec : o.commitSwitch.recAt n 0x10 = w := (State.recAt_of_ground (((hph n).ground.trans htg).trans htaken.symm) n 0x10).trans hw.symm
  rw [← State.pers_of_ground htg n, ← State.pers_of_ground hog n, ← State.recordOf_of_ground htg n, ← State.recordOf_of_ground hog n,
    ← hrun, ← hlock, hrec]
  refine ⟨(hph n).off, (hph n).record, (hph n).request.trans ?_⟩
  rw [hpi, hi]
  rfl

/-! ### The full pass and the end -/

theorem State.passPlan_unled (l : List IslandNo) : ∀ (s : State) (free : Nat), (s.passPlan free l).unled = s.unled := by
  induction l with
  | nil => exact fun _ _ => rfl
  | cons n l ih => exact fun s free => (ih _ _).trans (s.admitWithin_unled n .slate _)

theorem State.fullPass_unled (s : State) : s.fullPass.unled = s.unled := (State.sendRungs_unled _).trans (State.passPlan_unled _ s _)

/-- A row that is not owed now does nothing. -/
theorem timed_idle (hc : s.clocked = true) {c : Instr} (hd : s.isDue c = false) (f : State → State) : s.timed c f = .next s := by
  rw [State.timed, State.act_on _ hc, if_neg (by rw [hd]; exact Bool.false_ne_true)]

theorem State.unled_slate {u : State} (h : u.unled = s.unled) : u.slate = s.slate := (congrArg State.slate h :)

/-- The full pass makes the arbiter BUSY until the commit ends, 512 tk later (R60, R119). -/
theorem fullPass_passes (hc : s.clocked = true) (hd : s.isDue .fullPass = true) (hst : s.slate.st = .committing)
    (hsw : s.slate.switched = true) (hp : s.slate.passed = false) :
    Completes .fullPass s (fun u =>
      u.slate = { s.slate with passed := true } ∧ u.busy = true ∧ (s.tick + 512, .commitComplete) ∈ u.due ∧ u.cfg = s.cfg) := by
  have hgo : (s.settle .fullPass).slate.st = .committing ∧ (s.settle .fullPass).slate.switched ∧ !(s.settle .fullPass).slate.passed := by
    rw [State.settle_slate, hp]
    exact ⟨hst, hsw, rfl⟩
  refine ⟨(({ (s.settle .fullPass).fullPass with busy := true } : State).modSlate (fun z => { z with passed := true })).owe 512 .commitComplete,
    by rw [exec_fullPass, execFullPass, State.timed, State.act_on _ hc, if_pos hd, if_pos hgo], ?_⟩
  have hun := (s.settle .fullPass).fullPass_unled
  have hslate : (s.settle .fullPass).fullPass.slate = s.slate := (State.unled_slate hun).trans (State.settle_slate _ _)
  have htick : (s.settle .fullPass).fullPass.tick = s.tick := (State.unled_tick hun).trans (State.settle_tick _ _)
  have hcfg : (s.settle .fullPass).fullPass.cfg = s.cfg := (State.unled_cfg hun).trans (State.settle_cfg _ _)
  generalize (s.settle .fullPass).fullPass = v at hslate htick hcfg ⊢
  have hz : (({ v with busy := true } : State).modSlate (fun z => { z with passed := true })).slate = { s.slate with passed := true } := by
    rw [← hslate]
    rfl
  have hb : (({ v with busy := true } : State).modSlate (fun z => { z with passed := true })).busy = true := rfl
  have hrest : (({ v with busy := true } : State).modSlate (fun z => { z with passed := true })).tick = s.tick ∧
      (({ v with busy := true } : State).modSlate (fun z => { z with passed := true })).cfg = s.cfg := ⟨htick, hcfg⟩
  generalize (({ v with busy := true } : State).modSlate (fun z => { z with passed := true })) = x at hz hb hrest ⊢
  have hmem := State.mem_owe_self x 512 .commitComplete
  rw [hrest.1] at hmem
  rw [State.owe_eq] at hmem ⊢
  exact ⟨hz, hb, hmem, hrest.2⟩

/-- Taking off a row does not change whether a row of another command is owed. -/
theorem State.settle_any {c d : Instr} (h : c ≠ d) (s : State) :
    (s.settle c).due.any (fun e => decide (e.2 = d)) = s.due.any (fun e => decide (e.2 = d)) := by
  have herase (p : Tick × Instr → Bool) (hp : ∀ e, p e = true → e.2 = c) (l : List (Tick × Instr)) :
      (l.eraseP p).any (fun e => decide (e.2 = d)) = l.any (fun e => decide (e.2 = d)) := by
    induction l with
    | nil => rfl
    | cons e l ih =>
      by_cases he : p e = true
      · rw [List.eraseP_cons_of_pos he, List.any_cons, hp e he, decide_eq_false h, Bool.false_or]
      · rw [List.eraseP_cons_of_neg he, List.any_cons, ih, List.any_cons]
  unfold State.settle
  dsimp only
  split
  · exact herase _ (fun e he => by simp_all) _
  · exact herase _ (fun e he => by simpa using he) _

/-- The commit ends with an empty session; BUSY stays where an admission of the arbiter still runs (R60, R114). -/
theorem commitComplete_ends (hc : s.clocked = true) (hd : s.isDue .commitComplete = true) (hst : s.slate.st = .committing)
    (hp : s.slate.passed = true) (hk : s.pow.k2due = false) :
    Completes .commitComplete s (fun u =>
      u.slate.st = .empty ∧ u.slate.owner = none ∧ u.slate.committed = true ∧ u.slate.authed = (s.slate.staged.getD 1 0).getLsbD 0 ∧
      u.slate.ctick = s.slate.tc ∧ u.slate.rateMatch = rateMatch (fld (s.slate.staged.getD 5 0) 0 18) s.rate.toNat ∧
      u.busy = s.due.any (fun e => decide (e.2 = Instr.admissionComplete)) ∧ u.cfg = s.cfg) := by
  have hgo : (s.settle .commitComplete).slate.st = .committing ∧ (s.settle .commitComplete).slate.passed := by
    rw [State.settle_slate]
    exact ⟨hst, hp⟩
  refine ⟨_, by rw [exec_commitComplete, execCommitComplete, State.timed, State.act_on _ hc, if_pos hd, if_pos hgo], ?_⟩
  have hwake (u : State) (hu : u.pow = s.pow) : u.k2Wake 0 = u := if_neg (by rw [hu, hk]; exact Bool.false_ne_true)
  rw [hwake]
  · exact ⟨rfl, rfl, rfl, rfl, rfl, rfl, State.settle_any (by simp) s, rfl⟩
  · rfl

/-! ### COMMIT and HOLDCLR -/

/-- The owner's command goes through. -/
theorem slateCmd_owner {m : Master} (h : m = .link ∨ ∃ t, m = .thread t) (ho : s.slate.owner = some m) (f : State → State) :
    s.slateCmd m false f = f s := by
  rcases h with rfl | ⟨t, rfl⟩
  · exact if_pos (.inr (.inl ho))
  · exact if_pos (.inr ho)

/-- A COMMIT that is taken owes T_C within two ticks a word (R118). -/
theorem slateCommit_accepted (hc : s.clocked = true) {m : Master} (hm : m = .link ∨ ∃ t, m = .thread t) (ho : s.slate.owner = some m)
    (hst : s.slate.st = .verified) (hh : s.fault.halt = false) (hl : s.fault.lockout = false) :
    Completes (.slateCommit m) s (fun u =>
      u = { s with due := u.due, slate := { s.slate with st := .committing, switched := false, passed := false, badcmd := false } } ∧
      (s.tick + BitVec.ofNat 64 (2 * s.slate.staged.length), .commitSwitch) ∈ u.due) := by
  refine ⟨_, by rw [exec_slateCommit, execSlateCommit, State.act_on _ hc], ?_⟩
  have hverified : (s.settle (.slateCommit m)).slate.st = .verified := hst
  have hcalm : ¬ ((s.settle (.slateCommit m)).fault.halt || (s.settle (.slateCommit m)).fault.lockout) = true := by
    rw [State.settle_fault, hh, hl]
    exact Bool.false_ne_true
  rw [slateCmd_owner (s := s.settle _) hm ho, State.slateCommit, if_pos hverified, if_neg hcalm]
  exact ⟨State.owe_eq .., State.mem_owe_self _ (2 * s.slate.staged.length) .commitSwitch⟩

/-- A COMMIT in a Halt or a Lockout is refused (R114). -/
theorem slateCommit_refused (hc : s.clocked = true) {m : Master} (hm : m = .link ∨ ∃ t, m = .thread t) (ho : s.slate.owner = some m)
    (hst : s.slate.st = .verified) (hf : s.fault.halt = true ∨ s.fault.lockout = true) :
    Completes (.slateCommit m) s (fun u => u = { s with due := u.due, slate := { s.slate with err := 15, badcmd := false } }) := by
  refine ⟨_, by rw [exec_slateCommit, execSlateCommit, State.act_on _ hc], ?_⟩
  have hverified : (s.settle (.slateCommit m)).slate.st = .verified := hst
  have hfault : ((s.settle (.slateCommit m)).fault.halt || (s.settle (.slateCommit m)).fault.lockout) = true := by
    rw [State.settle_fault]
    simpa using hf
  rw [slateCmd_owner (s := s.settle _) hm ho, State.slateCommit, if_pos hverified, if_pos hfault]
  rfl

theorem State.rfxApply_isl (s : State) (mask : BitVec 16) : (s.rfxApply mask).isl = s.isl :=
  foldl_islands_keep (P := fun v => v.isl = s.isl) rfl fun _ _ hv => ite_keeps (P := fun u : State => u.isl = s.isl) _ hv hv

/-- HOLDCLR ends the orphaned holds of the islands that it names, and of no other (R122). -/
theorem holdclr_clears (hc : s.clocked = true) (m : Master) (w : Word) :
    Completes (.holdclr m w) s (fun u => ∀ n : IslandNo,
      (w.getLsbD n.val = true → u.isl[n].orphForce = false ∧ u.isl[n].orphSafe = false) ∧
      (w.getLsbD n.val = false → u.isl[n].orphForce = s.isl[n].orphForce ∧ u.isl[n].orphSafe = s.isl[n].orphSafe)) := by
  refine ⟨s.holdclr w, by rw [exec_holdclr, execHoldclr, State.act_on _ hc], fun n => ?_⟩
  unfold State.holdclr
  rw [State.rfxApply_isl]
  have hother (v : State) (k : IslandNo) (f : Island → Island) (hk : k ≠ n) :
      (if w.getLsbD k.val then v.modIsl k f else v).isl[n] = v.isl[n] := by
    split
    · exact v.modIsl_other k n f hk.symm
    · rfl
  refine foldl_islands (Before := fun v => v.isl[n] = s.isl[n]) (After := fun v =>
    (w.getLsbD n.val = true → v.isl[n].orphForce = false ∧ v.isl[n].orphSafe = false) ∧
    (w.getLsbD n.val = false → v.isl[n].orphForce = s.isl[n].orphForce ∧ v.isl[n].orphSafe = s.isl[n].orphSafe)) n rfl
    (fun v k hk hv => (hother v k _ hk).trans hv) (fun v hv => ⟨fun hw => ?_, fun hw => ?_⟩) (fun v k hk hv => by rw [hother v k _ hk]; exact hv)
  · rw [if_pos hw, State.modIsl_same]
    exact ⟨rfl, rfl⟩
  · rw [if_neg (by rw [hw]; exact Bool.false_ne_true), hv]
    exact ⟨rfl, rfl⟩

end Commands

/-- Settles O53: COMMIT, the switch, the full pass, the end and HOLDCLR, each by its own lemma; what has been committed is carried through
the steps of the switch. -/
theorem slateCommits : Obligations.SlateCommits := by
  unfold Obligations.SlateCommits
  intro s hc z
  refine ⟨fun m hm ho hst => ⟨fun hh hl => slateCommit_accepted hc hm ho hst hh hl, fun hf => slateCommit_refused hc hm ho hst hf⟩,
    fun hst hsw => commitSwitch_switches hc hst hsw, fun hd hst hsw hp => fullPass_passes hc hd hst hsw hp,
    fun hd hst hp hk => commitComplete_ends hc hd hst hp hk, fun c hmem hd => ?_, fun m w => holdclr_clears hc m w⟩
  rcases List.mem_cons.1 hmem with rfl | hmem
  · exact (exec_fullPass s).trans (timed_idle hc hd _)
  · obtain rfl := List.mem_singleton.1 hmem
    exact (exec_commitComplete s).trans (timed_idle hc hd _)

end Sys2Proof.Machine

/-! # The link: CRC, headers, frames -/

namespace Sys2Proof.Machine

/-! ## CRC-32C (O9) -/

/-- The step of R71 that takes one bit: the polynomial over the bits, the first at the top. -/
def crcShift (c : Word) (b : Bool) : Word := if c.msb != b then (c <<< 1) ^^^ 0x1EDC6F41 else c <<< 1

/-- The same step with the register's bits in reverse. -/
def crcShiftReflected (c : Word) (b : Bool) : Word := if c.getLsbD 0 != b then (c >>> 1) ^^^ 0x82F63B78 else c >>> 1

theorem reverse_xor {w : Nat} (x y : BitVec w) : (x ^^^ y).reverse = x.reverse ^^^ y.reverse := by
  ext i hi
  simp [BitVec.getElem_reverse, BitVec.getMsbD_xor]

theorem reverse_shiftLeft_one {w : Nat} (x : BitVec w) : (x <<< 1).reverse = x.reverse >>> 1 := by
  ext i hi
  rw [BitVec.getElem_reverse, BitVec.getMsbD_shiftLeft, BitVec.getElem_ushiftRight, BitVec.getLsbD_reverse, Nat.add_comm]

/-- Reversed, the register goes through the reflected step. -/
theorem reverse_crcShift (c : Word) (b : Bool) : (crcShift c b).reverse = crcShiftReflected c.reverse b := by
  have hpoly : (0x1EDC6F41 : Word).reverse = 0x82F63B78 := by decide +kernel
  have hlsb : c.reverse.getLsbD 0 = c.msb := by rw [BitVec.getLsbD_reverse, BitVec.msb]
  unfold crcShift crcShiftReflected
  rw [hlsb]
  split
  · rw [reverse_xor, reverse_shiftLeft_one, hpoly]
  · exact reverse_shiftLeft_one c

theorem reverse_foldl_crcShift (l : List Bool) (c : Word) : (l.foldl crcShift c).reverse = l.foldl crcShiftReflected c.reverse := by
  induction l generalizing c with
  | nil => rfl
  | cons b l ih => rw [List.foldl_cons, ih, reverse_crcShift, List.foldl_cons]

/-- A step of the register that has taken in the bits of y: its first bit acts, and the others stay to come. -/
theorem crcBit_xor (c y : Word) : crcBit (c ^^^ y) = crcShiftReflected c (y.getLsbD 0) ^^^ (y >>> 1) := by
  unfold crcBit crcShiftReflected
  rw [BitVec.getLsbD_xor, BitVec.ushiftRight_xor_distrib]
  split
  · rw [BitVec.xor_assoc, BitVec.xor_comm (y >>> 1), BitVec.xor_assoc]
  · rfl

theorem iterate_crcBit_xor (k : Nat) (c y : Word) :
    crcBit^[k] (c ^^^ y) = ((List.range k).map (y.getLsbD ·)).foldl crcShiftReflected c ^^^ (y >>> k) := by
  induction k with
  | zero => simp
  | succ k ih =>
    rw [Function.iterate_succ_apply', ih, crcBit_xor, List.range_succ, List.map_append, List.foldl_append]
    simp [BitVec.shiftRight_add]

/-- A byte goes through the register bit by bit, the least significant first. -/
theorem crcByte_eq_foldl (c : Word) (b : Byte) : crcByte c b = ((List.range 8).map (b.getLsbD ·)).foldl crcShiftReflected c := by
  have hbits : (List.range 8).map ((b.setWidth 32).getLsbD ·) = (List.range 8).map (b.getLsbD ·) := by
    refine List.map_congr_left fun k hk => ?_
    rw [BitVec.getLsbD_setWidth, decide_eq_true (by have := List.mem_range.1 hk; omega), Bool.true_and]
  have hrest : b.setWidth 32 >>> 8 = 0#32 := by
    apply BitVec.eq_of_toNat_eq
    have := b.isLt
    simp [Nat.shiftRight_eq_div_pow]
    omega
  have h := iterate_crcBit_xor 8 c (b.setWidth 32)
  rw [hbits, hrest] at h
  exact h.trans (BitVec.xor_zero)

theorem foldl_crcByte (l : List Byte) (c : Word) :
    l.foldl crcByte c = (l.flatMap (fun b => (List.range 8).map (b.getLsbD ·))).foldl crcShiftReflected c := by
  induction l generalizing c with
  | nil => rfl
  | cons b l ih => rw [List.foldl_cons, List.flatMap_cons, List.foldl_append, ← crcByte_eq_foldl, ih]

/-- The CRC word by the polynomial of R71. -/
theorem crc32cBytes_eq_shift (l : List Byte) : crc32cBytes l =
    ((l.flatMap (fun b => (List.range 8).map (b.getLsbD ·))).foldl crcShift 0xFFFFFFFF).reverse ^^^ 0xFFFFFFFF := by
  have hones : (0xFFFFFFFF : Word).reverse = 0xFFFFFFFF := by decide +kernel
  rw [crc32cBytes, foldl_crcByte, reverse_foldl_crcShift, hones]

/-- The bytes of a word are its fields. -/
theorem wordByte_eq_extractLsb' (w : Word) (k : Nat) : wordByte w k = w.extractLsb' (8 * (3 - k)) 8 := rfl

theorem wordsBytes_eq_flatMap (l : List Word) : wordsBytes l = l.flatMap (fun w =>
    [w.extractLsb' 24 8, w.extractLsb' 16 8, w.extractLsb' 8 8, w.extractLsb' 0 8]) := by
  induction l with
  | nil => rfl
  | cons w l ih => rw [wordsBytes, ih]; rfl

/-- Settles O9: the reflected register is the reverse of R71's, byte by byte; the check value is computed. -/
theorem crcIsCastagnoli : Obligations.CrcIsCastagnoli :=
  ⟨crc32cBytes_eq_shift, by decide +kernel, fun l => congrArg crc32cBytes (wordsBytes_eq_flatMap l)⟩

/-! ## Faults that follow each other on a tick -/

/-- g takes records to records that have the same source, master, kind and tick, and the same number unless a fault of source src on tick
t, which has the lower source, comes before them (R294). -/
def Renumbers (t : Tick) (src : Byte) (g : FaultRec → FaultRec) : Prop :=
  ∀ x, (g x).src = x.src ∧ (g x).mid = x.mid ∧ (g x).kind = x.kind ∧ (g x).came = x.came ∧
    (¬ (x.came = t ∧ src < x.src) → (g x).seq = x.seq)

theorem Renumbers.id (t : Tick) (src : Byte) : Renumbers t src id := fun _ => ⟨rfl, rfl, rfl, rfl, fun _ => rfl⟩

theorem Renumbers.comp {t : Tick} {src : Byte} {g h : FaultRec → FaultRec} (hg : Renumbers t src g) (hh : Renumbers t src h) :
    Renumbers t src (g ∘ h) := by
  intro x
  obtain ⟨hsrc, hmid, hkind, hcame, hseq⟩ := hh x
  obtain ⟨gsrc, gmid, gkind, gcame, gseq⟩ := hg (h x)
  refine ⟨gsrc.trans hsrc, gmid.trans hmid, gkind.trans hkind, gcame.trans hcame, fun hx => ?_⟩
  rw [hcame, hsrc] at gseq
  exact (gseq hx).trans (hseq hx)

/-- The records of higher sources on the tick move up by one (R294). -/
theorem later_renumbers (t : Tick) (src : Byte) : ∃ g, Renumbers t src g ∧ later t src = List.map g := by
  refine ⟨fun r => if r.came = t ∧ src < r.src then { r with seq := r.seq + 1 } else r, fun x => ?_, rfl⟩
  dsimp only
  split
  case isTrue h => exact ⟨rfl, rfl, rfl, rfl, fun hn => absurd h hn⟩
  case isFalse => exact ⟨rfl, rfl, rfl, rfl, fun _ => rfl⟩

/-- A capture that is taken over changes the CAPT mark alone (R294). -/
theorem uncapture_renumbers (q : BitVec 16) (t : Tick) (src : Byte) : ∃ g, Renumbers t src g ∧ uncapture q = List.map g := by
  refine ⟨fun r => if r.seq = q then { r with capt := false } else r, fun x => ?_, rfl⟩
  dsimp only
  split <;> exact ⟨rfl, rfl, rfl, rfl, fun _ => rfl⟩

/-- First-error capture leaves the records that wait, but for their CAPT marks (R293, R294). -/
theorem Collector.capture_renumbers (f : Collector) (r : FaultRec) (t : Tick) (src : Byte) :
    ∃ g, Renumbers t src g ∧ (f.capture r).1.dq = f.dq.map g ∧ (f.capture r).1.react = f.react.map g := by
  have keeps : ∃ g, Renumbers t src g ∧ f.dq = f.dq.map g ∧ f.react = f.react.map g :=
    ⟨id, .id t src, (List.map_id _).symm, (List.map_id _).symm⟩
  unfold Collector.capture
  split
  · exact keeps
  · split
    · obtain ⟨g, hg, hmap⟩ := uncapture_renumbers f.fe.seq t src
      exact ⟨g, hg, congrFun hmap _, congrFun hmap _⟩
    · exact keeps

/-- The collector d is c with one more record, of a fault of source src on tick t, that waits for a decision or for its reaction behind
those that stood (R290, R292, R294, R295). -/
def Collector.Takes (c d : Collector) (t : Tick) (src : Byte) : Prop :=
  d.seq = c.seq + 1 ∧ ∃ g r, Renumbers t src g ∧ r.src = src ∧
    ((d.dq = c.dq.map g ++ [r] ∧ d.react = c.react.map g) ∨ (d.dq = c.dq.map g ∧ d.react = c.react.map g ++ [r]))

/-- The collector takes the record of a fault that reaches it. -/
theorem State.raiseAt_takes (s : State) (stamp : Tick) (src m : Byte) (typ : BitVec 4) (kind : Byte) (a dt : Word) (inj : Bool) :
    s.fault.Takes (s.raiseAt stamp src m typ kind a dt inj).fault s.tick src := by
  unfold State.raiseAt
  split
  rename_i f q hf
  obtain ⟨g, hg, hlater⟩ := later_renumbers s.tick src
  have hnumber : (s.fault.number s.tick src).1 = f := congrArg Prod.fst hf
  have hdq : f.dq = s.fault.dq.map g := by rw [← hnumber, ← hlater]; rfl
  have hreact : f.react = s.fault.react.map g := by rw [← hnumber, ← hlater]; rfl
  have hseq : f.seq = s.fault.seq + 1 := by rw [← hnumber]; rfl
  extract_lets mw ha queued grace base r first
  split
  rename_i s1 _ f' r' hc
  obtain ⟨g', hg', hdq', hreact'⟩ := f.capture_renumbers r s.tick src
  obtain ⟨b, hb⟩ := f.capture_record r
  have hseq' := (f.capture_seq r).1
  rw [hc] at hdq' hreact' hseq' hb
  rw [hdq, List.map_map] at hdq'
  rw [hreact, List.map_map] at hreact'
  have hsrc : r'.src = src := by rw [show r' = { r with capt := b } from hb]
  have hnum : f'.seq = s.fault.seq + 1 := hseq'.trans hseq
  split
  · rw [State.owe_eq]
    exact ⟨hnum, _, r', hg'.comp hg, hsrc, .inl ⟨congrArg (· ++ [r']) hdq', hreact'⟩⟩
  · rw [State.owe_eq]
    exact ⟨hnum, _, r', hg'.comp hg, hsrc, .inr ⟨hdq', congrArg (· ++ [r']) hreact'⟩⟩

/-- A fault that the collector holds is held with its number when one of no lower source follows it (R294). -/
theorem Raises.raiseAt {s u : State} {src m kind : Byte} (h : Raises s u src m kind) (stamp : Tick) {src' : Byte} (hle : ¬ src' < src)
    (m' : Byte) (typ : BitVec 4) (kind' : Byte) (a dt : Word) (inj : Bool) :
    Raises s (u.raiseAt stamp src' m' typ kind' a dt inj) src m kind := by
  obtain ⟨x, hx, hsrc, hmid, hkind, hseq, hcame⟩ := h
  obtain ⟨-, g, r, hg, -, hc⟩ := u.raiseAt_takes stamp src' m' typ kind' a dt inj
  obtain ⟨gsrc, gmid, gkind, gcame, gseq⟩ := hg x
  have hnum : (g x).seq = x.seq := gseq fun hlt => hle (hsrc ▸ hlt.2)
  refine ⟨g x, ?_, gsrc.trans hsrc, gmid.trans hmid, gkind.trans hkind, hnum.trans hseq, gcame.trans hcame⟩
  have hmem : g x ∈ u.fault.react.map g ++ u.fault.dq.map g := by
    rw [← List.map_append]
    exact List.mem_map_of_mem hx
  rw [List.mem_append] at hmem ⊢
  rcases hc with ⟨hd, hr⟩ | ⟨hd, hr⟩ <;> rw [hd, hr]
  · exact hmem.imp_right (List.mem_append_left _)
  · exact hmem.imp_left (List.mem_append_left _)

/-- Faults of a higher source on a tick are as many after one of a lower source. -/
theorem State.raiseAt_above (s : State) (stamp : Tick) {src src' : Byte} (hle : ¬ src' < src) (m : Byte) (typ : BitVec 4) (kind : Byte)
    (a dt : Word) (inj : Bool) :
    (s.raiseAt stamp src m typ kind a dt inj).fault.above s.tick src' = s.fault.above s.tick src' := by
  obtain ⟨-, g, r, hg, hsrc, hc⟩ := s.raiseAt_takes stamp src m typ kind a dt inj
  have hcount (l : List FaultRec) : (l.map g).countP (fun r => decide (r.came = s.tick) && decide (src' < r.src)) =
      l.countP (fun r => decide (r.came = s.tick) && decide (src' < r.src)) := by
    rw [List.countP_map]
    congr 1
    funext x
    obtain ⟨gsrc, -, -, gcame, -⟩ := hg x
    rw [Function.comp_apply, gsrc, gcame]
  have hone : [r].countP (fun r => decide (r.came = s.tick) && decide (src' < r.src)) = 0 := by simp [hsrc, hle]
  unfold Collector.above
  rcases hc with ⟨hd, hr⟩ | ⟨hd, hr⟩ <;> rw [hd, hr] <;> simp only [List.countP_append, hcount, hone, Nat.add_zero]

/-- The next fault of a higher source on the tick takes the number behind it (R294, R295). -/
theorem State.raiseAt_nextSeq (s : State) (stamp : Tick) {src src' : Byte} (hle : ¬ src' < src) (m : Byte) (typ : BitVec 4) (kind : Byte)
    (a dt : Word) (inj : Bool) : (s.raiseAt stamp src m typ kind a dt inj).nextSeq src' =
      State.nextSeq { s with fault := { s.fault with seq := s.fault.seq + 1 } } src' := by
  have habove (u : State) : u.nextSeq src' = u.fault.seq - BitVec.ofNat 16 (u.fault.above u.tick src') := by
    rw [State.nextSeq, Collector.above, List.countP_eq_length_filter]
    simp
  obtain ⟨d, f, hu⟩ := s.raiseAt_eq stamp src m typ kind a dt inj
  have htick : (s.raiseAt stamp src m typ kind a dt inj).tick = s.tick := by rw [hu]
  rw [habove, habove, htick, s.raiseAt_above stamp hle, (s.raiseAt_takes stamp src m typ kind a dt inj).1]
  rfl

/-! ## Bad frames (R94) -/

/-- The link after one more frame with a SYNC, FORMAT or CRC error: at DOWN_LIMIT the count starts again, and outside bring-up mode the
link is lost (R66, R94). -/
def Link.counted (l : Link) : Link :=
  if l.bad + 1 < l.downLimit.toNat then { l with bad := l.bad + 1 }
  else if l.lmode then { l with bad := 0, evDown := satAdd l.evDown 1 }
  else { l with bad := 0, evDown := satAdd l.evDown 1, st := .untrained, retrain := false, cur := none, tap0 := 0, tap1 := 0 }

section Counted

variable (l : Link)

/-- The count of bad frames and the loss of the link are all that a bad frame changes of the link. -/
theorem Link.counted_eq : l.counted = { l with
    bad := l.counted.bad, evDown := l.counted.evDown, st := l.counted.st, retrain := l.counted.retrain, cur := l.counted.cur,
    tap0 := l.counted.tap0, tap1 := l.counted.tap1 } := by
  unfold Link.counted
  split
  · rfl
  · split <;> rfl

theorem Link.counted_below (h : l.bad + 1 < l.downLimit.toNat) : l.counted = { l with bad := l.bad + 1 } := if_pos h

theorem Link.counted_limit (h : ¬ l.bad + 1 < l.downLimit.toNat) : l.counted.bad = 0 ∧ l.counted.evDown = satAdd l.evDown 1 := by
  unfold Link.counted
  rw [if_neg h]
  split <;> exact ⟨rfl, rfl⟩

/-- Below the limit and in bring-up mode the link and its frame in progress stay (R66, R94). -/
theorem Link.counted_stays : l.counted.st = (if l.bad + 1 < l.downLimit.toNat ∨ l.lmode then l.st else .untrained) ∧
    l.counted.cur = (if l.bad + 1 < l.downLimit.toNat ∨ l.lmode then l.cur else none) := by
  unfold Link.counted
  by_cases hb : l.bad + 1 < l.downLimit.toNat
  · simp [hb]
  · by_cases hm : l.lmode = true <;> simp [hb, hm]

end Counted

/-- Below DOWN_LIMIT a bad frame is counted (R94). -/
theorem State.badFrame_below {s : State} (h : s.link.bad + 1 < s.link.downLimit.toNat) (hdr : Word) (t : Tick) :
    s.badFrame hdr t = { s with link := s.link.counted } := by
  have hno : ¬ s.link.downLimit.toNat ≤ s.link.bad + 1 := Nat.not_le.2 h
  rw [Link.counted_below _ h]
  exact if_neg hno

/-- The loss of the link takes rows of the link off the calendar, and leaves no frame in progress (R66). -/
theorem State.untrain_eq (s : State) : ∃ d, s.untrain =
    { s with due := d, link := { s.link with st := .untrained, retrain := false, cur := none } } := ⟨_, rfl⟩

/-- At DOWN_LIMIT a bad frame raises LINK_DOWN (R94). -/
theorem State.badFrame_limit {s : State} (h : ¬ s.link.bad + 1 < s.link.downLimit.toNat) (hdr : Word) (t : Tick) :
    ∃ d, s.badFrame hdr t = { s with
      due := d, fault := ((s.modLink (fun l => { l with bad := l.bad + 1 })).linkFault 0x04 hdr t).fault, link := s.link.counted } := by
  have hle : s.link.downLimit.toNat ≤ s.link.bad + 1 := Nat.not_lt.1 h
  have hrun : s.badFrame hdr t =
      (let u := ((s.modLink (fun l => { l with bad := l.bad + 1 })).linkFault 0x04 hdr t).modLink (fun l =>
        { l with bad := 0, evDown := satAdd l.evDown 1 })
      if u.link.lmode then u else u.untrain.modLink (fun l => { l with tap0 := 0, tap1 := 0 })) := if_pos hle
  obtain ⟨d, c, hu⟩ : ∃ d c, (s.modLink (fun l => { l with bad := l.bad + 1 })).linkFault 0x04 hdr t =
    { s.modLink (fun l => { l with bad := l.bad + 1 }) with due := d, fault := c } := State.raiseAt_eq ..
  rw [hrun, hu]
  unfold Link.counted
  rw [if_neg h]
  by_cases hm : s.link.lmode = true
  · rw [if_pos hm]
    exact ⟨d, if_pos hm⟩
  · rw [if_neg hm]
    obtain ⟨e, he⟩ := State.untrain_eq
      { s with due := d, fault := c, link := { s.link with bad := 0, evDown := satAdd s.link.evDown 1 } }
    refine ⟨e, (if_neg hm).trans ?_⟩
    exact congrArg (State.modLink · fun l => { l with tap0 := 0, tap1 := 0 }) he

/-- A frame that is found bad: its fault is raised, it is counted, and at DOWN_LIMIT LINK_DOWN follows on the same tick (R93, R94). -/
theorem State.linkFault_badFrame (s : State) {src : Byte} (hsrc : ¬ 0x04 < src) (hdr : Word) (t : Tick) :
    let u := (s.linkFault src hdr t).badFrame hdr t
    u = { s with due := u.due, fault := u.fault, link := s.link.counted } ∧ Raises s u src 0x00 0 ∧
    (¬ s.link.bad + 1 < s.link.downLimit.toNat →
      Raises { s with fault := { s.fault with seq := s.fault.seq + 1 } } u 0x04 0x00 0) := by
  have hfirst : Raises s (s.linkFault src hdr t) src 0x00 0 := State.raiseAt_raises ..
  have hnext : (s.linkFault src hdr t).nextSeq 0x04 = _ := s.raiseAt_nextSeq t hsrc (mid .link) 4 0 hdr hdr false
  obtain ⟨d, c, hv⟩ : ∃ d c, s.linkFault src hdr t = { s with due := d, fault := c } := State.raiseAt_eq ..
  have hlink : (s.linkFault src hdr t).link = s.link := by rw [hv]
  have htick : (s.linkFault src hdr t).tick = s.tick := by rw [hv]
  by_cases h : s.link.bad + 1 < s.link.downLimit.toNat
  · have hu := State.badFrame_below (s := s.linkFault src hdr t) (hlink.symm ▸ h) hdr t
    rw [hlink] at hu
    refine ⟨?_, hfirst.congr (congrArg State.fault hu :), fun hn => absurd h hn⟩
    rw [hu, hv]
  · obtain ⟨e, hu⟩ := State.badFrame_limit (s := s.linkFault src hdr t) (hlink.symm ▸ h) hdr t
    have hf := (congrArg State.fault hu :)
    rw [hlink] at hu
    refine ⟨?_, ?_, fun _ => ?_⟩
    · rw [hu, hv]
    · have hkept : Raises s ((s.linkFault src hdr t).modLink (fun l => { l with bad := l.bad + 1 })) src 0x00 0 := hfirst.congr rfl
      exact (hkept.raiseAt t hsrc (mid .link) 4 0 hdr hdr false).congr hf
    · obtain ⟨r, hr, hs, hm, hk, hq, hc⟩ : Raises (s.linkFault src hdr t) ((s.linkFault src hdr t).badFrame hdr t) 0x04 0x00 0 :=
        Raises.congr (State.raiseAt_raises ((s.linkFault src hdr t).modLink (fun l => { l with bad := l.bad + 1 })) ..) hf
      exact ⟨r, hr, hs, hm, hk, hq.trans hnext, hc.trans htick⟩

/-! ## Headers -/

/-- u is s after a header that was not recognised: a SYNC error, which the deframer does not hunt behind, and one more bad frame (R65,
R93, R94, R97). -/
def SyncMissed (s u : State) (hdr : Word) : Prop :=
  u.link.errSync = satAdd s.link.errSync 1 ∧ u.link.deaf = true ∧ Raises s u 0x03 0x00 0 ∧
  (s.link.bad + 1 < s.link.downLimit.toNat → u.link.bad = s.link.bad + 1 ∧ u.link.evDown = s.link.evDown) ∧
  (¬ s.link.bad + 1 < s.link.downLimit.toNat → u.link.bad = 0 ∧ u.link.evDown = satAdd s.link.evDown 1 ∧
    Raises { s with fault := { s.fault with seq := s.fault.seq + 1 } } u 0x04 0x00 0) ∧
  u.link.st = (if s.link.bad + 1 < s.link.downLimit.toNat ∨ s.link.lmode then .ready else .untrained) ∧
  u.link.cur = (if s.link.bad + 1 < s.link.downLimit.toNat ∨ s.link.lmode then s.link.cur else none) ∧
  (s.link.loopAct = 1 → u.link.twin = [hdr]) ∧ (s.link.loopAct ≠ 1 → u.link.twin = s.link.twin)

/-- The link with a SYNC error, before it counts as a bad frame. -/
def Link.missed (l : Link) (now : Tick) (hdr : Word) : Link := { l with
  errSync := satAdd l.errSync 1, deaf := true, twin := if l.loopAct = 1 then [hdr] else l.twin,
  twinAt := if l.loopAct = 1 then now + 8 else l.twinAt }

theorem State.syncError_eq (s : State) (hdr : Word) :
    s.syncError hdr = (({ s with link := s.link.missed s.tick hdr } : State).linkFault 0x03 hdr s.tick).badFrame hdr s.tick := by
  unfold State.syncError Link.missed
  by_cases h : s.link.loopAct = 1
  · simp only [if_pos h]
    rfl
  · simp only [if_neg h]
    rfl

/-- A SYNC error on a link that is READY. -/
theorem State.syncError_missed {s : State} (hst : s.link.st = .ready) (hdr : Word) : SyncMissed s (s.syncError hdr) hdr := by
  obtain ⟨hu, hraise, hdown⟩ :=
    State.linkFault_badFrame { s with link := s.link.missed s.tick hdr } (src := 0x03) (by decide) hdr s.tick
  rw [← State.syncError_eq] at hu hraise hdown
  have hlink : (s.syncError hdr).link = (s.link.missed s.tick hdr).counted := congrArg State.link hu
  obtain ⟨hstay, hcur⟩ := (s.link.missed s.tick hdr).counted_stays
  have heq := (s.link.missed s.tick hdr).counted_eq
  unfold SyncMissed
  rw [hlink]
  refine ⟨?_, ?_, hraise, fun h => ?_, fun h => ?_, ?_, hcur, fun h => ?_, fun h => ?_⟩
  · rw [heq]; rfl
  · rw [heq]; rfl
  · rw [Link.counted_below (s.link.missed s.tick hdr) h]
    exact ⟨rfl, rfl⟩
  · obtain ⟨hbad, hev⟩ := (s.link.missed s.tick hdr).counted_limit h
    exact ⟨hbad, hev, hdown h⟩
  · rw [hstay, ← hst]; rfl
  · rw [heq]
    exact if_pos h
  · rw [heq]
    exact if_neg h

/-- The link with a FORMAT error, before it counts as a bad frame. -/
def Link.misformed (l : Link) (hdr : Word) : Link :=
  { l with cur := none, errFormat := satAdd l.errFormat 1, pseq := frameSeq hdr, pres := 4, deaf := true }

/-- A FORMAT error: the frame in progress is not taken (R72, R93). -/
theorem State.formatError_spec (s : State) (hdr : Word) (t : Tick) :
    let u := s.formatError hdr t
    u.link.errFormat = satAdd s.link.errFormat 1 ∧ u.link.pres = 4 ∧ u.link.pseq = frameSeq hdr ∧ u.link.cur = none ∧
    u.link.deaf = true ∧ Raises s u 0x03 0x00 0 ∧ u.link.twin = s.link.twin ∧ u.link.csEnd = s.link.csEnd ∧ u.tick = s.tick := by
  obtain ⟨hu, hraise, -⟩ :=
    State.linkFault_badFrame { s.dropFrame with link := s.link.misformed hdr } (src := 0x03) (by decide) hdr t
  have hlink : (s.formatError hdr t).link = (s.link.misformed hdr).counted := congrArg State.link hu
  have hcur : (s.link.misformed hdr).counted.cur = none := (s.link.misformed hdr).counted_stays.2.trans (ite_self none)
  have heq := (s.link.misformed hdr).counted_eq
  dsimp only
  rw [hlink]
  refine ⟨?_, ?_, ?_, hcur, ?_, hraise, ?_, ?_, (congrArg State.tick hu :)⟩ <;>
  · rw [heq]
    rfl

/-! ### The sample point of a CYCLE frame -/

/-- u is s with other rows owed and another state of the tandem interface; but for a beacon nothing is taken off the calendar. -/
def State.TanOnly (s u : State) : Prop := ∃ d v, u = { s with due := d, tan := v } ∧ ∀ e ∈ s.due, e.2 ≠ .beaconSend → e ∈ d

theorem State.tanOnly_modTan (s : State) (f : Tandem → Tandem) : s.TanOnly (s.modTan f) := ⟨s.due, f s.tan, rfl, fun _ h _ => h⟩

theorem State.TanOnly.trans {s u v : State} (h : s.TanOnly u) (h' : u.TanOnly v) : s.TanOnly v := by
  obtain ⟨d, t, rfl, hd⟩ := h
  obtain ⟨d', t', rfl, hd'⟩ := h'
  exact ⟨d', t', rfl, fun e he hb => hd' e (hd e he hb) hb⟩

/-- The next idle beacon is owed in place of the one before. -/
theorem State.tanOnly_beaconDue (s : State) : s.TanOnly s.beaconDue := by
  unfold State.beaconDue
  rw [State.oweAt_eq]
  refine ⟨_, s.tan, rfl, fun e he hb => State.mem_oweAt.2 (.inl ?_)⟩
  exact List.mem_filter.2 ⟨he, decide_eq_true hb⟩

theorem State.tanOnly_tanSend (s : State) (k type : Nat) (p : List Word) : s.TanOnly (s.tanSend k type p) :=
  (s.tanOnly_modTan _).trans (State.tanOnly_beaconDue _)

/-- A record that is captured changes the tandem interface and the calendar alone (R337, R340). -/
theorem State.tanOnly_capture (s : State) : s.TanOnly s.capture := by
  unfold State.capture
  split
  · exact s.tanOnly_modTan _
  · exact (s.tanOnly_modTan _).trans (State.tanOnly_tanSend _ 4 1 _)

/-- The header of a CYCLE frame changes the tandem interface and the calendar alone (R337, R345). -/
theorem State.tanOnly_tanCycle (s : State) : s.TanOnly s.tanCycle :=
  ite_keeps _ (ite_keeps _ (s.tanOnly_modTan _)
    (ite_keeps _ (s.tanOnly_modTan _) ((s.tanOnly_modTan _).trans (State.tanOnly_capture _)))) (s.tanOnly_modTan id)

/-- A sample point clears what gathers between two of them in every island, and changes the islands alone (R83, R154, R188). -/
theorem State.sampled_eq (s : State) : ∃ i, s.sampled = { s with isl := i } ∧ ∀ n : IslandNo, i[n] = s.isl[n].sampled := by
  refine ⟨s.sampled.isl, s.foldl_modIsl islands Island.sampled, fun n => ?_⟩
  exact foldl_islands (Before := fun v => v.isl[n] = s.isl[n]) (After := fun v => v.isl[n] = s.isl[n].sampled) n rfl
    (fun v k hk hv => (v.modIsl_other k n _ hk.symm).trans hv) (fun v hv => by rw [State.modIsl_same, hv])
    (fun v k hk hv => (v.modIsl_other k n _ hk.symm).trans hv)

/-- A pulse is owed on this tick for every line of its source (R236, R237). -/
theorem State.mem_pulse (s : State) {src : Nat} {l : BitVec 8} (h : l ∈ linesOf s src) : (s.tick, .eventPulse l) ∈ (s.pulse src).due := by
  have htick : s.tick + BitVec.ofNat 64 0 = s.tick := BitVec.add_zero _
  have key (k : List (BitVec 8)) (u : State) (hu : u.tick = s.tick) (hl : l ∈ k ∨ (s.tick, .eventPulse l) ∈ u.due) :
      (s.tick, .eventPulse l) ∈ (k.foldl (fun s l => s.owe 0 (.eventPulse l)) u).due := by
    induction k generalizing u with
    | nil => exact hl.resolve_left List.not_mem_nil
    | cons a k ih =>
      refine ih _ ((congrArg State.tick (u.owe_eq 0 _)).trans hu) ?_
      rcases hl with hl | hl
      · rcases List.mem_cons.1 hl with rfl | hl
        · exact .inr (State.mem_owe.2 (.inr (by rw [hu, htick])))
        · exact .inl hl
      · exact .inr (State.mem_owe.2 (.inl hl))
  exact key _ s rfl (.inl h)

/-- What a sample point changes: the islands, in which it clears, the tandem interface and the calendar, which takes the pulses of
CYCLE_SAMPLE (R75, R83, R237). -/
theorem State.cycleSample_spec (s : State) :
    let u := s.cycleSample
    u.link = s.link ∧ u.fault = s.fault ∧ (∀ l ∈ linesOf s 0x120, (s.tick, .eventPulse l) ∈ u.due) ∧
    ∀ n : IslandNo, u.isl[n] = s.isl[n].sampled := by
  obtain ⟨i, hs, hi⟩ := s.sampled_eq
  obtain ⟨d, hp⟩ := State.pulse_due { s with isl := i } 0x120
  have hmem (l : BitVec 8) (hl : l ∈ linesOf s 0x120) : (s.tick, Instr.eventPulse l) ∈ d :=
    (congrArg (fun u : State => (s.tick, Instr.eventPulse l) ∈ u.due) hp).mp (State.mem_pulse { s with isl := i } hl)
  obtain ⟨e, v, hu, hkeep⟩ := State.tanOnly_tanCycle { s with isl := i, due := d }
  unfold State.cycleSample
  rw [hs, hp, hu]
  exact ⟨rfl, rfl, fun l hl => hkeep _ (hmem l hl) Instr.noConfusion, hi⟩

/-! ### FRAME_HEADER -/

section Header

variable {s : State} {hdr : Word} {idle : Nat}

/-- The header comes after too few idle ticks, or into a frame (R65, R93). -/
def State.early (s : State) (idle : Nat) : Prop := idle < 16 ∨ s.midFrame = true

/-- The tick on which CS_N rises behind a header: in bring-up mode that of the words it announces (R99). -/
def State.csRise (s : State) (hdr : Word) : Tick :=
  if s.link.lmode then s.tick + BitVec.ofNat 64 (32 * (frameLen hdr + 2) + 8) else s.link.csEnd

/-- The state in which a header that the deframer hunts for is looked at. -/
def State.hunted (s : State) (hdr : Word) : State :=
  { s with link := { s.link with deaf := false, csEnd := s.csRise hdr } }

theorem State.hunted_eq (s : State) (hdr : Word) : (s.modLink (fun l => { l with deaf := false })).csLow hdr = s.hunted hdr := by
  unfold State.csLow State.hunted State.csRise
  by_cases h : s.link.lmode = true
  · rw [if_pos h]
    exact if_pos h
  · rw [if_neg h]
    exact if_neg h

theorem linkReady_ready (h : s.linkReady = true) : s.link.st = .ready := by
  unfold State.linkReady at h
  simpa using (Bool.and_eq_true_iff.1 h).2

theorem exec_frameHeader_off (h : s.linkReady = false) : exec (.frameHeader hdr idle) s = .next s := by
  rw [exec_frameHeader, execFrameHeader, h]
  rfl

theorem exec_frameHeader_early (h : s.linkReady = true) (he : s.early idle) :
    exec (.frameHeader hdr idle) s = .next (if s.link.deaf then s else s.syncError hdr) := by
  unfold State.early at he
  rw [exec_frameHeader, execFrameHeader, h, if_pos he]
  rfl

theorem exec_frameHeader_hunted (h : s.linkReady = true) (he : ¬ s.early idle) :
    exec (.frameHeader hdr idle) s = .next (if frameSync hdr ≠ 0xB4 then (s.hunted hdr).syncError hdr
      else (s.hunted hdr).recognised hdr (decide (idle < s.link.fullTail))) := by
  unfold State.early at he
  rw [exec_frameHeader, execFrameHeader, h, if_neg he]
  dsimp only
  rw [State.hunted_eq]
  rfl

/-- An early header while the deframer does not hunt is not taken (R65). -/
theorem exec_frameHeader_deaf (h : s.linkReady = true) (he : s.early idle) (hd : s.link.deaf = true) :
    exec (.frameHeader hdr idle) s = .next s := by
  rw [exec_frameHeader_early h he, if_pos hd]

/-- Any other early header, and one with another SYNC, is a SYNC error (R65, R93). -/
theorem frameHeader_missed (h : s.linkReady = true)
    (hc : (s.early idle ∧ s.link.deaf = false) ∨ (¬ s.early idle ∧ fld hdr 24 8 ≠ 0xB4)) :
    Completes (.frameHeader hdr idle) s (fun u => SyncMissed s u hdr) := by
  have hst := linkReady_ready h
  rcases hc with ⟨he, hd⟩ | ⟨he, hsync⟩
  · refine ⟨_, exec_frameHeader_early h he, ?_⟩
    rw [hd, if_neg Bool.false_ne_true]
    exact State.syncError_missed hst hdr
  · refine ⟨_, exec_frameHeader_hunted h he, ?_⟩
    rw [if_pos (show frameSync hdr ≠ 0xB4 from hsync)]
    exact State.syncError_missed (s := s.hunted hdr) hst hdr

/-- The link behind a header of N words (R14, R36, R72). -/
def Link.headed (l : Link) (now : Tick) (hdr : Word) (short : Bool) (words : Nat) (twin : List Word) : Link := { l with
  evShort := if short then satAdd l.evShort 1 else l.evShort, grid := now,
  tail := now + BitVec.ofNat 64 (l.wordTk * words + 32), twin := if l.loopAct = 1 then [hdr] else twin, twinAt := now + 8 }

/-- The state behind a header that opens the frame f (R70, R72). -/
def State.opened (s : State) (hdr : Word) (short : Bool) (f : CurFrame) : State :=
  { s with link := { s.link.headed s.tick hdr short (frameLen hdr + 2) [twinHeader hdr] with cur := some f } }

/-- A header changes the link alone. -/
theorem State.opened_same (s : State) (hdr : Word) (short : Bool) (f : CurFrame) : ((s.hunted hdr).opened hdr short f).tick = s.tick ∧
    ((s.hunted hdr).opened hdr short f).fault = s.fault ∧ ((s.hunted hdr).opened hdr short f).cfg = s.cfg := by
  dsimp only [State.opened, State.hunted]
  exact ⟨rfl, rfl, rfl⟩

/-- The frame that a header opens; of a CYCLE frame it holds the sample of the header tick (R75). -/
def State.newFrame (s : State) (hdr : Word) (short : Bool) : CurFrame := {
  hdr := hdr, shortTail := short, tick := s.tick, void := false, busy := false,
  snap := if frameType hdr = 1 then
      ({ s with link := s.link.headed s.tick hdr short (frameLen hdr + 2) [twinHeader hdr] } : State).snapshot
    else [] }

/-- A header of a legal frame: it is the frame in progress (R70, R72, R75). -/
theorem State.recognised_legal (hl : lenLegal (frameType hdr) (frameLen hdr) = true) (short : Bool) : ∃ f,
    f.hdr = hdr ∧ f.tick = s.tick ∧ f.shortTail = short ∧ f.void = false ∧
    s.recognised hdr short = if frameType hdr = 1 then (s.opened hdr short f).cycleSample else s.opened hdr short f := by
  unfold State.recognised
  rw [hl]
  refine ⟨s.newFrame hdr short, rfl, rfl, rfl, rfl, ?_⟩
  dsimp only [State.modLink, State.startTwin, State.opened, State.newFrame, Link.headed, Bool.not_true, if_true]
  rfl

/-- A header of an illegal frame is a FORMAT error, with an empty twin (R72, R93). -/
theorem State.recognised_illegal (hl : lenLegal (frameType hdr) (frameLen hdr) = false) (short : Bool) :
    s.recognised hdr short =
      State.formatError { s with link := s.link.headed s.tick hdr short 2 (emptyTwin hdr) } hdr s.tick := by
  unfold State.recognised
  rw [hl]
  rfl

/-- A legal header opens its frame and its twin; that of a CYCLE frame is a sample point (R65, R72, R75, R83, R93, R99). -/
theorem frameHeader_opens (h : s.linkReady = true) (he : ¬ s.early idle) (hs : fld hdr 24 8 = 0xB4)
    (hl : lenLegal (fld hdr 20 4) (fld hdr 0 16) = true) : Completes (.frameHeader hdr idle) s (fun u =>
      (∃ f, u.link.cur = some f ∧ f.hdr = hdr ∧ f.tick = s.tick ∧ f.shortTail = decide (idle < s.link.fullTail) ∧
        f.void = false) ∧
      u.link.twin = (if s.link.loopAct = 1 then [hdr] else [twinHeader hdr]) ∧ u.link.twinAt = s.tick + 8 ∧
      u.link.grid = s.tick ∧ u.link.deaf = false ∧
      (s.link.lmode = true → u.link.csEnd = s.tick + BitVec.ofNat 64 (32 * (fld hdr 0 16 + 2) + 8)) ∧
      u.link.tail = s.tick + BitVec.ofNat 64 (s.link.wordTk * (fld hdr 0 16 + 2) + 32) ∧
      u.link.evShort = (if idle < s.link.fullTail then satAdd s.link.evShort 1 else s.link.evShort) ∧ u.fault = s.fault ∧
      (fld hdr 20 4 = 1 → (∀ l ∈ linesOf s 0x120, (s.tick, .eventPulse l) ∈ u.due) ∧ ∀ n : IslandNo,
        u.isl[n].cos = false ∧ u.isl[n].diagEv = false ∧ u.isl[n].din.rise = false ∧ u.isl[n].din.fall = false ∧
          u.isl[n].ana.new = false) ∧
      (fld hdr 20 4 ≠ 1 → u = { s with link := u.link })) := by
  obtain ⟨f, hhdr, htick, hshort, hvoid, hrec⟩ := (s.hunted hdr).recognised_legal hl (decide (idle < s.link.fullTail))
  obtain ⟨hlink, hfault, hdue, hisl⟩ := ((s.hunted hdr).opened hdr (decide (idle < s.link.fullTail)) f).cycleSample_spec
  have hboth (P : State → Prop) (h1 : P ((s.hunted hdr).opened hdr (decide (idle < s.link.fullTail)) f).cycleSample)
      (h2 : P ((s.hunted hdr).opened hdr (decide (idle < s.link.fullTail)) f)) := ite_keeps (P := P) (frameType hdr = 1) h1 h2
  refine ⟨_, exec_frameHeader_hunted h he, ?_⟩
  rw [if_neg (not_not.2 (show frameSync hdr = 0xB4 from hs)), hrec]
  have hu := hboth (fun u => u.link = ((s.hunted hdr).opened hdr (decide (idle < s.link.fullTail)) f).link) hlink rfl
  obtain ⟨htick', hfault', hcfg⟩ := s.opened_same hdr (decide (idle < s.link.fullTail)) f
  refine ⟨⟨f, (congrArg Link.cur hu :), hhdr, htick, hshort, hvoid⟩, (congrArg Link.twin hu :), (congrArg Link.twinAt hu :),
    (congrArg Link.grid hu :), (congrArg Link.deaf hu :), fun hm => (congrArg Link.csEnd hu).trans (if_pos hm), (congrArg Link.tail hu :),
    (congrArg Link.evShort hu).trans (if_congr decide_eq_true_iff rfl rfl), hboth (fun u => u.fault = s.fault) (hfault.trans hfault') hfault',
    fun h1 => ?_, fun h1 => ?_⟩
  · rw [if_pos (show frameType hdr = 1 from h1)]
    unfold linesOf at hdue ⊢
    rw [htick', hcfg] at hdue
    refine ⟨hdue, fun n => ?_⟩
    rw [hisl n]
    exact ⟨rfl, rfl, rfl, rfl, rfl⟩
  · rw [if_neg (show frameType hdr ≠ 1 from h1)]
    rfl

/-- A header of a frame that is not legal is a FORMAT error (R70, R72, R93). -/
theorem frameHeader_misformed (h : s.linkReady = true) (he : ¬ s.early idle) (hs : fld hdr 24 8 = 0xB4)
    (hl : lenLegal (fld hdr 20 4) (fld hdr 0 16) = false) : Completes (.frameHeader hdr idle) s (fun u =>
      u.link.errFormat = satAdd s.link.errFormat 1 ∧ u.link.pres = 4 ∧ u.link.pseq = frameSeq hdr ∧ u.link.cur = none ∧
      u.link.deaf = true ∧ Raises s u 0x03 0x00 0 ∧ (s.link.loopAct ≠ 1 → u.link.twin = emptyTwin hdr)) := by
  have hrec := (s.hunted hdr).recognised_illegal hl (decide (idle < s.link.fullTail))
  obtain ⟨herr, hpres, hpseq, hcur, hdeaf, hraise, htwin, -, -⟩ := State.formatError_spec
    { s.hunted hdr with link := (s.hunted hdr).link.headed s.tick hdr (decide (idle < s.link.fullTail)) 2 (emptyTwin hdr) } hdr s.tick
  refine ⟨_, exec_frameHeader_hunted h he, ?_⟩
  rw [if_neg (not_not.2 (show frameSync hdr = 0xB4 from hs)), hrec]
  exact ⟨herr, hpres, hpseq, hcur, hdeaf, hraise, fun ha => htwin.trans (if_neg ha)⟩

/-- The twin of a FORMAT error as R72 writes it. -/
theorem emptyTwin_eq (hdr : Word) : emptyTwin hdr =
    [0x4B000000 ||| (hdr &&& 0x00FF0000), crc32c [0x4B000000 ||| (hdr &&& 0x00FF0000)]] := by
  have h : twinHeader (hdr &&& 0xFFFF0000) = 0x4B000000 ||| (hdr &&& 0x00FF0000) := by
    unfold twinHeader
    rw [BitVec.and_assoc]
    rfl
  unfold emptyTwin
  rw [h]

end Header

/-! ### A rise of CS_N -/

/-- The state in which CS_N is high from this tick on (R99). -/
def State.csUp (s : State) : State :=
  { s with link := { s.link with csEnd := if s.tick < s.link.csEnd then s.tick else s.link.csEnd } }

theorem State.csUp_high (s : State) : s.csUp.link.csEnd ≤ s.csUp.tick := by
  show (if s.tick < s.link.csEnd then s.tick else s.link.csEnd) ≤ s.tick
  split <;> bv_omega

/-- MISO is released while CS_N is high (R99). -/
theorem State.miso_released {s : State} (h : s.link.csEnd ≤ s.tick) : s.miso = none := if_pos h

theorem exec_csEarlyRise_early {s : State} {f : CurFrame} (hw : s.awake = true) (hm : s.link.lmode = true) (hf : s.link.cur = some f) :
    exec (.csEarlyRise false) s = .next (s.csUp.formatError f.hdr f.tick) := by
  rw [exec_csEarlyRise, execCsEarlyRise, hw, hm]
  simp only [State.modLink, hf]
  rfl

theorem exec_csEarlyRise_late {s : State} (hw : s.awake = true) (hm : s.link.lmode = true) :
    exec (.csEarlyRise true) s = .next s.csUp := by
  rw [exec_csEarlyRise, execCsEarlyRise, hw, hm]
  rfl

/-- Before the CRC is complete the frame is a FORMAT error (R99, R100). -/
theorem csEarlyRise_misformed {s : State} {f : CurFrame} (hw : s.awake = true) (hm : s.link.lmode = true) (hf : s.link.cur = some f) :
    Completes (.csEarlyRise false) s (fun u => u.link.errFormat = satAdd s.link.errFormat 1 ∧ u.link.pres = 4 ∧ u.link.cur = none ∧
      u.miso = none ∧ Raises s u 0x03 0x00 0) := by
  obtain ⟨herr, hpres, -, hcur, -, hraise, -, hcs, htick⟩ := s.csUp.formatError_spec f.hdr f.tick
  exact ⟨_, exec_csEarlyRise_early hw hm hf, herr, hpres, hcur, State.miso_released (by rw [hcs, htick]; exact s.csUp_high), hraise⟩

/-- Behind the CRC a rise of CS_N releases MISO, and that is all (R99, R100). -/
theorem csEarlyRise_afterCrc {s : State} (hw : s.awake = true) (hm : s.link.lmode = true) : Completes (.csEarlyRise true) s (fun u =>
    u.miso = none ∧ u = { s with link := { s.link with csEnd := if s.tick < s.link.csEnd then s.tick else s.link.csEnd } }) :=
  ⟨_, exec_csEarlyRise_late hw hm, State.miso_released s.csUp_high, rfl⟩

/-! ## Training -/

section Training

variable {s : State}

theorem tpLock_locks (hw : s.awake = true) (hm : s.link.lmode = false) (hst : s.link.st = .untrained) : Completes .tpLock s (fun u =>
    u = { s with free := s.free + 1, link := { s.link with
      st := .lock, lockAt := s.tick, tap0 := u.link.tap0, tap1 := u.link.tap1 } }) := by
  refine ⟨_, rfl, ?_⟩
  rw [hw, hm, hst]
  rfl

theorem exec_eyeFound_found (t0 t1 : BitVec 4) (hw : s.awake = true) (hst : s.link.st = .lock) (ht : s.tick ≤ s.link.lockAt + 8 * 188) :
    exec (.eyeFound t0 t1) s = .next { s with link := { s.link with st := .echo, tap0 := t0, tap1 := t1, echoAt := s.tick } } := by
  rw [exec_eyeFound, execEyeFound, if_pos ⟨hw, hst, ht⟩]
  rfl

/-- In ECHO the training word goes upstream from the next word boundary of the lock on (R66, R67). -/
theorem State.upstreamBits_echo {m k : Nat} (hk : k < 8) (hm : 8 * m + k < 2 ^ 64) (hst : s.link.st = .echo)
    (ht : s.tick = s.link.lockAt + BitVec.ofNat 64 (8 * m + k)) :
    s.upstreamBits = if s.link.echoAt + BitVec.ofNat 64 k ≤ s.tick then laneBits 0x6C93A55A k else 0 := by
  have hj : (s.tick - s.link.lockAt).toNat % 8 = k := by
    rw [ht, BitVec.add_comm, BitVec.add_sub_cancel, BitVec.toNat_ofNat, Nat.mod_eq_of_lt hm, Nat.mul_add_mod, Nat.mod_eq_of_lt hk]
  simp only [State.upstreamBits, hst, hj]
  rfl

theorem exec_trainingLost_lock (hw : s.awake = true) (hst : s.link.st = .lock) :
    exec .trainingLost s = .next { s with link := { s.link with st := .untrained } } := by
  rw [exec_trainingLost, execTrainingLost, if_pos ⟨hw, hst⟩]
  rfl

/-- Reads that are out lose their reader, and the read queue is empty: the islands and the link alone change (R66). -/
theorem State.dropReads_eq (s : State) : ∃ i, s.dropReads = { s with isl := i, link := { s.link with readq := [] } } := by
  unfold State.dropReads
  rw [State.foldl_modIsl]
  exact ⟨_, rfl⟩

theorem echoIdle_ready (hw : s.awake = true) (hst : s.link.st = .echo) : Completes .echoIdle s (fun u =>
    u.link = { s.link with st := .ready, eFree := true, queue := [], readq := [], pres := 15, cur := none, deaf := false } ∧
    u = { s with link := u.link, isl := u.isl, due := u.due }) := by
  obtain ⟨i, hi⟩ := (s.cancel .commandExecute).dropReads_eq
  refine ⟨_, rfl, ?_⟩
  rw [if_pos ⟨hw, hst⟩, hi]
  exact ⟨rfl, rfl⟩

/-- RETRAIN waits for the end of the tail (R14, R66, R101). -/
theorem linkCtrlRetrain_waits (m : Master) (hc : s.clocked = true) (hm : s.link.lmode = false) (hst : s.link.st = .ready) :
    Completes (.linkCtrlRetrain m) s (fun u =>
      u = { s with due := u.due, link := { s.link with retrain := true } } ∧ (laterTick s.tick s.link.tail, .retrainApply) ∈ u.due) := by
  have hno : ¬ (s.link.lmode = true ∨ s.link.st ≠ .ready) := by simp [hm, hst]
  refine ⟨_, State.act_on _ hc, ?_⟩
  rw [State.askRetrain, if_neg hno]
  exact ⟨State.atTail_eq _ _, State.mem_atTail_self _ _⟩

theorem exec_linkCtrlRetrain_ignored (m : Master) (h : s.link.lmode = true ∨ s.link.st ≠ .ready) :
    exec (.linkCtrlRetrain m) s = .next s := by
  have hask : s.askRetrain = s := if_pos h
  rw [exec_linkCtrlRetrain, execLinkCtrlRetrain, State.act, hask, ite_self]

/-- Retraining starts, and nothing of a frame in progress is awaited (R66). -/
theorem retrainApply_untrains (hc : s.clocked = true) (hr : s.link.retrain = true) (hst : s.link.st = .ready) :
    Completes .retrainApply s (fun u =>
      u = { s with due := u.due, link := { s.link with st := .untrained, retrain := false, cur := none } } ∧
      ∀ e ∈ u.due, isFrame e.2 = false) := by
  refine ⟨_, (exec_retrainApply s).trans (State.act_on _ hc), ?_⟩
  dsimp only
  rw [if_pos ⟨hr, hst⟩]
  refine ⟨rfl, fun e he => ?_⟩
  simpa using (List.mem_filter.1 he).2

theorem loopApply_applies (hc : s.clocked = true) : Completes .loopApply s (fun u =>
    u = { s with due := u.due, link := { s.link with loopAct := s.link.loopReq } }) :=
  ⟨_, (exec_loopApply s).trans (State.act_on _ hc), rfl⟩

end Training

/-- Settles O47: training row by row, then a header by what the deframer finds of it, and the rises of CS_N. -/
theorem linkTrainsAndHeaders : Obligations.LinkTrainsAndHeaders := by
  unfold Obligations.LinkTrainsAndHeaders
  refine ⟨fun s => ?_, fun s hdr idle => ?_⟩
  · exact ⟨tpLock_locks, exec_eyeFound_found, fun m k => State.upstreamBits_echo, exec_trainingLost_lock, echoIdle_ready,
      linkCtrlRetrain_waits, exec_linkCtrlRetrain_ignored, retrainApply_untrains, loopApply_applies⟩
  · refine ⟨fun h => ⟨exec_frameHeader_deaf h, frameHeader_missed h, fun he hs hl => ?_, fun he hs hl => ?_⟩, exec_frameHeader_off,
      fun f => csEarlyRise_misformed, csEarlyRise_afterCrc⟩
    · exact frameHeader_opens h he hs hl
    · obtain ⟨u, hu, herr, hpres, hpseq, hcur, hdeaf, hraise, htwin⟩ := frameHeader_misformed h he hs hl
      exact ⟨u, hu, herr, hpres, hpseq, hcur, hdeaf, hraise, fun ha => (htwin ha).trans (emptyTwin_eq hdr)⟩

/-! ## The end of a frame -/

/-- The words that go upstream once the payload and CRC word of a frame have come (R97). -/
def Link.carried (l : Link) (h : Word) (p : List Word) (crc : Word) : List Word :=
  if l.loopAct = 2 then (twinHeader h :: p) ++ [crc32c (twinHeader h :: p)] else if l.loopAct = 1 then (h :: p) ++ [crc] else l.twin

theorem State.echoTwin_eq (s : State) (f : CurFrame) (p : List Word) (crc : Word) :
    s.echoTwin f p crc = { s with link := { s.link with twin := s.link.carried f.hdr p crc } } := by
  unfold State.echoTwin Link.carried
  split
  · rfl
  · split <;> rfl

/-- The link behind a frame whose CRC fails, before that counts as a bad frame (R74, R93, R97). -/
def Link.failed (l : Link) (f : CurFrame) (p : List Word) (crc : Word) : Link := { l with
  cur := none, twin := l.carried f.hdr p crc, errCrc := satAdd l.errCrc 1, pseq := frameSeq f.hdr, pres := 1 }

section FrameEnd

variable {s : State} {row : Instr} {type : Nat} {p : List Word} {crc : Word} {act : State → CurFrame → State} {f : CurFrame}

/-- The state in which the frame in progress is judged: it is over, its row is off the calendar, and a loopback has carried it (R97). -/
def State.judged (s : State) (row : Instr) (f : CurFrame) (p : List Word) (crc : Word) : State :=
  { s with due := (s.settle row).due, link := { s.link with cur := none, twin := s.link.carried f.hdr p crc } }

variable (hw : s.awake = true) (hf : s.link.cur = some f) (ht : frameType f.hdr = type) (hl : frameLen f.hdr = p.length)

include hw hf ht hl

/-- Until its effect tick the row of a frame waits, and a loopback carries the frame (R73, R97; log entry 35). -/
theorem State.frameEnd_waits (he : s.tick < s.effectTick f) :
    let u := s.frameEnd row type p crc act
    u = { s with due := u.due, link := { s.link with twin := s.link.carried f.hdr p crc } } ∧ (s.effectTick f, row) ∈ u.due := by
  dsimp only
  rw [State.frameEnd_wait hw hf ht hl he, State.oweAt_eq, State.echoTwin_eq]
  exact ⟨rfl, State.mem_oweAt.2 (.inr rfl)⟩

/-- On its effect tick a frame is discarded where a reset has voided it or its CRC fails, a frame echo executes CTRL alone, and else the
frame is taken (R73, R74, R93, R97, R355). -/
theorem State.frameEnd_judged (he : s.effectTick f ≤ s.tick) : s.frameEnd row type p crc act =
    let u := s.judged row f p crc
    if f.void then u.modLink (fun l => { l with pseq := frameSeq f.hdr, pres := 15 })
    else if crc32c (f.hdr :: p) ≠ crc then
      (((u.modLink (fun l => { l with errCrc := satAdd l.errCrc 1 })).frameDone f 1).linkFault 0x01 f.hdr f.tick).badFrame f.hdr f.tick
    else
      let u := u.modLink (fun l => { l with bad := 0 })
      if u.link.loopAct = 2 ∧ type ≠ 5 then u.frameDone f 7 else act u f := by
  have he' : ¬ s.tick < s.effectTick f := by bv_omega
  unfold State.frameEnd
  rw [if_neg (by simp [hw]), hf]
  dsimp only
  rw [if_neg (by simp [ht, hl]), if_neg he', State.echoTwin_eq]
  rfl

/-- A frame that a reset has voided (R355; log entry 55). -/
theorem State.frameEnd_void (he : s.effectTick f ≤ s.tick) (hv : f.void = true) : s.frameEnd row type p crc act =
    (s.judged row f p crc).modLink (fun l => { l with pseq := frameSeq f.hdr, pres := 15 }) := by
  rw [State.frameEnd_judged hw hf ht hl he]
  exact if_pos hv

/-- A frame whose CRC fails is discarded with its result and LINK_CRC (R74, R93). -/
theorem State.frameEnd_badCrc (he : s.effectTick f ≤ s.tick) (hv : f.void = false) (hc : crc ≠ crc32c (f.hdr :: p)) :
    let u := s.frameEnd row type p crc act
    u.link.errCrc = satAdd s.link.errCrc 1 ∧ u.link.pres = 1 ∧ u.link.pseq = frameSeq f.hdr ∧ u.link.cur = none ∧
    u.link.queue = s.link.queue ∧ u.link.expSeq = s.link.expSeq ∧ Raises s u 0x01 0x00 0 := by
  have hrun : s.frameEnd row type p crc act =
      (({ s.judged row f p crc with link := s.link.failed f p crc } : State).linkFault 0x01 f.hdr f.tick).badFrame f.hdr f.tick := by
    rw [State.frameEnd_judged hw hf ht hl he]
    dsimp only
    rw [if_neg (by rw [hv]; exact Bool.false_ne_true), if_pos hc.symm]
    rfl
  obtain ⟨hu, hraise, -⟩ :=
    State.linkFault_badFrame { s.judged row f p crc with link := s.link.failed f p crc } (src := 0x01) (by decide) f.hdr f.tick
  rw [← hrun] at hu hraise
  have hlink : (s.frameEnd row type p crc act).link = (s.link.failed f p crc).counted := congrArg State.link hu
  have hcur : (s.link.failed f p crc).counted.cur = none := (s.link.failed f p crc).counted_stays.2.trans (ite_self none)
  have heq := (s.link.failed f p crc).counted_eq
  dsimp only
  rw [hlink]
  refine ⟨?_, ?_, ?_, hcur, ?_, ?_, hraise⟩ <;>
  · rw [heq]
    rfl

/-- A frame echo repeats a good frame, and executes none but CTRL (R97). -/
theorem State.frameEnd_echo (he : s.effectTick f ≤ s.tick) (hv : f.void = false) (hc : crc = crc32c (f.hdr :: p))
    (ha : s.link.loopAct = 2) (h5 : type ≠ 5) : s.frameEnd row type p crc act =
      (s.judged row f p crc).modLink (fun l => { l with bad := 0, pseq := frameSeq f.hdr, pres := 7 }) := by
  rw [State.frameEnd_judged hw hf ht hl he]
  dsimp only
  rw [if_neg (by rw [hv]; exact Bool.false_ne_true), if_neg (not_not.2 hc.symm)]
  exact (if_pos ⟨ha, h5⟩).trans rfl

/-- A good IDLE frame ends with its result alone (R85, R92). -/
theorem idleFrame_ends (h6 : type = 6) (he : s.effectTick f ≤ s.tick) (hv : f.void = false) (ha : s.link.loopAct ≠ 2)
    (h1 : s.link.loopAct ≠ 1) :
    Completes (.idleFrame p (crc32c (f.hdr :: p))) s (fun u => u = { s with due := u.due, link := { s.link with
      cur := none, bad := 0, pseq := frameSeq f.hdr, pres := if f.shortTail then 5 else 0 } }) := by
  have htwin : s.link.echoed f.hdr p = s.link.twin := (if_neg ha).trans (if_neg h1)
  refine ⟨_, rfl, ?_⟩
  rw [State.frameEnd_take hw hf (ht.trans h6) hl he hv (.inl ha), State.frameDone_zero, htwin]
  rfl

end FrameEnd

/-! ## Command frames -/

section Command

variable {s : State} {p : List Word} {f : CurFrame}

/-- u is s but for the calendar and the link, where a frame has ended. -/
def State.FrameOver (s u : State) (f : CurFrame) : Prop :=
  u = { s with link := u.link, due := u.due } ∧ u.link.cur = none ∧ u.link.pseq = frameSeq f.hdr

/-- A command frame in sequence that finds a place is queued and moves EXP_SEQ; it starts at once in an empty queue (R76, R78). -/
theorem State.command_queued (hcur : s.link.cur = none) (hq : s.link.eFree = true ∨ (s.link.expSeq - frameSeq f.hdr).toNat = 0)
    (hb : f.busy = false) {k : Nat} (hk : frameType f.hdr = k) : let u := s.command p f
    s.FrameOver u f ∧ u.link.expSeq = frameSeq f.hdr + 1 ∧ u.link.eFree = false ∧ u.link.pres = (if f.shortTail then 5 else 0) ∧
    u.link.bad = s.link.bad ∧ (∃ g, u.link.queue = s.link.queue ++ [g] ∧ g.payload = p ∧ g.seq = frameSeq f.hdr ∧
      g.type.toNat = k ∧ g.stop = false) ∧ (s.link.queue = [] → (s.tick, .commandExecute) ∈ u.due) := by
  have htick : s.tick + BitVec.ofNat 64 0 = s.tick := BitVec.add_zero _
  dsimp only
  unfold State.command
  rw [if_pos hq, hb, if_neg Bool.false_ne_true]
  unfold State.enqueue
  rw [State.frameDone_zero]
  split
  · rw [State.owe_eq]
    refine ⟨⟨rfl, hcur, rfl⟩, rfl, rfl, rfl, rfl, ⟨_, rfl, rfl, rfl, hk, rfl⟩, fun _ => ?_⟩
    exact State.mem_owe.2 (.inr (by rw [← htick]; rfl))
  · rename_i hne
    exact ⟨⟨rfl, hcur, rfl⟩, rfl, rfl, rfl, rfl, ⟨_, rfl, rfl, rfl, hk, rfl⟩, fun h => absurd h hne⟩

/-- A command frame in sequence that finds no place is BUSY (R78). -/
theorem State.command_busy (hcur : s.link.cur = none) (hq : s.link.eFree = true ∨ (s.link.expSeq - frameSeq f.hdr).toNat = 0)
    (hb : f.busy = true) : let u := s.command p f
    s.FrameOver u f ∧ u.link.queue = s.link.queue ∧ u.link.expSeq = s.link.expSeq ∧ u.link.pres = 6 ∧
    u.link.evBusy = satAdd s.link.evBusy 1 := by
  dsimp only
  unfold State.command
  rw [if_pos hq, if_pos hb]
  exact ⟨⟨rfl, hcur, rfl⟩, rfl, rfl, rfl, rfl⟩

/-- One of the last eight command frames is a duplicate (R76). -/
theorem State.command_duplicate (hcur : s.link.cur = none) (hfree : s.link.eFree = false)
    (h1 : 1 ≤ (s.link.expSeq - frameSeq f.hdr).toNat) (h8 : (s.link.expSeq - frameSeq f.hdr).toNat ≤ 8) : let u := s.command p f
    s.FrameOver u f ∧ u.link.queue = s.link.queue ∧ u.link.expSeq = s.link.expSeq ∧ u.link.pres = 3 ∧
    u.link.evDup = satAdd s.link.evDup 1 := by
  have hq : ¬ (s.link.eFree = true ∨ (s.link.expSeq - frameSeq f.hdr).toNat = 0) := by
    rintro (h | h)
    · exact Bool.false_ne_true (hfree.symm.trans h)
    · omega
  dsimp only
  unfold State.command
  rw [if_neg hq, if_pos h8]
  exact ⟨⟨rfl, hcur, rfl⟩, rfl, rfl, rfl, rfl⟩

/-- Any other command frame is a sequence error (R76, R93). -/
theorem State.command_outOfSequence (hfree : s.link.eFree = false) (h8 : 8 < (s.link.expSeq - frameSeq f.hdr).toNat) :
    let u := s.command p f
    u.link.queue = s.link.queue ∧ u.link.expSeq = s.link.expSeq ∧ u.link.pres = 2 ∧ u.link.errSeq = satAdd s.link.errSeq 1 ∧
    Raises s u 0x02 0x00 0 := by
  have hq : ¬ (s.link.eFree = true ∨ (s.link.expSeq - frameSeq f.hdr).toNat = 0) := by
    rintro (h | h)
    · exact Bool.false_ne_true (hfree.symm.trans h)
    · omega
  have hover : ∃ l, (s.modLink (fun l => { l with errSeq := satAdd l.errSeq 1 })).frameDone f 2 = { s with link := l } ∧
      l.queue = s.link.queue ∧ l.expSeq = s.link.expSeq ∧ l.pres = 2 ∧ l.errSeq = satAdd s.link.errSeq 1 :=
    ⟨_, rfl, rfl, rfl, rfl, rfl⟩
  obtain ⟨l, hl, hqueue, hexp, hpres, herr⟩ := hover
  have hraise : Raises s (State.linkFault { s with link := l } 0x02 f.hdr f.tick) 0x02 0x00 0 := State.raiseAt_raises { s with link := l } ..
  obtain ⟨d, c, hu⟩ : ∃ d c, State.linkFault { s with link := l } 0x02 f.hdr f.tick = { s with link := l, due := d, fault := c } :=
    State.raiseAt_eq ..
  dsimp only
  unfold State.command
  rw [if_neg hq, if_neg (Nat.not_le.2 h8), hl]
  rw [hu] at hraise ⊢
  exact ⟨hqueue, hexp, hpres, herr, hraise⟩

end Command

/-! ## The rows of frames (O48) -/

/-- A row of a frame that is not CTRL, with the TYPE of its frame (R70). -/
def frameRows (p : List Word) (crc : Word) : List (Instr × Nat) :=
  [(.cycle p crc, 1), (.regw p crc, 2), (.regr p crc, 3), (.bulk p crc, 4), (.idleFrame p crc, 6)]

/-- A row of a command frame, with the TYPE of its frame (R70, R76). -/
def commandRows (p : List Word) (crc : Word) : List (Instr × Nat) := [(.regw p crc, 2), (.regr p crc, 3), (.bulk p crc, 4)]

theorem exec_frameRow {p : List Word} {crc : Word} {c : Instr × Nat} (hc : c ∈ frameRows p crc) (s : State) :
    c.2 ≠ 5 ∧ ∃ act, exec c.1 s = .next (s.frameEnd c.1 c.2 p crc act) := by
  simp only [frameRows, List.mem_cons, List.not_mem_nil, or_false] at hc
  rcases hc with rfl | rfl | rfl | rfl | rfl <;> exact ⟨by simp, _, rfl⟩

theorem exec_commandRow {p : List Word} {crc : Word} {c : Instr × Nat} (hc : c ∈ commandRows p crc) (s : State) :
    exec c.1 s = .next (s.frameEnd c.1 c.2 p crc (fun s f => s.command p f)) := by
  simp only [commandRows, List.mem_cons, List.not_mem_nil, or_false] at hc
  rcases hc with rfl | rfl | rfl <;> rfl

/-- The check a tick before the effect tick tells whether the queue has a place (R73, R78). -/
theorem State.crcCheck_busy {s : State} {f : CurFrame} (hf : s.link.cur = some f) (ht : s.tick + 1 = s.effectTick f) :
    s.crcCheck = { s with link := { s.link with cur := some { f with
      busy := decide (2 ≤ s.link.queue.length ∨ (frameType f.hdr = 3 ∧ 64 < frameLen f.hdr + s.link.readq.length)) } } } := by
  have hfull : s.link.full (frameType f.hdr) (frameLen f.hdr) =
      decide (2 ≤ s.link.queue.length ∨ (frameType f.hdr = 3 ∧ 64 < frameLen f.hdr + s.link.readq.length)) := by
    simp only [Link.full, Bool.decide_or, Bool.decide_and]
  unfold State.crcCheck
  rw [hf, ← hfull]
  exact if_pos ht

/-- A good frame on its effect tick, before it acts: the bad frames count anew, and a loopback has carried it (R73, R94, R97). -/
def State.frameTaken (s : State) (row : Instr) (f : CurFrame) (p : List Word) : State :=
  { s with due := (s.settle row).due, link := { s.link with cur := none, bad := 0, twin := s.link.echoed f.hdr p } }

/-- A good command frame is judged by its SEQ and the place that it found (R76, R78). -/
theorem exec_commandRow_good {s : State} {p : List Word} {crc : Word} {f : CurFrame} {c : Instr × Nat} (hc : c ∈ commandRows p crc)
    (hw : s.awake = true) (hf : s.link.cur = some f) (ht : frameType f.hdr = c.2) (hl : frameLen f.hdr = p.length)
    (he : s.effectTick f ≤ s.tick) (hv : f.void = false) (hg : crc = crc32c (f.hdr :: p)) (ha : s.link.loopAct ≠ 2) :
    exec c.1 s = .next ((s.frameTaken c.1 f p).command p f) := by
  rw [exec_commandRow hc, hg, State.frameEnd_take hw hf ht hl he hv (.inl ha)]
  rfl

/-- Settles O48: a frame before its effect tick, its check, and on its effect tick the verdicts one by one. -/
theorem framesAreJudged : Obligations.FramesAreJudged := by
  unfold Obligations.FramesAreJudged
  intro s p crc f hw hf hl
  have heff : s.effectTick f = f.tick + BitVec.ofNat 64 (s.link.wordTk * (p.length + 2) + 2) := by rw [State.effectTick, hl]
  dsimp only
  rw [← heff, ← hl]
  refine ⟨fun c hc ht he => ?_, State.crcCheck_busy hf, fun he => ⟨fun c hc ht hv => ?_, fun c hc ht hv hg => ?_,
    fun c hc ht hv hg ha => ?_, fun ht hv hg ha h1 => ?_, fun c hc ht hv hg ha => ?_⟩⟩
  · obtain ⟨-, act, hrun⟩ := exec_frameRow hc s
    exact ⟨_, hrun, State.frameEnd_waits hw hf ht hl he⟩
  · obtain ⟨-, act, hrun⟩ := exec_frameRow hc s
    rw [State.frameEnd_void hw hf ht hl he hv] at hrun
    exact ⟨_, hrun, ⟨rfl, rfl, rfl⟩, rfl, rfl, rfl⟩
  · obtain ⟨-, act, hrun⟩ := exec_frameRow hc s
    exact ⟨_, hrun, State.frameEnd_badCrc hw hf ht hl he hv hg⟩
  · obtain ⟨h5, act, hrun⟩ := exec_frameRow hc s
    rw [State.frameEnd_echo hw hf ht hl he hv hg ha h5] at hrun
    exact ⟨_, hrun, ⟨rfl, rfl, rfl⟩, rfl, rfl, rfl, rfl, rfl⟩
  · subst hg
    exact idleFrame_ends hw hf ht hl rfl he hv ha h1
  · have hrun := exec_commandRow_good hc hw hf ht hl he hv hg ha
    exact ⟨fun hq hb => ⟨_, hrun, State.command_queued (s := s.frameTaken c.1 f p) rfl hq hb ht⟩,
      fun hq hb => ⟨_, hrun, State.command_busy (s := s.frameTaken c.1 f p) rfl hq hb⟩,
      fun hfree h1 h8 => ⟨_, hrun, State.command_duplicate (s := s.frameTaken c.1 f p) rfl hfree h1 h8⟩,
      fun hfree h8 => ⟨_, hrun, State.command_outOfSequence (s := s.frameTaken c.1 f p) hfree h8⟩⟩

/-! ## What a CYCLE frame applies -/

/-- What decides in an island whether an output word goes out: its power, a record that it prepares, and its downstream cells (R82, R121). -/
def Island.gate (i : Island) : IslPower × Bool × List DownCell := (i.power, i.prep, i.down)

/-- u is s with the same link, SRAM, configuration and SAFE_CMD, on the same tick and in the same role, and takes the same output words. -/
structure State.SameOutputs (s u : State) : Prop where
  tick : u.tick = s.tick
  link : u.link = s.link
  mem : u.mem = s.mem
  cfg : u.cfg = s.cfg
  tan : u.tan = s.tan
  cmd : u.safe.cmd = s.safe.cmd
  gate : ∀ n : IslandNo, u.isl[n].gate = s.isl[n].gate

section SameOutputs

variable {s u v : State}

theorem State.SameOutputs.refl : s.SameOutputs s := ⟨rfl, rfl, rfl, rfl, rfl, rfl, fun _ => rfl⟩

theorem State.SameOutputs.trans (h : s.SameOutputs u) (h' : u.SameOutputs v) : s.SameOutputs v :=
  ⟨h'.tick.trans h.tick, h'.link.trans h.link, h'.mem.trans h.mem, h'.cfg.trans h.cfg, h'.tan.trans h.tan, h'.cmd.trans h.cmd,
    fun n => (h'.gate n).trans (h.gate n)⟩

theorem sameOutputs_foldl {β : Type} (l : List β) (f : State → β → State) (hf : ∀ (v : State) b, v.SameOutputs (f v b)) (s : State) :
    s.SameOutputs (l.foldl f s) :=
  List.foldlRecOn (motive := fun v => State.SameOutputs s v) l f .refl fun _ hv b _ => hv.trans (hf _ b)

theorem State.SameOutputs.takesOut (h : s.SameOutputs u) (n : IslandNo) : u.takesOut n = s.takesOut n := by
  have hp : u.isl[n].power = s.isl[n].power := congrArg Prod.fst (h.gate n)
  unfold State.takesOut State.running
  rw [hp, h.tan]

theorem State.SameOutputs.prepped (h : s.SameOutputs u) (n : IslandNo) : u.prepped n = s.prepped n := by
  have hp : u.isl[n].prep = s.isl[n].prep := congrArg (fun g => g.2.1) (h.gate n)
  have hd : u.isl[n].down = s.isl[n].down := congrArg (fun g => g.2.2) (h.gate n)
  unfold State.prepped
  rw [hp, hd]

theorem State.SameOutputs.linesOf (h : s.SameOutputs u) (src : Nat) : linesOf u src = linesOf s src := by
  unfold Machine.linesOf
  rw [h.cfg]

/-- More rows owed change no output. -/
theorem sameOutputs_of_owesMore (h : s.OwesMore u) : s.SameOutputs u := by
  obtain ⟨d, rfl, -⟩ := h
  exact ⟨rfl, rfl, rfl, rfl, rfl, rfl, fun _ => rfl⟩

theorem sameOutputs_cancel (s : State) (c : Instr) : s.SameOutputs (s.cancel c) := ⟨rfl, rfl, rfl, rfl, rfl, rfl, fun _ => rfl⟩

theorem sameOutputs_modFlint (s : State) (ch : FlintChan) (f : FlintCh → FlintCh) : s.SameOutputs (s.modFlint ch f) := by
  cases ch <;> exact ⟨rfl, rfl, rfl, rfl, rfl, rfl, fun _ => rfl⟩

theorem sameOutputs_raiseAt (s : State) (stamp : Tick) (src m : Byte) (typ : BitVec 4) (kind : Byte) (a dt : Word) (inj : Bool) :
    s.SameOutputs (s.raiseAt stamp src m typ kind a dt inj) := by
  obtain ⟨d, f, h⟩ := s.raiseAt_eq stamp src m typ kind a dt inj
  rw [h]
  exact ⟨rfl, rfl, rfl, rfl, rfl, rfl, fun _ => rfl⟩

theorem sameOutputs_nvmNext (s : State) : s.SameOutputs s.nvmNext := by
  obtain ⟨d, v, h⟩ := s.nvmNext_eq
  rw [h]
  exact ⟨rfl, rfl, rfl, rfl, rfl, rfl, fun _ => rfl⟩

/-- The output stage of an island is no gate of its output words. -/
theorem State.SameOutputs.of_beside {n : IslandNo} (h : u.beside Island.unstaged n = s.beside Island.unstaged n) : s.SameOutputs u := by
  refine ⟨(congrArg State.tick h :), (congrArg State.link h :), (congrArg State.mem h :), (congrArg State.cfg h :),
    (congrArg State.tan h :), (congrArg (fun v : State => v.safe.cmd) h :), fun k => ?_⟩
  by_cases hk : k = n
  · subst hk
    exact (congrArg Island.gate (State.beside_same h) :)
  · rw [State.beside_other h hk]

theorem sameOutputs_laneUpdate (s : State) (n : IslandNo) : s.SameOutputs (s.laneUpdate n) := by
  have hi := s.laneUpdate_isl n
  rw [s.laneUpdate_eq]
  refine ⟨rfl, rfl, rfl, rfl, rfl, rfl, fun k => ?_⟩
  dsimp only
  rw [hi]
  by_cases hk : k = n
  · subst hk
    simp [Island.gate]
  · have hv : n.val ≠ k.val := fun e => hk (Fin.ext e.symm)
    simp [hv]

theorem sameOutputs_lanesUpdate (s : State) : s.SameOutputs s.lanesUpdate := sameOutputs_foldl _ _ sameOutputs_laneUpdate s

/-- The end of a SAFE mark changes no output word. -/
theorem sameOutputs_marksEnd (s : State) : s.SameOutputs s.marksEnd := by
  unfold State.marksEnd
  split
  · exact .refl
  · refine sameOutputs_foldl _ _ (fun v n => ?_) s
    split
    · exact .of_beside (v.demands_beside n _ fun _ => rfl)
    · exact .refl

/-- The latches change, and with them lanes and marks, but no output word. -/
theorem sameOutputs_safeEnds (s : State) (f : Safety → Safety) : State.SameOutputs { s with safe := f s.safe } (s.safeEnds f) :=
  (sameOutputs_lanesUpdate _).trans (sameOutputs_marksEnd _)

theorem sameOutputs_safeCmdWrite (s : State) (w : Word) :
    State.SameOutputs { s with safe := { s.safe with cmd := w.extractLsb' 0 16 } } (s.safeCmdWrite w) :=
  sameOutputs_safeEnds s fun z => { z with cmd := w.extractLsb' 0 16 }

theorem sameOutputs_modSafe (s : State) (f : Safety → Safety) (hf : (f s.safe).cmd = s.safe.cmd) : s.SameOutputs (s.modSafe f) := by
  have hsafe : s.SameOutputs { s with safe := f s.safe } := ⟨rfl, rfl, rfl, rfl, rfl, hf, fun _ => rfl⟩
  exact hsafe.trans (sameOutputs_lanesUpdate _)

/-- An expiry sets the Flint latch and owes a reset, and changes no output word (R281). -/
theorem sameOutputs_expire (s : State) (ch : FlintChan) (r : ExpReason) : s.SameOutputs (s.expire ch r) := by
  unfold State.expire
  extract_lets first e u f w x
  have hu : s.SameOutputs u := (sameOutputs_cancel s _).trans (sameOutputs_modFlint _ ch _)
  have hflint : u.SameOutputs { u with flint := w } := ⟨rfl, rfl, rfl, rfl, rfl, rfl, fun _ => rfl⟩
  have hx : s.SameOutputs x := ((hu.trans hflint).trans (sameOutputs_modSafe _ _ rfl)).trans (sameOutputs_raiseAt ..)
  exact (hx.trans (sameOutputs_of_owesMore (State.owesMore_ite _ (x.owesMore_owe 32 _) .rfl))).trans (sameOutputs_nvmNext _)

/-- A kick of the host channel, right or wrong, changes no output word (R278, R281). -/
theorem sameOutputs_kick (s : State) (key : BitVec 16) : s.SameOutputs (s.kick .link .host key) := by
  have hkick : s.kick .link .host key = s.judge .host key := if_pos rfl
  rw [hkick]
  unfold State.judge
  extract_lets q want t two qha
  split
  · exact .refl
  split
  · exact sameOutputs_expire s ..
  split
  · exact sameOutputs_expire s ..
  split
  · exact sameOutputs_expire s ..
  exact ((sameOutputs_modFlint s ..).trans (sameOutputs_cancel _ _)).trans (sameOutputs_of_owesMore (State.owesMore_owe _ _ _))

end SameOutputs

/-- The software sources of a CYCLE frame pulse (R81, R237). -/
def State.softPulses (s : State) (w : Word) : State :=
  (List.range 16).foldl (fun (s : State) (k : Nat) => if w.getLsbD k then s.pulse (0x0E0 + k) else s) s

theorem State.owesMore_softPulses (s : State) (w : Word) : s.OwesMore (s.softPulses w) :=
  State.owesMore_foldl _ _ (fun v _ => State.owesMore_ite _ (v.owesMore_pulse _) .rfl) s

/-- Each line of a software source whose bit is set is owed its pulse. -/
theorem State.mem_softPulses (s : State) {w : Word} {k : Nat} (hk : k < 16) (hw : w.getLsbD k = true) {l : BitVec 8}
    (hl : l ∈ linesOf s (0x0E0 + k)) : (s.tick, .eventPulse l) ∈ (s.softPulses w).due := by
  obtain ⟨as, bs, hrange⟩ := List.append_of_mem (List.mem_range.2 hk)
  have hstep (v : State) (b : Nat) : v.OwesMore (if w.getLsbD b then v.pulse (0x0E0 + b) else v) :=
    State.owesMore_ite _ (v.owesMore_pulse _) .rfl
  unfold State.softPulses
  rw [hrange, List.foldl_append, List.foldl_cons, if_pos hw]
  obtain ⟨d, hu, -⟩ := State.owesMore_foldl as _ hstep s
  rw [hu]
  exact (State.owesMore_foldl bs _ hstep _).due (State.mem_pulse { s with due := d } hl)

/-- The output words of a CYCLE frame go out (R82). -/
def State.outWords (s : State) (p : List Word) : State := islands.foldl (fun (s : State) (n : IslandNo) => s.outWord p n) s

theorem islandOnly_outWord (s : State) (p : List Word) (n : IslandNo) : IslandOnly s (s.outWord p n) n :=
  islandOnly_ite _ (islandOnly_modIsl s n fun i => { i with
    down := insertDown (newCell _ .link 0 0 (s.tick + 1)) i.down, wrun := nextRun _ .link 0 i.wrun }) .rfl

/-- Output words change the islands alone. -/
theorem State.outWords_eq (s : State) (p : List Word) : ∃ i, s.outWords p = { s with isl := i } := by
  unfold State.outWords
  refine List.foldlRecOn (motive := fun (v : State) => ∃ i, v = { s with isl := i }) islands _ ⟨s.isl, rfl⟩ ?_
  rintro _ ⟨i, rfl⟩ n _
  exact ite_keeps (P := fun v => ∃ j, v = { s with isl := j }) _ ⟨_, rfl⟩ ⟨i, rfl⟩

/-- An island of OUTMASK that takes output words is sent its own (R82). -/
theorem State.outWords_queues (s : State) (p : List Word) (n : IslandNo) (hm : (p.getD 0 0).getLsbD n.val = true)
    (ht : s.takesOut n = true) (hp : s.prepped n = false) : Queues (s.outWords p) n .link (.outword (p.getD (5 + n.val) 0)) := by
  refine foldl_islands (Before := fun v => v.isl[n] = s.isl[n] ∧ v.tan = s.tan)
    (After := fun v => Queues v n .link (.outword (p.getD (5 + n.val) 0))) n ⟨rfl, rfl⟩ (fun v k hk hv => ?_) (fun v hv => ?_)
    (fun v k hk hv => ?_)
  · obtain ⟨hu, hi⟩ := islandOnly_outWord v p k
    exact ⟨(hi n hk.symm).trans hv.1, (congrArg State.tan hu).trans hv.2⟩
  · obtain ⟨hisl, htan⟩ := hv
    have ht' : v.takesOut n = true := by rw [← ht, State.takesOut, State.running, hisl, htan]; rfl
    have hp' : v.prepped n = false := by rw [← hp, State.prepped, hisl]; rfl
    rw [State.outWord, hm, ht', hp']
    exact ⟨_, v.send_down n .link _ 0 0, rfl, rfl, rfl⟩
  · obtain ⟨-, hi⟩ := islandOnly_outWord v p k
    unfold Queues at hv ⊢
    rw [hi n hk.symm]
    exact hv

/-- The state in which SAFE_CMD and a kick of a CYCLE frame have acted (R81). -/
def State.cycleCommands (s : State) (p : List Word) : State :=
  let u := if (p.getD 1 0).getLsbD 31 then s.safeCmdWrite (p.getD 1 0) else s
  if (p.getD 2 0).getLsbD 31 then u.kick .link .host ((p.getD 2 0).extractLsb' 0 16) else u

theorem State.cycleApply_eq (s : State) (p : List Word) :
    s.cycleApply p = (((s.cycleCommands p).softPulses (p.getD 3 0)).outWords p).pulse 0x121 := rfl

/-- SAFE_CMD after its word of a CYCLE frame (R81). -/
def State.cycleCmd (s : State) (p : List Word) : BitVec 16 :=
  if (p.getD 1 0).getLsbD 31 then (p.getD 1 0).extractLsb' 0 16 else s.safe.cmd

theorem State.cycleCommands_outputs (s : State) (p : List Word) :
    State.SameOutputs { s with safe := { s.safe with cmd := s.cycleCmd p } } (s.cycleCommands p) := by
  unfold State.cycleCommands State.cycleCmd
  have hcmd : State.SameOutputs { s with safe := { s.safe with
      cmd := if (p.getD 1 0).getLsbD 31 then (p.getD 1 0).extractLsb' 0 16 else s.safe.cmd } }
      (if (p.getD 1 0).getLsbD 31 then s.safeCmdWrite (p.getD 1 0) else s) := by
    split
    · exact sameOutputs_safeCmdWrite s _
    · exact .refl
  exact ite_keeps _ (hcmd.trans (sameOutputs_kick _ _)) hcmd

/-- Output words and the pulse of CYCLE_APPLIED behind them (R82, R237). -/
theorem State.outWords_applied (s : State) (p : List Word) :
    let u := (s.outWords p).pulse 0x121
    u.link = s.link ∧ u.mem = s.mem ∧ u.cfg = s.cfg ∧ u.safe = s.safe ∧ s.due ⊆ u.due ∧
    (∀ n : IslandNo, (p.getD 0 0).getLsbD n.val = true → s.takesOut n = true → s.prepped n = false →
      Queues u n .link (.outword (p.getD (5 + n.val) 0))) ∧
    ∀ l ∈ linesOf s 0x121, (s.tick, .eventPulse l) ∈ u.due := by
  obtain ⟨i, hi⟩ := s.outWords_eq p
  have hqueues := s.outWords_queues p
  rw [hi] at hqueues ⊢
  have hpulse (l : BitVec 8) (hl : l ∈ linesOf s 0x121) := State.mem_pulse { s with isl := i } hl
  obtain ⟨d, hd, hdue⟩ := State.owesMore_pulse { s with isl := i } 0x121
  rw [hd] at hpulse ⊢
  exact ⟨rfl, rfl, rfl, rfl, hdue, hqueues, hpulse⟩

/-- What a CYCLE frame applies (R81, R82, R237). -/
theorem State.cycleApply_spec (s : State) (p : List Word) :
    let u := s.cycleApply p
    u.link = s.link ∧ u.mem = s.mem ∧ u.cfg = s.cfg ∧ u.safe.cmd = s.cycleCmd p ∧
    (∀ n : IslandNo, (p.getD 0 0).getLsbD n.val = true → s.takesOut n = true → s.prepped n = false →
      Queues u n .link (.outword (p.getD (5 + n.val) 0))) ∧
    (∀ (k : Fin 16) (l : BitVec 8), (p.getD 3 0).getLsbD k.val = true → l ∈ linesOf s (0x0E0 + k.val) →
      (s.tick, .eventPulse l) ∈ u.due) ∧
    ∀ l ∈ linesOf s 0x121, (s.tick, .eventPulse l) ∈ u.due := by
  have hcmds := s.cycleCommands_outputs p
  have hsoft := hcmds.trans (sameOutputs_of_owesMore ((s.cycleCommands p).owesMore_softPulses (p.getD 3 0)))
  obtain ⟨hlink, hmem, hcfg, hsafe, hdue, hqueues, happlied⟩ := ((s.cycleCommands p).softPulses (p.getD 3 0)).outWords_applied p
  rw [State.cycleApply_eq]
  refine ⟨hlink.trans hsoft.link, hmem.trans hsoft.mem, hcfg.trans hsoft.cfg, (congrArg Safety.cmd hsafe).trans hsoft.cmd,
    fun n hm ht hp => hqueues n hm ((hsoft.takesOut n).trans ht) ((hsoft.prepped n).trans hp), fun k l hk hl => hdue ?_, fun l hl => ?_⟩
  · have htick : (s.cycleCommands p).tick = s.tick := hcmds.tick
    rw [← htick]
    exact State.mem_softPulses _ k.isLt hk ((hcmds.linesOf _).symm ▸ hl)
  · have htick : ((s.cycleCommands p).softPulses (p.getD 3 0)).tick = s.tick := hsoft.tick
    rw [← htick]
    exact happlied l ((hsoft.linesOf _).symm ▸ hl)

/-- A good CYCLE frame applies its words and shows its result (R81, R85). -/
theorem exec_cycle_good {s : State} {p : List Word} {f : CurFrame} (hw : s.awake = true) (hf : s.link.cur = some f)
    (ht : frameType f.hdr = 1) (hl : frameLen f.hdr = p.length) (he : s.effectTick f ≤ s.tick) (hv : f.void = false)
    (ha : s.link.loopAct ≠ 2) : exec (.cycle p (crc32c (f.hdr :: p))) s =
      .next (((s.frameTaken (.cycle p (crc32c (f.hdr :: p))) f p).cycleApply p).modLink (fun l =>
        { l with pseq := frameSeq f.hdr, pres := if f.shortTail then 5 else 0 })) := by
  rw [exec_cycle, execCycle, State.frameEnd_take hw hf ht hl he hv (.inl ha), State.frameDone_zero]
  rfl

/-- Settles O49: a good CYCLE frame is taken on its effect tick, and applies its words one part after the other. -/
theorem cycleFrameApplies : Obligations.CycleFrameApplies := by
  unfold Obligations.CycleFrameApplies
  intro s p f hw hf ht hl hv ha he
  obtain ⟨hlink, hmem, hcfg, hcmd, hqueues, hsoft, happlied⟩ :=
    (s.frameTaken (.cycle p (crc32c (f.hdr :: p))) f p).cycleApply_spec p
  refine ⟨_, exec_cycle_good hw hf ht hl he hv ha, ?_⟩
  generalize State.cycleApply _ p = u at hlink hmem hcfg hcmd hqueues hsoft happlied ⊢
  exact ⟨rfl, rfl, (congrArg Link.cur hlink :), (congrArg Link.bad hlink :), hqueues, hcmd, hsoft, happlied, hmem, hcfg⟩

end Sys2Proof.Machine

/-! # The slate: sessions, and the key operations -/

namespace Sys2Proof.Machine

section Sessions

variable {s : State} {m : Master}

/-! ## Whose commands the slate engine takes (R113) -/

theorem slateCmd_mine (hm : m = .link ∨ ∃ t, m = .thread t) (ho : s.slate.owner = none ∨ s.slate.owner = some m) (abort : Bool)
    (f : State → State) : s.slateCmd m abort f = f s := by
  rcases hm with rfl | ⟨t, rfl⟩
  · exact if_pos (ho.imp_right .inl)
  · exact if_pos ho

/-- ABORT of the link goes through where another master owns the session. -/
theorem slateCmd_linkAbort (hst : s.slate.st ≠ .committing) (f : State → State) : s.slateCmd .link true f = f s :=
  if_pos (.inr (.inr ⟨rfl, hst⟩))

theorem slateCmd_other (h : ¬ (m = .link ∨ ∃ t, m = .thread t) ∨ ¬ (s.slate.owner = none ∨ s.slate.owner = some m)) (f : State → State) :
    s.slateCmd m false f = s.accFault .master m 2 0x1000 := by
  cases m with
  | link =>
    have ho := h.resolve_left (not_not_intro (.inl rfl))
    exact if_neg fun hcase => hcase.elim (fun hn => ho (.inl hn)) fun hcase => hcase.elim (fun hs => ho (.inr hs)) fun ha => nomatch ha.1
  | thread t => exact if_neg (h.resolve_left (not_not_intro (.inr ⟨t, rfl⟩)))
  | _ => rfl

/-- What another master's command leaves: the slate as it stands, and ACC_MASTER (R288). -/
def State.Turned (s u : State) (m : Master) : Prop := u.slate = s.slate ∧ Raises s u 0x09 (mid m) 0

theorem turned_accFault (s : State) (m : Master) (typ : BitVec 4) (a : Nat) : s.Turned (s.accFault .master m typ a) m := by
  refine ⟨?_, State.accFault_raises ..⟩
  obtain ⟨d, f, he⟩ := s.accFault_eq .master m typ a
  rw [he]

/-- A control command runs f where its own entry of the calendar, if it has one, is settled. -/
def SlateControl (c : Instr) (s : State) (m : Master) (abort : Bool) (f : State → State) : Prop :=
  ∃ d, exec c s = .next (({ s with due := d } : State).slateCmd m abort f)

section Control

variable {c : Instr} {abort : Bool} {f : State → State}

theorem SlateControl.mine (h : SlateControl c s m abort f) (hm : m = .link ∨ ∃ t, m = .thread t)
    (ho : s.slate.owner = none ∨ s.slate.owner = some m) {P : State → Prop} (hp : ∀ d, P (f { s with due := d })) : Completes c s P := by
  obtain ⟨d, he⟩ := h
  exact ⟨_, he, by rw [slateCmd_mine (s := { s with due := d }) hm ho]; exact hp d⟩

/-- A command that R114 does not list for the state sets BADCMD alone. -/
theorem SlateControl.bad (h : SlateControl c s m abort f) (hm : m = .link ∨ ∃ t, m = .thread t)
    (ho : s.slate.owner = none ∨ s.slate.owner = some m) (hf : ∀ d, f { s with due := d } = ({ s with due := d } : State).badCmd) :
    Completes c s (fun u => u = { s with due := u.due, slate := { s.slate with badcmd := true } }) :=
  h.mine hm ho fun d => by rw [hf d]; rfl

theorem SlateControl.other (h : SlateControl c s m false f)
    (hno : ¬ (m = .link ∨ ∃ t, m = .thread t) ∨ ¬ (s.slate.owner = none ∨ s.slate.owner = some m)) :
    Completes c s (fun u => s.Turned u m) := by
  obtain ⟨d, he⟩ := h
  refine ⟨_, he, ?_⟩
  rw [slateCmd_other (s := { s with due := d }) hno]
  exact turned_accFault { s with due := d } m 2 0x1000

end Control

variable (hc : s.clocked = true)

include hc

theorem slateOpen_control (m : Master) : SlateControl (.slateOpen m) s m false (fun s => s.slateOpen m) :=
  ⟨s.due, (exec_slateOpen m s).trans (State.act_on _ hc)⟩

theorem slateLoadNvm_control (m : Master) : SlateControl (.slateLoadNvm m) s m false (fun s => s.slateLoadNvm m) :=
  ⟨_, (exec_slateLoadNvm m s).trans (State.act_on _ hc)⟩

theorem slateVerify_control (m : Master) : SlateControl (.slateVerify m) s m false State.slateVerify :=
  ⟨_, (exec_slateVerify m s).trans (State.act_on _ hc)⟩

theorem slateCommit_control (m : Master) : SlateControl (.slateCommit m) s m false State.slateCommit :=
  ⟨_, (exec_slateCommit m s).trans (State.act_on _ hc)⟩

theorem slateAbort_control (m : Master) : SlateControl (.slateAbort m) s m true State.slateAbort :=
  ⟨s.due, (exec_slateAbort m s).trans (State.act_on _ hc)⟩

/-- The engine turns away every command but ABORT that its session's owner does not give. -/
theorem slateControl_other (hno : ¬ (m = .link ∨ ∃ t, m = .thread t) ∨ ¬ (s.slate.owner = none ∨ s.slate.owner = some m)) {c : Instr}
    (hmem : c ∈ [Instr.slateOpen m, .slateLoadNvm m, .slateVerify m, .slateCommit m]) : Completes c s (fun u => s.Turned u m) := by
  simp only [List.mem_cons, List.not_mem_nil, or_false] at hmem
  rcases hmem with rfl | rfl | rfl | rfl
  · exact (slateOpen_control hc m).other hno
  · exact (slateLoadNvm_control hc m).other hno
  · exact (slateVerify_control hc m).other hno
  · exact (slateCommit_control hc m).other hno

/-! ## Opening, VERIFY and ABORT (R114) -/

section Mine

variable (hm : m = .link ∨ ∃ t, m = .thread t) (ho : s.slate.owner = none ∨ s.slate.owner = some m)

include hm ho

theorem slateOpen_opens (hst : s.slate.st = .empty) : exec (.slateOpen m) s = .next { s with slate :=
    { s.slate with st := .loading, owner := some m, staged := [], total := 0, err := 0, errSec := 0, badcmd := false, fromNvm := false } } := by
  rw [exec_slateOpen, execSlateOpen, State.act_on _ hc, slateCmd_mine hm ho, State.slateOpen, if_pos hst]
  rfl

/-- LOAD_NVM opens a session that is loaded at 2 tk a word. -/
theorem slateLoadNvm_opens (hst : s.slate.st = .empty) : Completes (.slateLoadNvm m) s (fun u =>
    u = { s with due := u.due, slate :=
      { s.slate with st := .loading, owner := some m, staged := [], total := 0, err := 0, errSec := 0, badcmd := false, fromNvm := true,
                     nvmFrom := s.slate.nvmaddr, loadAt := s.tick } } ∧
    (s.tick + BitVec.ofNat 64 (2 * u.nvmSlateLen), .nvmLoadComplete true) ∈ u.due) := by
  refine (slateLoadNvm_control hc m).mine hm ho fun d => ?_
  rw [State.slateLoadNvm, if_pos (show ({ s with due := d } : State).slate.st = .empty from hst)]
  refine ⟨State.owe_eq .., ?_⟩
  rw [show State.nvmSlateLen (State.owe _ _ _) = _ from congrArg State.nvmSlateLen (State.owe_eq ..)]
  exact State.mem_owe_self ..

theorem slateVerify_begins (hst : s.slate.st = .loaded) : Completes (.slateVerify m) s (fun u =>
    u = { s with due := u.due, slate := { s.slate with st := .verifying, badcmd := false } } ∧
    (s.tick + BitVec.ofNat 64 s.slate.verifyTk, .verifyComplete) ∈ u.due) := by
  refine (slateVerify_control hc m).mine hm ho fun d => ?_
  rw [State.slateVerify, if_pos (show ({ s with due := d } : State).slate.st = .loaded from hst)]
  exact ⟨State.owe_eq .., State.mem_owe_self ..⟩

theorem slateOpening_bad (hst : s.slate.st ≠ .empty) {c : Instr} (hmem : c ∈ [Instr.slateOpen m, .slateLoadNvm m]) :
    Completes c s (fun u => u = { s with due := u.due, slate := { s.slate with badcmd := true } }) := by
  simp only [List.mem_cons, List.not_mem_nil, or_false] at hmem
  rcases hmem with rfl | rfl
  · exact (slateOpen_control hc m).bad hm ho fun d => if_neg hst
  · exact (slateLoadNvm_control hc m).bad hm ho fun d => if_neg hst

theorem slateVerify_bad (hst : s.slate.st ≠ .loaded) :
    Completes (.slateVerify m) s (fun u => u = { s with due := u.due, slate := { s.slate with badcmd := true } }) :=
  (slateVerify_control hc m).bad hm ho fun _ => if_neg hst

theorem slateAbort_bad (hst : s.slate.st = .committing ∨ s.slate.st = .empty) :
    Completes (.slateAbort m) s (fun u => u = { s with due := u.due, slate := { s.slate with badcmd := true } }) :=
  (slateAbort_control hc m).bad hm ho fun _ => if_pos hst

end Mine

/-- ABORT of the owner or of the link discards the slate (R113, R114). -/
theorem slateAbort_discards
    (hby : ((m = .link ∨ ∃ t, m = .thread t) ∧ (s.slate.owner = none ∨ s.slate.owner = some m)) ∨ m = .link)
    (hst : s.slate.st ≠ .committing) (he : s.slate.st ≠ .empty) : Completes (.slateAbort m) s (fun u => u = { s with due := u.due, slate :=
      { s.slate with st := .empty, owner := none, staged := [], total := 0, fromNvm := false, badcmd := false } }) := by
  refine ⟨s.slateAbort, ?_, ?_⟩
  · rw [exec_slateAbort, execSlateAbort, State.act_on _ hc]
    rcases hby with ⟨hm, ho⟩ | rfl
    · rw [slateCmd_mine hm ho]
    · rw [slateCmd_linkAbort hst]
  · rw [State.slateAbort, if_neg (not_or_intro hst he)]
    rfl

/-! ## The end of VERIFY (R115-R117) -/

theorem verifyComplete_verified (hst : s.slate.st = .verifying) (hf : s.slateFault s.slate.staged = none) :
    let x := stage s.member (sections s.slate.staged.length (s.slate.staged.drop 8)).1
    Completes .verifyComplete s (fun u => u = { s with due := u.due, slate := u.slate } ∧ u.slate.st = .verified ∧ u.slate.err = 0 ∧
      u.slate.errSec = 0 ∧ u.slate.staged = s.slate.staged.take 8 ++ x.image.reverse ∧
      u.slate.clamps = BitVec.ofNat 16 (min 0xFFFF x.clamps)) := by
  intro x
  refine ⟨_, (exec_verifyComplete s).trans (State.act_on _ hc), ?_⟩
  have hst' : (s.settle .verifyComplete).slate.st = .verifying := hst
  have hf' : (s.settle .verifyComplete).slateFault (s.settle .verifyComplete).slate.staged = none := hf
  dsimp only
  rw [if_pos hst', hf']
  exact ⟨rfl, rfl, rfl, rfl, rfl, rfl⟩

theorem verifyComplete_fails (hst : s.slate.st = .verifying) {e : Nat × Nat} (hf : s.slateFault s.slate.staged = some e) :
    Completes .verifyComplete s (fun u => u = { s with due := u.due, slate :=
      { s.slate with st := .failed, err := BitVec.ofNat 8 e.1, errSec := BitVec.ofNat 8 e.2 } }) := by
  refine ⟨_, (exec_verifyComplete s).trans (State.act_on _ hc), ?_⟩
  have hst' : (s.settle .verifyComplete).slate.st = .verifying := hst
  have hf' : (s.settle .verifyComplete).slateFault (s.settle .verifyComplete).slate.staged = some e := hf
  dsimp only
  rw [if_pos hst', hf']
  rfl

end Sessions

/-! ## Words that are staged (R114) -/

section Staging

variable {s : State}

/-- The slate after a word that does not fail the session: word 2 is TOTAL_LEN, and the last one ends the loading. -/
def Slate.taken (z : Slate) (w : Word) : Slate :=
  { z with staged := z.staged ++ [w], total := if z.staged.length = 2 then w.toNat else z.total,
           st := if 3 ≤ z.staged.length ∧ z.staged.length + 1 = z.total then .loaded else z.st }

theorem Slate.taken_early {z : Slate} (h : z.staged.length < 2) (w : Word) : z.taken w = { z with staged := z.staged ++ [w] } := by
  unfold Slate.taken
  rw [if_neg (by omega), if_neg (by omega)]

theorem Slate.taken_total {z : Slate} (h : z.staged.length = 2) (w : Word) :
    z.taken w = { z with staged := z.staged ++ [w], total := w.toNat } := by
  unfold Slate.taken
  rw [if_pos h, if_neg (by omega)]

theorem Slate.taken_later {z : Slate} (h : 3 ≤ z.staged.length) (w : Word) :
    z.taken w = { z with staged := z.staged ++ [w], st := if z.staged.length + 1 = z.total then .loaded else z.st } := by
  have h2 : z.staged.length ≠ 2 := Nat.ne_of_gt h
  simp only [Slate.taken, h, h2, true_and, if_false]

theorem slateTake_legal (s : State) (w : Word) (hw : s.slate.staged.length = 2 → 8 ≤ w.toNat ∧ w.toNat ≤ 16384) :
    s.slateTake w = { s with slate := s.slate.taken w } := by
  unfold State.slateTake State.modSlate Slate.taken
  simp only [List.length_append, List.length_singleton]
  by_cases h2 : s.slate.staged.length = 2
  · have hlen := hw h2
    simp [h2, show ¬ (w.toNat < 8 ∨ 16384 < w.toNat) by omega, show ¬ 3 = w.toNat by omega]
  · by_cases h3 : 3 ≤ s.slate.staged.length ∧ s.slate.staged.length + 1 = s.slate.total
    · rw [if_neg (by omega), if_neg h2, if_pos (by omega), if_pos h3]
    · rw [if_neg (by omega), if_neg h2, if_neg (by omega), if_neg h3]

theorem slateTake_illegal (h2 : s.slate.staged.length = 2) {w : Word} (hw : w.toNat < 8 ∨ 16384 < w.toNat) :
    s.slateTake w = { s with due := (s.cancel (.nvmLoadComplete true)).due, slate :=
      { s.slate with staged := s.slate.staged ++ [w], total := w.toNat, st := .failed, err := 4, errSec := 0xFF } } := by
  unfold State.slateTake State.modSlate
  simp only [List.length_append, List.length_singleton, h2, hw, if_true, true_and]
  rfl

/-! ### Words of the owner and of channels -/

/-- Staging a word makes the slate y, and changes nothing beside it but the calendar. -/
def State.Stages (s : State) (w : Word) (y : Slate) : Prop := s.slateStage w = { s with due := (s.slateStage w).due, slate := y }

theorem slateStage_loading (hst : s.slate.st = .loading) (hn : s.slate.fromNvm = false) (w : Word) : s.slateStage w = s.slateTake w := by
  rw [State.slateStage, hst]
  exact if_neg (by simp [hn])

theorem stages_legal (hst : s.slate.st = .loading) (hn : s.slate.fromNvm = false) {w : Word}
    (hw : s.slate.staged.length = 2 → 8 ≤ w.toNat ∧ w.toNat ≤ 16384) : s.Stages w (s.slate.taken w) := by
  rw [State.Stages, slateStage_loading hst hn, slateTake_legal s w hw]

theorem stages_illegal (hst : s.slate.st = .loading) (hn : s.slate.fromNvm = false) (h2 : s.slate.staged.length = 2) {w : Word}
    (hw : w.toNat < 8 ∨ 16384 < w.toNat) : s.Stages w
      { s.slate with staged := s.slate.staged ++ [w], total := w.toNat, st := .failed, err := 4, errSec := 0xFF } := by
  rw [State.Stages, slateStage_loading hst hn, slateTake_illegal h2 hw]

/-- A word behind the last one fails the session. -/
theorem stages_overrun (hst : s.slate.st = .loaded) (w : Word) : s.Stages w { s.slate with st := .failed, err := 4, errSec := 0xFF } := by
  rw [State.Stages, State.slateStage, hst]
  rfl

theorem slateLoad_stages (hc : s.clocked = true) {m k : Master} (hk : k ∈ [m, .dma 0]) (ho : s.slate.owner = some m) {w : Word} {y : Slate}
    (h : s.Stages w y) : Completes (.slateLoad k w) s (fun u => u = { s with due := u.due, slate := y }) := by
  have hmay : s.mayStage k = true := by
    simp only [List.mem_cons, List.not_mem_nil, or_false] at hk
    rcases hk with rfl | rfl
    · cases k <;> simp [State.mayStage, ho]
    · rfl
  refine ⟨s.slateStage w, ?_, h⟩
  rw [exec_slateLoad, execSlateLoad, State.act_on _ hc, if_pos hmay]

theorem slateLoad_other (hc : s.clocked = true) {m : Master} (hm : ∀ c, m ≠ .dma c) (ho : s.slate.owner ≠ some m) (w : Word) :
    Completes (.slateLoad m w) s (fun u => s.Turned u m) := by
  have hmay : s.mayStage m ≠ true := by
    cases m with
    | dma c => exact absurd rfl (hm c)
    | _ => simp [State.mayStage, ho]
  refine ⟨_, by rw [exec_slateLoad, execSlateLoad, State.act_on _ hc, if_neg hmay], turned_accFault s m 2 0x1008⟩

/-! ### Words of the store -/

/-- What a read of LOAD_NVM that fails leaves: the session failed with NVM, and NVM_ERR (R114, R288). -/
def State.Unread (s u : State) : Prop :=
  u = { s with due := u.due, fault := u.fault, evt := u.evt, slate := { s.slate with st := .failed, err := 13, errSec := 0xFF } } ∧
  Raises s u 0x20 (mid .nvm) 0

theorem unread_nvmReadFails (s : State) : s.Unread s.nvmReadFails := by
  refine ⟨?_, State.raiseAt_raises ..⟩
  obtain ⟨d, f, he⟩ := (s.slateFail 13 0xFF).raiseBy_eq 0x20 .nvm 0 0 0
  rw [State.nvmReadFails, he]
  rfl

/-- A session that loads no more words is left as it is. -/
theorem nvmStages_stopped (k : Nat) (hst : s.slate.st ≠ .loading) : s.nvmStages k = s := by
  induction k with
  | zero => rfl
  | succ k ih =>
    have hstay : s.nvmStage = s := if_neg fun h => hst h.1
    rw [State.nvmStages, hstay, ih]

/-- The last of k + 1 words is taken behind the first k. -/
theorem nvmStages_succ (k : Nat) (s : State) : s.nvmStages (k + 1) = (s.nvmStages k).nvmStage := by
  induction k generalizing s with
  | zero => rfl
  | succ k ih => exact ih s.nvmStage

theorem nvmStage_takes (hst : s.slate.st = .loading) (hn : s.slate.fromNvm = true)
    (hin : 4 * (s.slate.nvmFrom.toNat + s.slate.staged.length) + 4 ≤ s.member.nvmBytes)
    (hfree : s.flashBusy (4 * (s.slate.nvmFrom.toNat + s.slate.staged.length)) = false) :
    s.nvmStage = s.slateTake (s.nvmSlateWord s.slate.staged.length) := by
  rw [State.nvmStage, if_pos ⟨hst, hn⟩]
  exact if_neg (by simp [hfree]; omega)

theorem nvmStage_busy (hst : s.slate.st = .loading) (hn : s.slate.fromNvm = true)
    (hbusy : s.flashBusy (4 * (s.slate.nvmFrom.toNat + s.slate.staged.length)) = true) : s.nvmStage = s.nvmReadFails := by
  rw [State.nvmStage, if_pos ⟨hst, hn⟩]
  exact if_pos (by simp [hbusy])

/-- The slate after k more words of the store. -/
def State.nvmLoaded (s : State) (k : Nat) : Slate :=
  { s.slate with staged := s.slate.staged ++ (List.range' s.slate.staged.length k).map s.nvmSlateWord,
                 total := if s.slate.staged.length + k < 3 then s.slate.total else s.nvmSlateLen,
                 st := if s.slate.staged.length + k = s.nvmSlateLen then .loaded else .loading }

theorem length_nvmLoaded (s : State) (k : Nat) : (s.nvmLoaded k).staged.length = s.slate.staged.length + k := by
  simp [State.nvmLoaded]

theorem nvmLoaded_zero (hst : s.slate.st = .loading) (hless : s.slate.staged.length < s.nvmSlateLen)
    (htotal : 3 ≤ s.slate.staged.length → s.slate.total = s.nvmSlateLen) : s.nvmLoaded 0 = s.slate := by
  have htot : (if s.slate.staged.length + 0 < 3 then s.slate.total else s.nvmSlateLen) = s.slate.total := by
    split_ifs with h
    · rfl
    · exact (htotal (by omega)).symm
  have hload : (if s.slate.staged.length + 0 = s.nvmSlateLen then SlateState.loaded else .loading) = s.slate.st := by
    rw [if_neg (by omega), hst]
  unfold State.nvmLoaded
  rw [htot, hload, List.range'_zero, List.map_nil, List.append_nil]

/-- A slate of another length than three is as long as its word 2 says, which is legal. -/
theorem nvmSlateLen_legal (h : s.nvmSlateLen ≠ 3) :
    s.nvmSlateLen = (s.nvmSlateWord 2).toNat ∧ 8 ≤ s.nvmSlateLen ∧ s.nvmSlateLen ≤ 16384 := by
  unfold State.nvmSlateLen at h ⊢
  dsimp only at h ⊢
  split_ifs at h ⊢ with ht
  · exact absurd rfl h
  · exact ⟨rfl, by omega⟩

section Whole

variable (hlen : s.nvmSlateLen ≠ 3)

include hlen

/-- One more word behind k, none of them the last. -/
theorem nvmLoaded_taken {k : Nat} (hk : s.slate.staged.length + k < s.nvmSlateLen) :
    (s.nvmLoaded k).taken (s.nvmSlateWord (s.slate.staged.length + k)) = s.nvmLoaded (k + 1) := by
  obtain ⟨hword, hmin, -⟩ := nvmSlateLen_legal hlen
  have hstaged : (s.nvmLoaded k).staged ++ [s.nvmSlateWord (s.slate.staged.length + k)] = (s.nvmLoaded (k + 1)).staged := by
    simp [State.nvmLoaded, List.range'_1_concat]
  have htotal : (if s.slate.staged.length + k = 2 then (s.nvmSlateWord (s.slate.staged.length + k)).toNat else (s.nvmLoaded k).total) =
      (s.nvmLoaded (k + 1)).total := by
    by_cases h2 : s.slate.staged.length + k = 2
    · rw [if_pos h2, h2, ← hword]
      exact (if_neg (by omega)).symm
    · rw [if_neg h2]
      exact if_congr (by omega) rfl rfl
  have hst : (if 3 ≤ s.slate.staged.length + k ∧ s.slate.staged.length + k + 1 = (s.nvmLoaded k).total then SlateState.loaded
      else (s.nvmLoaded k).st) = (s.nvmLoaded (k + 1)).st := by
    rw [show (s.nvmLoaded k).st = .loading from if_neg (by omega)]
    refine if_congr ?_ rfl rfl
    simp only [State.nvmLoaded]
    split_ifs <;> omega
  unfold Slate.taken
  rw [length_nvmLoaded, hstaged, htotal, hst]
  rfl

variable (hn : s.slate.fromNvm = true) (hin : 4 * (s.slate.nvmFrom.toNat + s.nvmSlateLen) ≤ s.member.nvmBytes)
  (hfree : ∀ i < s.nvmSlateLen, s.flashBusy (4 * (s.slate.nvmFrom.toNat + i)) = false)

include hn hin hfree

theorem nvmLoaded_nvmStage {k : Nat} (hk : s.slate.staged.length + k < s.nvmSlateLen) :
    ({ s with slate := s.nvmLoaded k } : State).nvmStage = { s with slate := s.nvmLoaded (k + 1) } := by
  have hload : ({ s with slate := s.nvmLoaded k } : State).slate.st = .loading := if_neg (by omega)
  have hat : ({ s with slate := s.nvmLoaded k } : State).slate.staged.length = s.slate.staged.length + k := length_nvmLoaded s k
  have hend : 4 * (s.slate.nvmFrom.toNat + (s.slate.staged.length + k)) + 4 ≤ s.member.nvmBytes := by omega
  rw [nvmStage_takes hload hn (by rw [hat]; exact hend) (by rw [hat]; exact hfree _ hk), hat, slateTake_legal, ← nvmLoaded_taken hlen hk]
  · rfl
  · intro h2
    rw [← hat, h2]
    obtain ⟨he, hrange⟩ := nvmSlateLen_legal hlen
    exact he ▸ hrange

/-- The words of a slate that lies in the store, in sectors at rest, are staged one after another. -/
theorem nvmStages_loads (hst : s.slate.st = .loading) (hless : s.slate.staged.length < s.nvmSlateLen)
    (htotal : 3 ≤ s.slate.staged.length → s.slate.total = s.nvmSlateLen) (k : Nat) (hk : s.slate.staged.length + k ≤ s.nvmSlateLen) :
    s.nvmStages k = { s with slate := s.nvmLoaded k } := by
  induction k with
  | zero => rw [nvmLoaded_zero hst hless htotal]; rfl
  | succ k ih => rw [nvmStages_succ, ih (by omega), nvmLoaded_nvmStage hlen hn hin hfree (by omega)]

end Whole

/-- NVM_LOAD_COMPLETE stages what is still missing. -/
theorem exec_nvmLoadComplete_good (hc : s.clocked = true) (hst : s.slate.st = .loading) (hn : s.slate.fromNvm = true) :
    ∃ d, exec (.nvmLoadComplete true) s = .next (({ s with due := d } : State).nvmStages (s.nvmSlateLen - s.slate.staged.length)) := by
  refine ⟨(s.cancel (.nvmLoadComplete true)).due, ?_⟩
  rw [exec_nvmLoadComplete, execNvmLoadComplete, State.act_on _ hc]
  dsimp only
  exact congrArg Host.Outcome.next ((if_pos ⟨hst, hn⟩).trans (if_pos rfl))

section Complete

variable (hc : s.clocked = true) (hst : s.slate.st = .loading) (hn : s.slate.fromNvm = true)

include hc hst hn

theorem nvmLoadComplete_unread : Completes (.nvmLoadComplete false) s s.Unread := by
  refine ⟨(s.cancel (.nvmLoadComplete true)).nvmReadFails, ?_, unread_nvmReadFails (s.cancel (.nvmLoadComplete true))⟩
  rw [exec_nvmLoadComplete, execNvmLoadComplete, State.act_on _ hc]
  dsimp only
  exact congrArg Host.Outcome.next ((if_pos ⟨hst, hn⟩).trans (if_neg Bool.false_ne_true))

/-- A word in a sector that is being erased or programmed fails the session (R307). -/
theorem nvmLoadComplete_busy (hless : s.slate.staged.length < s.nvmSlateLen)
    (hbusy : s.flashBusy (4 * (s.slate.nvmFrom.toNat + s.slate.staged.length)) = true) : Completes (.nvmLoadComplete true) s s.Unread := by
  obtain ⟨d, he⟩ := exec_nvmLoadComplete_good hc hst hn
  refine ⟨_, he, ?_⟩
  obtain ⟨k, hk⟩ : ∃ k, s.nvmSlateLen - s.slate.staged.length = k + 1 := ⟨s.nvmSlateLen - s.slate.staged.length - 1, by omega⟩
  have hfail := unread_nvmReadFails { s with due := d }
  have hfailed : ({ s with due := d } : State).nvmReadFails.slate.st ≠ .loading := by
    rw [hfail.1]
    exact SlateState.noConfusion
  rw [hk, State.nvmStages, nvmStage_busy (s := { s with due := d }) hst hn hbusy, nvmStages_stopped k hfailed]
  exact hfail

theorem nvmLoadComplete_loads (hlen : s.nvmSlateLen ≠ 3) (hless : s.slate.staged.length < s.nvmSlateLen)
    (htotal : 3 ≤ s.slate.staged.length → s.slate.total = s.nvmSlateLen)
    (hin : 4 * (s.slate.nvmFrom.toNat + s.nvmSlateLen) ≤ s.member.nvmBytes)
    (hfree : ∀ i < s.nvmSlateLen, s.flashBusy (4 * (s.slate.nvmFrom.toNat + i)) = false) : Completes (.nvmLoadComplete true) s (fun u =>
      u = { s with due := u.due, slate := u.slate } ∧ u.slate.st = .loaded ∧ u.slate.staged.length = s.nvmSlateLen ∧
      u.slate.staged.take s.slate.staged.length = s.slate.staged ∧
      ∀ i : Nat, s.slate.staged.length ≤ i → i < s.nvmSlateLen →
        u.slate.staged.getD i 0 = s.windowWord (4 * (s.slate.nvmFrom.toNat + i))) := by
  obtain ⟨d, he⟩ := exec_nvmLoadComplete_good hc hst hn
  have hend : s.slate.staged.length + (s.nvmSlateLen - s.slate.staged.length) = s.nvmSlateLen := by omega
  refine ⟨_, he, ?_⟩
  rw [nvmStages_loads (s := { s with due := d }) hlen hn hin hfree hst hless htotal _ hend.le]
  refine ⟨rfl, if_pos hend, (length_nvmLoaded s _).trans hend, List.take_left, fun i hi hlt => ?_⟩
  show (s.nvmLoaded _).staged.getD i 0 = s.nvmSlateWord i
  rw [State.nvmLoaded, List.getD_append_right _ _ _ _ hi, List.getD_eq_getElem _ _ (by simp; omega)]
  simp [hi]

end Complete

end Staging

/-- Settles O52: each control command by who may give it and in which state, each word by its place, a load from the store word by word. -/
theorem slateSessions : Obligations.SlateSessions := by
  unfold Obligations.SlateSessions
  intro s m hc z may mine only opened turned
  refine ⟨fun hm ho hst => ⟨slateOpen_opens hc hm ho hst, slateLoadNvm_opens hc hm ho hst⟩,
    fun hm ho hst c hmem => slateOpening_bad hc hm ho hst hmem, fun hno c hmem => slateControl_other hc hno hmem, fun hst hn => ?_,
    fun w => ?_, fun hm ho hst => slateVerify_begins hc hm ho hst, fun hm ho hst => slateVerify_bad hc hm ho hst,
    fun hst => ⟨fun hf => verifyComplete_verified hc hst hf, fun e hf => verifyComplete_fails hc hst hf⟩,
    fun hby hst he => slateAbort_discards hc hby hst he, fun hm ho hst => slateAbort_bad hc hm ho hst⟩
  · exact ⟨nvmLoadComplete_unread hc hst hn, fun hlen hless htotal =>
      ⟨fun hin hfree => nvmLoadComplete_loads hc hst hn hlen hless htotal hin hfree, fun hbusy => nvmLoadComplete_busy hc hst hn hless hbusy⟩⟩
  intro takes
  have staged {y : Slate} (h : s.Stages w y) : takes y := fun k hk ho => slateLoad_stages hc hk ho h
  refine ⟨fun hst hn => ⟨fun h2 => ?_, fun h2 h8 hmax => ?_, fun h2 hw => staged (stages_illegal hst hn h2 hw), fun h3 => ?_⟩,
    fun hst => staged (stages_overrun hst w), fun hm ho => slateLoad_other hc hm ho w⟩
  · exact Slate.taken_early h2 w ▸ staged (stages_legal hst hn fun h => absurd h h2.ne)
  · exact Slate.taken_total h2 w ▸ staged (stages_legal hst hn fun _ => ⟨h8, hmax⟩)
  · rw [← hst, ← Slate.taken_later h3 w]
    exact staged (stages_legal hst hn fun h => absurd h (Nat.ne_of_gt h3))

/-! ## Key operations -/

section KeyOperations

variable {s : State}

/-- A store that takes an operation has RATE for its pulses, and the die is not too hot (R309). -/
theorem nvmRefusal_none (h : s.nvmRefusal = none) : 50000 ≤ s.rate.toNat ∧ s.pow.above115 = false := by
  unfold State.nvmRefusal at h
  split_ifs at h with hr hst hrate htemp
  exact ⟨by omega, by simpa using htemp⟩

/-- A controller that works answers a refusal (R309). -/
theorem nvmRefusal_working (h : s.nvm.st ≠ .idle) : s.nvmRefusal.isSome = true := by
  unfold State.nvmRefusal
  split_ifs <;> rfl

/-! ### What a key operation answers -/

variable (ok : Bool) (jobs : List NvmJob)

theorem keyOp_other {m : Master} (hm : m ≠ .link) : s.keyOp m ok jobs = s.accFault .master m 2 0x1030 := if_neg hm

theorem keyOp_low (hr : s.rate.toNat < 50000) : s.keyOp .link ok jobs = s.keyRefuse 2 := by
  rw [State.keyOp, State.linkOnly, if_pos rfl, if_pos hr]

theorem keyOp_hot (hr : 50000 ≤ s.rate.toNat) (ht : s.pow.above115 = true) : s.keyOp .link ok jobs = s.keyRefuse 5 := by
  rw [State.keyOp, State.linkOnly, if_pos rfl, if_neg (by omega), if_pos ht]

/-- On a fit rate and die what is left decides: the controller, the slot and the work to do (R110, R309). -/
theorem keyOp_fit (hr : 50000 ≤ s.rate.toNat) (ht : s.pow.above115 = false) : s.keyOp .link ok jobs =
    if s.nvmRefusal.isSome || !ok then s.keyRefuse 1 else if jobs.isEmpty then s.keyRefuse 0 else s.nvmStart .link jobs true := by
  rw [State.keyOp, State.linkOnly, if_pos rfl, if_neg (by omega), if_neg (by simp [ht])]

theorem keyOp_working (hr : 50000 ≤ s.rate.toNat) (ht : s.pow.above115 = false) (hst : s.nvm.st ≠ .idle) :
    s.keyOp .link ok jobs = s.keyRefuse 1 := by
  rw [keyOp_fit ok jobs hr ht, nvmRefusal_working hst, Bool.true_or, if_pos rfl]

/-- A slot that does not allow the operation refuses it (R110). -/
theorem keyOp_slot (h : s.nvmRefusal = none) : s.keyOp .link false jobs = s.keyRefuse 1 := by
  obtain ⟨hr, ht⟩ := nvmRefusal_none h
  rw [keyOp_fit false jobs hr ht, Bool.not_false, Bool.or_true, if_pos rfl]

/-- Where nothing is to be programmed the operation is done at once. -/
theorem keyOp_done (h : s.nvmRefusal = none) : s.keyOp .link true [] = s.keyRefuse 0 := by
  obtain ⟨hr, ht⟩ := nvmRefusal_none h
  rw [keyOp_fit true [] hr ht, h]
  rfl

/-- The key operation runs in u, and ends with what a does; KEYDATA and the slots stand until then (R110, R111). -/
def State.KeyStarts (s u : State) (a : NvmAfter) : Prop :=
  u.slate.kbusy = true ∧ u.nvm.isKey = true ∧ (u.nvm.st = .busy ∨ u.nvm.st = .stepWait) ∧ u.slate.keydata = s.slate.keydata ∧
  (∃ j l, u.nvm.jobs = l ++ [j] ∧ j.after = a) ∧ u.slate.keys = s.slate.keys ∧ u.fault = s.fault

/-- The store begins a key operation with the record of its first job (R308, R312). -/
theorem keyStarts_nvmStart (s : State) (m : Master) (l : List NvmJob) (j : NvmJob) : s.KeyStarts (s.nvmStart m (l ++ [j]) true) j.after := by
  unfold State.nvmStart State.nvmBegin
  dsimp only
  split
  · rename_i h
    exact absurd h (by simp)
  · obtain ⟨ph, st, e, h, k, hr, -, hst⟩ := State.nvmRecord_eq _ false
    rw [hr]
    exact ⟨rfl, rfl, hst.symm, rfl, ⟨j, l, rfl, rfl⟩, rfl, rfl⟩

theorem keyOp_starts (h : s.nvmRefusal = none) (l : List NvmJob) (j : NvmJob) : s.KeyStarts (s.keyOp .link true (l ++ [j])) j.after := by
  obtain ⟨hr, ht⟩ := nvmRefusal_none h
  rw [keyOp_fit true _ hr ht, h, if_neg (by simp), if_neg (by simp)]
  exact keyStarts_nvmStart s .link l j

/-! ### The commands -/

theorem keyProgram_eq (m : Master) (k : Fin 8) : ∃ j : NvmJob, j.after = .keySet k s.slate.keydata.toList ∧
    s.keyProgram m k = s.keyOp m (decide (s.slate.keys[k] = .empty)) [j] := ⟨_, rfl, rfl⟩

theorem keyRevoke_eq (m : Master) (k : Fin 8) : ∃ (j : NvmJob) (ok : Bool), j.after = .keyRevoke k ∧
    s.keyRevoke m k = s.keyOp m ok [j] ∧ (ok = true ↔ ∃ l, s.slate.keys[k] = .set l) := by
  refine ⟨_, _, rfl, rfl, ?_⟩
  cases s.slate.keys[k] <;> simp

theorem setAuthReq_eq (m : Master) : ∃ j : NvmJob, j.after = .authReq ∧
    s.setAuthReq m = s.keyOp m true (if s.slate.authReq then [] else [j]) := by
  refine ⟨{ kind := .key, target := lockAt s.member, data := unitBytes s.markFree, after := .authReq }, rfl, ?_⟩
  unfold State.setAuthReq
  split <;> rfl

theorem keyEraseAll_eq (m : Master) : ∃ (l : List NvmJob) (j : NvmJob), j.after = .keyEraseAll ∧
    s.keyEraseAll m = s.keyOp m true (l ++ [j]) := ⟨_, _, rfl, rfl⟩

variable (hc : s.clocked = true)

include hc

theorem exec_keyProgram_on (m : Master) (k : Fin 8) : exec (.keyProgram m k) s = .next (s.keyProgram m k) := by
  rw [exec_keyProgram, execKeyProgram, State.act_on _ hc]

theorem exec_keyRevoke_on (m : Master) (k : Fin 8) : exec (.keyRevoke m k) s = .next (s.keyRevoke m k) := by
  rw [exec_keyRevoke, execKeyRevoke, State.act_on _ hc]

theorem exec_setAuthReq_on (m : Master) : exec (.setAuthReq m) s = .next (s.setAuthReq m) := by
  rw [exec_setAuthReq, execSetAuthReq, State.act_on _ hc]

theorem exec_keyEraseAll_on (m : Master) : exec (.keyEraseAll m) s =
    .next (if s.pow.ftm then s.keyEraseAll m else s.linkOnly m 0x1030 (fun s => s.clamped m 1)) := by
  rw [exec_keyEraseAll, execKeyEraseAll, State.act_on _ hc]

/-- Every key command that R110 lists is a key operation of its master. -/
theorem exec_keyCommand (m : Master) (k : Fin 8) {c : Instr} (hmem : c ∈ [Instr.keyProgram m k, .keyRevoke m k, .setAuthReq m]) :
    ∃ ok jobs, exec c s = .next (s.keyOp m ok jobs) := by
  simp only [List.mem_cons, List.not_mem_nil, or_false] at hmem
  rcases hmem with rfl | rfl | rfl
  · exact ⟨_, _, exec_keyProgram_on hc m k⟩
  · exact ⟨_, _, exec_keyRevoke_on hc m k⟩
  · obtain ⟨j, -, hj⟩ := setAuthReq_eq (s := s) m
    exact ⟨_, _, (exec_setAuthReq_on hc m).trans (congrArg _ hj)⟩

/-- No key command of another master than the link reaches the controller (R127). -/
theorem exec_keyCommand_other {m : Master} (hm : m ≠ .link) (k : Fin 8) {c : Instr}
    (hmem : c ∈ [Instr.keyProgram m k, .keyRevoke m k, .setAuthReq m, .keyEraseAll m]) :
    exec c s = .next (s.accFault .master m 2 0x1030) := by
  have hmem' : c ∈ [Instr.keyProgram m k, .keyRevoke m k, .setAuthReq m] ∨ c = .keyEraseAll m := by simpa [or_assoc] using hmem
  rcases hmem' with h | rfl
  · obtain ⟨ok, jobs, he⟩ := exec_keyCommand hc m k h
    rw [he, keyOp_other ok jobs hm]
  · rw [exec_keyEraseAll_on hc, State.linkOnly, if_neg hm]
    split
    · obtain ⟨l, j, -, he⟩ := keyEraseAll_eq (s := s) m
      rw [he, keyOp_other true _ hm]
    · rfl

/-! ### Commands that the controller takes -/

variable (hn : s.nvmRefusal = none)

include hn

theorem keyProgram_starts {k : Fin 8} (hk : s.slate.keys[k] = .empty) :
    Completes (.keyProgram .link k) s (fun u => s.KeyStarts u (.keySet k s.slate.keydata.toList)) := by
  obtain ⟨j, ha, he⟩ := keyProgram_eq (s := s) .link k
  refine ⟨_, exec_keyProgram_on hc .link k, ?_⟩
  rw [he, decide_eq_true hk, ← ha]
  exact keyOp_starts hn [] j

theorem keyProgram_refused {k : Fin 8} (hk : s.slate.keys[k] ≠ .empty) : exec (.keyProgram .link k) s = .next (s.keyRefuse 1) := by
  obtain ⟨j, -, he⟩ := keyProgram_eq (s := s) .link k
  rw [exec_keyProgram_on hc, he, decide_eq_false hk, keyOp_slot _ hn]

theorem keyRevoke_starts {k : Fin 8} (hk : ∃ l, s.slate.keys[k] = .set l) :
    Completes (.keyRevoke .link k) s (fun u => s.KeyStarts u (.keyRevoke k)) := by
  obtain ⟨j, ok, ha, he, hok⟩ := keyRevoke_eq (s := s) .link k
  refine ⟨_, exec_keyRevoke_on hc .link k, ?_⟩
  rw [he, hok.2 hk, ← ha]
  exact keyOp_starts hn [] j

theorem keyRevoke_refused {k : Fin 8} (hk : s.slate.keys[k] = .empty ∨ s.slate.keys[k] = .revoked) :
    exec (.keyRevoke .link k) s = .next (s.keyRefuse 1) := by
  obtain ⟨j, ok, -, he, hok⟩ := keyRevoke_eq (s := s) .link k
  have hfalse : ok = false := by
    rw [← Bool.not_eq_true, hok]
    rintro ⟨l, hl⟩
    rcases hk with h | h <;> cases h.symm.trans hl
  rw [exec_keyRevoke_on hc, he, hfalse, keyOp_slot _ hn]

theorem setAuthReq_starts (ha : s.slate.authReq = false) : Completes (.setAuthReq .link) s (fun u => s.KeyStarts u .authReq) := by
  obtain ⟨j, haft, he⟩ := setAuthReq_eq (s := s) .link
  refine ⟨_, exec_setAuthReq_on hc .link, ?_⟩
  rw [he, ha, ← haft]
  exact keyOp_starts hn [] j

theorem setAuthReq_done (ha : s.slate.authReq = true) : exec (.setAuthReq .link) s = .next (s.keyRefuse 0) := by
  obtain ⟨j, -, he⟩ := setAuthReq_eq (s := s) .link
  rw [exec_setAuthReq_on hc, he, if_pos ha, keyOp_done hn]

theorem keyEraseAll_starts (hf : s.pow.ftm = true) : Completes (.keyEraseAll .link) s (fun u => s.KeyStarts u .keyEraseAll) := by
  obtain ⟨l, j, haft, he⟩ := keyEraseAll_eq (s := s) .link
  refine ⟨_, exec_keyEraseAll_on hc .link, ?_⟩
  rw [if_pos hf, he, ← haft]
  exact keyOp_starts hn l j

end KeyOperations

/-- Settles O54: what the link's commands start, by the store's first record; each refusal, by the first precondition that fails; what
another master asks, by the fault it raises. -/
theorem keyOperations : Obligations.KeyOperations := by
  unfold Obligations.KeyOperations
  intro s k hc starts refused
  refine ⟨fun hn => ⟨keyProgram_starts hc hn, keyProgram_refused hc hn, keyRevoke_starts hc hn, keyRevoke_refused hc hn,
      setAuthReq_starts hc hn, setAuthReq_done hc hn, keyEraseAll_starts hc hn⟩, fun hf => ?_, fun c hmem => ?_, fun m hm c hmem => ?_⟩
  · rw [exec_keyEraseAll_on hc, if_neg (by simp [hf]), State.linkOnly, if_pos rfl]
  · obtain ⟨ok, jobs, he⟩ := exec_keyCommand hc .link k hmem
    exact ⟨fun hr => he.trans (congrArg _ (keyOp_low ok jobs hr)), fun hr ht => he.trans (congrArg _ (keyOp_hot ok jobs hr ht)),
      fun hr ht hst => he.trans (congrArg _ (keyOp_working ok jobs hr ht hst))⟩
  · refine ⟨_, exec_keyCommand_other hc hm k hmem, ?_, ?_, State.accFault_raises ..⟩ <;>
    · obtain ⟨d, f, he⟩ := s.accFault_eq .master m 2 0x1030
      rw [he]

end Sys2Proof.Machine

/-! # Digital channels: inputs, supplies, PWM and output protection -/

namespace Sys2Proof.Machine

/-! ## Levels while INDET is set (O23) -/

/-- A RUNNING DI island at rung 1 whose input stage has started inside the hysteresis band. -/
def State.inBand : State :=
  State.reset.modIsl 0 (fun i => { i with power := .running, recd := [(0, 1)], rungs := { i.rungs with rung := 1 } })

theorem State.inBand_starts : State.inBand.isl[(0 : IslandNo)].inputOn = true ∧ State.inBand.isl[(0 : IslandNo)].din.indet = true ∧
    State.inBand.isl[(0 : IslandNo)].din.crossed = false ∧ State.inBand.isl[(0 : IslandNo)].rawOf .above = true ∧
    State.inBand.pow.hck = true ∧ State.inBand.tick.toNat + 16384 < 2 ^ 64 := by decide +kernel

/-- The terminal rises through its threshold: while INDET is set the island sends RAW as 0 (R134). -/
theorem inputTransition_inBand : Completes (.inputTransition 0 .above) State.inBand (fun u =>
    u.transit = [(State.inBand.tick + BitVec.ofNat 64 (12 + State.inBand.itk), .up 0 { raw := false, qual := false, indet := true })]) :=
  ⟨_, by rw [exec_inputTransition, execInputTransition], by decide +kernel⟩

/-- Refutes O23: the first level of a stage goes up to the host side with RAW as 0 while INDET is set (R134), also where the raw state
is 1. -/
theorem not_inputEdgesQualify : ¬ Obligations.InputEdgesQualify := by
  rintro ⟨h, -⟩
  obtain ⟨hon, hindet, hcross, hraw, hck, htick⟩ := State.inBand_starts
  obtain ⟨-, hfirst, -⟩ := h State.inBand 0 .above
  obtain ⟨hclock, -⟩ := hfirst hon (by decide) hindet (fun hc => absurd (hcross.symm.trans hc) Bool.false_ne_true)
  obtain ⟨u, hu, -, -, -, -, hup, -⟩ := hclock hck htick
  obtain ⟨v, hv, htransit⟩ := inputTransition_inBand
  obtain rfl := Host.Outcome.next.inj (hv.symm.trans hu)
  rw [htransit, hraw] at hup
  simp at hup

/-! ## Diagnostics -/

section Diagnostics

variable {s u : State} {n : IslandNo}

theorem State.timed_on (hc : s.clocked = true) {c : Instr} (hd : s.isDue c = true) (f : State → State) :
    s.timed c f = .next (f (s.settle c)) := by
  rw [State.timed, State.act_on _ hc, if_pos hd]

/-- A cell that an island queues changes its upstream queue alone, which keeps what it holds. -/
theorem State.sendUp_isl (s : State) (n : IslandNo) (d : UpData) :
    ∃ l, (s.sendUp n d).isl[n] = { s.isl[n] with up := l } ∧ s.isl[n].up ⊆ l :=
  ⟨_, State.modIsl_same .., fun _ hx => mem_insertUp.2 (.inr hx)⟩

/-- A digital diagnostic changes the DIAG word and the upstream queue of its island alone (R156). -/
theorem State.digDiag_isl (s : State) (n : IslandNo) (bit : Nat) (src kind : Byte) :
    ∃ l, (s.digDiag n bit src kind).isl[n] = { s.isl[n] with diag := s.isl[n].diag ||| (1#11 <<< bit), up := l } ∧ s.isl[n].up ⊆ l := by
  obtain ⟨l, hl, hsub⟩ := (s.modIsl n (fun i => { i with diag := i.diag ||| (1#11 <<< bit) })).sendUp_isl n _
  refine ⟨l, hl.trans ?_, ?_⟩
  · rw [State.modIsl_same]
  · rwa [State.modIsl_same] at hsub

/-- An analog diagnostic changes the ADIAG word and the upstream queue of its island alone (R189). -/
theorem State.anaDiag_isl (s : State) (n : IslandNo) (bit : Nat) (src kind : Byte) :
    ∃ l, (s.anaDiag n bit src kind).isl[n] = { s.isl[n] with adiag := s.isl[n].adiag ||| (1#8 <<< bit), up := l } := by
  obtain ⟨l, hl, -⟩ := (s.modIsl n (fun i => { i with adiag := i.adiag ||| (1#8 <<< bit) })).sendUp_isl n _
  refine ⟨l, hl.trans ?_⟩
  rw [State.modIsl_same]

theorem reports_digDiag (s : State) (n : IslandNo) (bit : Nat) (src kind : Byte) : Reports (s.digDiag n bit src kind) n src kind :=
  reports_islandFault _ n src kind
theorem reports_anaDiag (s : State) (n : IslandNo) (bit : Nat) (src kind : Byte) : Reports (s.anaDiag n bit src kind) n src kind :=
  reports_islandFault _ n src kind

theorem islandOnly_digDiag (s : State) (n : IslandNo) (bit : Nat) (src kind : Byte) : IslandOnly s (s.digDiag n bit src kind) n :=
  (islandOnly_modIsl s n _).trans (islandOnly_sendUp _ n _)
theorem islandOnly_anaDiag (s : State) (n : IslandNo) (bit : Nat) (src kind : Byte) : IslandOnly s (s.anaDiag n bit src kind) n :=
  (islandOnly_modIsl s n _).trans (islandOnly_sendUp _ n _)

/-- A report waits for as long as the queue keeps its cells. -/
theorem Reports.mono {src kind : Byte} (h : Reports s n src kind) (hup : s.isl[n].up ⊆ u.isl[n].up) : Reports u n src kind := by
  obtain ⟨c, hc, hcell⟩ := h
  exact ⟨c, hup hc, hcell⟩

end Diagnostics
/-! ## Inputs and supplies (O24) -/

section Inputs

variable {s : State} {n : IslandNo}

/-! ### Reports -/

/-- A level that the supervisor counts and has not reported (R137). -/
def Island.holdCounts (i : Island) : Bool := i.inputOn && i.din.qual && !i.din.indet && !i.din.long && decide (i.reg 0x40 ≠ 0)

theorem longHold_reports (hc : s.clocked = true) (hd : s.isDue (.longHold n) = true) (hon : s.isl[n].inputOn = true)
    (hq : s.isl[n].din.qual = true) (hi : s.isl[n].din.indet = false) (hl : s.isl[n].din.long = false) (hlim : s.isl[n].reg 0x40 ≠ 0) :
    Completes (.longHold n) s (fun u => u.isl[n].din.long = true ∧ u.isl[n].diag = s.isl[n].diag ||| (1#11 <<< 1) ∧ Reports u n 0x48 0 ∧
      IslandOnly s u n) := by
  let held := (s.settle (.longHold n)).modDin n (fun d => { d with long := true })
  have hgo : s.isl[n].holdCounts = true := by
    rw [Island.holdCounts, hon, hq, hi, hl, decide_eq_true hlim]
    rfl
  have hrun : exec (.longHold n) s = .next (held.digDiag n 1 0x48 0) := by
    rw [exec_longHold, execLongHold, State.timed_on hc hd]
    exact congrArg _ (if_pos hgo)
  have hheld : held.isl[n] = { s.isl[n] with din := { s.isl[n].din with long := true } } := State.modIsl_same ..
  obtain ⟨l, hisl, -⟩ := held.digDiag_isl n 1 0x48 0
  rw [hheld] at hisl
  exact ⟨_, hrun, by rw [hisl], by rw [hisl], reports_digDiag ..,
    ((islandOnly_settle s _ n).trans (islandOnly_modIsl _ n _)).trans (islandOnly_digDiag held ..)⟩

/-- A supervisor that is off, and one whose hold is reported already, does nothing (R137). -/
theorem longHold_stands (hc : s.clocked = true) (h : s.isl[n].reg 0x40 = 0 ∨ s.isl[n].din.long = true) :
    Completes (.longHold n) s (fun u => u = { s with due := u.due }) := by
  have hno : ¬ s.isl[n].holdCounts = true := by
    rcases h with h | h <;> (rw [Island.holdCounts, h]; simp)
  by_cases hd : s.isDue (.longHold n) = true
  · refine ⟨s.settle (.longHold n), ?_, State.settle_eq ..⟩
    rw [exec_longHold, execLongHold, State.timed_on hc hd]
    exact congrArg _ (if_neg hno)
  · exact ⟨s, timed_idle hc (Bool.eq_false_iff.2 hd) _, by rfl⟩

/-- With a LIMIT of 0 no long hold is owed (R137). -/
theorem State.longLimit_off (hlim : s.isl[n].reg 0x40 = 0) (old : Word) : ∀ e ∈ (s.longLimit n old).due, e.2 ≠ .longHold n := by
  have hoff (v : State) (hv : v.isl[n].reg 0x40 = 0) : v.longDue n = v.cancel (.longHold n) :=
    if_neg (by rw [show (v.cancel (.longHold n)).isl[n].reg 0x40 = 0 from hv]; simp)
  have hlim' : (if old = 0 then s.modDin n (fun d => { d with longSince := s.tick }) else s).isl[n].reg 0x40 = 0 :=
    ite_keeps (P := fun v : State => v.isl[n].reg 0x40 = 0) _ (by rw [State.modDin, State.modIsl_same]; exact hlim) hlim
  intro e he
  rw [State.longLimit, hoff _ hlim'] at he
  exact ((State.cancel_due ..).1 he).2

theorem wireBreak_reports (hc : s.clocked = true) (hon : s.isl[n].wireOn = true) (ha : (s.isl[n].reg 0).getLsbD 11 = false)
    (hb : s.isl[n].din.brk = false) : Completes (.wireBreak n) s (fun u =>
      u.isl[n].din.brk = true ∧ u.isl[n].diag = s.isl[n].diag ||| (1#11 <<< 0) ∧ Reports u n 0x44 0 ∧ IslandOnly s u n) := by
  let broken := s.modDin n (fun d => { d with brk := true })
  have hrun : exec (.wireBreak n) s = .next (broken.digDiag n 0 0x44 0) := by
    rw [exec_wireBreak, execWireBreak, State.act_on _ hc, if_pos (by rw [hon, ha, hb]; rfl)]
  have hbroken : broken.isl[n] = { s.isl[n] with din := { s.isl[n].din with brk := true } } := State.modIsl_same ..
  obtain ⟨l, hisl, -⟩ := broken.digDiag_isl n 0 0x44 0
  rw [hbroken] at hisl
  exact ⟨_, hrun, by rw [hisl], by rw [hisl], reports_digDiag .., (islandOnly_modIsl s n _).trans (islandOnly_digDiag broken ..)⟩

/-- A break that stands, and host-assisted wire-break, report nothing (R141). -/
theorem wireBreak_stands (hc : s.clocked = true) (h : s.isl[n].din.brk = true ∨ (s.isl[n].reg 0).getLsbD 11 = true) :
    exec (.wireBreak n) s = .next s := by
  have hno : ¬ (s.isl[n].wireOn && !(s.isl[n].reg 0).getLsbD 11 && !s.isl[n].din.brk) = true := by
    rcases h with h | h <;> (rw [h]; simp)
  rw [exec_wireBreak, execWireBreak, State.act_on _ hc, if_neg hno]

theorem sensOvl_reports (hc : s.clocked = true) (hp : s.isl[n].pers.digIn = true) (htb : s.isl[n].tbOn = true) (hr : s.running n = true) :
    Completes (.sensOvl n) s (fun u => u.isl[n].diag = s.isl[n].diag ||| (1#11 <<< 2) ∧ Reports u n 0x45 0 ∧ IslandOnly s u n) := by
  have hrun : exec (.sensOvl n) s = .next (s.digDiag n 2 0x45 0) := by
    rw [exec_sensOvl, execSensOvl, State.act_on _ hc, if_pos (by rw [hp, htb, hr]; rfl)]
  obtain ⟨l, hisl, -⟩ := s.digDiag_isl n 2 0x45 0
  exact ⟨_, hrun, by rw [hisl], reports_digDiag .., islandOnly_digDiag ..⟩

theorem vfLow_reports (hc : s.clocked = true) (hr : s.running n = true) (hv : s.isl[n].vfLow = false) : Completes (.vfLow n) s (fun u =>
    u.isl[n].vfLow = true ∧ (if s.isl[n].pers.analog = true then u.isl[n].adiag = s.isl[n].adiag ||| (1#8 <<< 7)
      else u.isl[n].diag = s.isl[n].diag ||| (1#11 <<< 10)) ∧ Reports u n 0x47 0 ∧ IslandOnly s u n) := by
  let low := s.modIsl n (fun i => { i with vfLow := true })
  have hrun : exec (.vfLow n) s = .next (if s.isl[n].pers.analog then low.anaDiag n 7 0x47 0 else low.digDiag n 10 0x47 0) := by
    rw [exec_vfLow, execVfLow, State.act_on _ hc, if_pos (by rw [hr, hv]; rfl)]
  have hlow : low.isl[n] = { s.isl[n] with vfLow := true } := State.modIsl_same ..
  have honly : IslandOnly s low n := islandOnly_modIsl s n _
  cases hana : s.isl[n].pers.analog with
  | true =>
    obtain ⟨l, hisl⟩ := low.anaDiag_isl n 7 0x47 0
    rw [hlow] at hisl
    rw [hana, if_pos rfl] at hrun
    exact ⟨_, hrun, by rw [hisl], by rw [if_pos rfl, hisl], reports_anaDiag .., honly.trans (islandOnly_anaDiag low ..)⟩
  | false =>
    obtain ⟨l, hisl, -⟩ := low.digDiag_isl n 10 0x47 0
    rw [hlow] at hisl
    rw [hana, if_neg Bool.false_ne_true] at hrun
    exact ⟨_, hrun, by rw [hisl], by rw [if_neg Bool.false_ne_true, hisl], reports_digDiag .., honly.trans (islandOnly_digDiag low ..)⟩

theorem vfLow_stands (hc : s.clocked = true) (hv : s.isl[n].vfLow = true) : exec (.vfLow n) s = .next s := by
  rw [exec_vfLow, execVfLow, State.act_on _ hc, if_neg (by rw [hv]; simp)]

/-- The limiter's flag is set or cleared; an engagement that begins is reported (R163). -/
theorem exec_loopOvl_on (hc : s.clocked = true) (lasts : Bool) : exec (.loopOvl ⟨n, lasts⟩) s =
    let on := decide (s.isl[n].pers = .aiI) && s.isl[n].tbOn && s.running n && lasts
    let t := s.modIsl n (fun i => { i with ana := { i.ana with loopOvl := on } })
    .next (if on && !s.isl[n].ana.loopOvl then t.anaDiag n 2 0x46 0 else t) := by
  rw [exec_loopOvl, execLoopOvl, State.act_on _ hc]

theorem loopOvl_reports (hc : s.clocked = true) (hp : s.isl[n].pers = .aiI) (htb : s.isl[n].tbOn = true) (hr : s.running n = true)
    (hl : s.isl[n].ana.loopOvl = false) : Completes (.loopOvl ⟨n, true⟩) s (fun u =>
      u.isl[n].adiag = s.isl[n].adiag ||| (1#8 <<< 2) ∧ u.isl[n].ana.loopOvl = true ∧ Reports u n 0x46 0 ∧ IslandOnly s u n) := by
  let engaged := s.modIsl n (fun i => { i with ana := { i.ana with loopOvl := true } })
  have hrun : exec (.loopOvl ⟨n, true⟩) s = .next (engaged.anaDiag n 2 0x46 0) := by
    simp only [exec_loopOvl_on hc, hp, htb, hr, hl, decide_true, Bool.and_true, Bool.not_false, if_true]
    rfl
  have hengaged : engaged.isl[n] = { s.isl[n] with ana := { s.isl[n].ana with loopOvl := true } } := State.modIsl_same ..
  obtain ⟨l, hisl⟩ := engaged.anaDiag_isl n 2 0x46 0
  rw [hengaged] at hisl
  exact ⟨_, hrun, by rw [hisl], by rw [hisl], reports_anaDiag .., (islandOnly_modIsl s n _).trans (islandOnly_anaDiag engaged ..)⟩

/-- An engagement that stands is reported no more (R163). -/
theorem loopOvl_stands (hc : s.clocked = true) (hp : s.isl[n].pers = .aiI) (htb : s.isl[n].tbOn = true) (hr : s.running n = true)
    (hl : s.isl[n].ana.loopOvl = true) : exec (.loopOvl ⟨n, true⟩) s = .next s := by
  simp only [exec_loopOvl_on hc, hp, htb, hr, hl, decide_true, Bool.and_true, Bool.not_true, Bool.and_false, Bool.false_eq_true, if_false]
  exact congrArg _ (State.modIsl_self (by rw [← hl]))

theorem loopOvl_ends (hc : s.clocked = true) : exec (.loopOvl ⟨n, false⟩) s =
    .next (s.modIsl n (fun i => { i with ana := { i.ana with loopOvl := false } })) := by
  simp only [exec_loopOvl_on hc, Bool.and_false, Bool.false_and, Bool.false_eq_true, if_false]

theorem breakClear_clears (hc : s.clocked = true) :
    exec (.breakClear n) s = .next (s.modIsl n (fun i => { i with din := { i.din with brk := false } })) := by
  rw [exec_breakClear, execBreakClear, State.act_on _ hc]
  rfl

theorem vfLowClear_clears (hc : s.clocked = true) : exec (.vfLowClear n) s = .next (s.modIsl n (fun i => { i with vfLow := false })) := by
  rw [exec_vfLowClear, execVfLowClear, State.act_on _ hc]

/-! ### Measurements -/

theorem currUpdate_takes (hc : s.clocked = true) (hon : s.isl[n].wireOn = true) (k : Nat) : Completes (.currUpdate n k) s (fun u =>
    u = s.modIsl n (fun i => { i with din := { i.din with curr := u.isl[n].din.curr } }) ∧ u.isl[n].din.curr.toNat = min 255 k) := by
  have hcurr : (s.modDin n (fun d => { d with curr := BitVec.ofNat 8 (min 255 k) })).isl[n].din.curr = BitVec.ofNat 8 (min 255 k) := by
    rw [State.modDin, State.modIsl_same]
  refine ⟨_, by rw [exec_currUpdate, execCurrUpdate, State.act_on _ hc, if_pos hon], ?_, ?_⟩
  · rw [hcurr]
    rfl
  · rw [hcurr, BitVec.toNat_ofNat]
    omega

theorem cntWrite_sets (hc : s.clocked = true) (hp : s.isl[n].pers = .diCnt) (w : Word) :
    exec (.cntWrite n w) s = .next (s.modIsl n (fun i => { i with din := { i.din with count := w } })) := by
  rw [exec_cntWrite, execCntWrite, State.act_on _ hc, State.cntWrite, if_pos hp]
  rfl

/-- A gate that starts counts from nothing, and its end is owed (R145). -/
theorem State.gateStart_spec (hp : s.isl[n].pers = .diCnt) (hr : s.isl[n].rungs.rung = 2) :
    (s.gateStart n).isl[n].din = { s.isl[n].din with gEdges := 0, gFirst := 0, gLast := 0, gStop := false } ∧
    (s.tick + BitVec.ofNat 64 (fld (s.isl[n].reg 0x48) 8 24 * 512), .gateEnd n) ∈ (s.gateStart n).due ∧ IslandOnly s (s.gateStart n) n := by
  let fresh := (s.cancel (.gateEnd n)).modDin n (fun d => { d with gEdges := 0, gFirst := 0, gLast := 0, gStop := false })
  have hgo : s.gateStart n = fresh.owe (fld (s.isl[n].reg 0x48) 8 24 * 512) (.gateEnd n) := if_pos ⟨hp, hr⟩
  rw [hgo]
  refine ⟨?_, fresh.mem_owe_self _ _, ((islandOnly_cancel s _ n).trans (islandOnly_modIsl _ n _)).trans (islandOnly_owe fresh ..)⟩
  rw [State.owe_isl]
  exact congrArg Island.din (State.modIsl_same ..)

/-- The input stage with the result of the gate that ends (R145). -/
def DigIn.gateResult (d : DigIn) : DigIn :=
  { d with edges := BitVec.ofNat 16 (min 0xFFFF d.gEdges), fValid := decide (2 ≤ d.gEdges) && !d.gStop, fStop := d.gStop,
           span := (d.gLast - d.gFirst).extractLsb' 1 32 }

theorem gateEnd_measures (hc : s.clocked = true) (hd : s.isDue (.gateEnd n) = true) (hp : s.isl[n].pers = .diCnt)
    (hr : s.isl[n].rungs.rung = 2) : Completes (.gateEnd n) s (fun u =>
      u.isl[n].din.edges.toNat = min 65535 s.isl[n].din.gEdges ∧
      u.isl[n].din.fValid = (decide (2 ≤ s.isl[n].din.gEdges) && !s.isl[n].din.gStop) ∧ u.isl[n].din.fStop = s.isl[n].din.gStop ∧
      u.isl[n].din.span.toNat = (s.isl[n].din.gLast - s.isl[n].din.gFirst).toNat / 2 % 2 ^ 32 ∧
      u.isl[n].din.gEdges = 0 ∧ u.isl[n].din.gStop = false ∧
      (s.tick + BitVec.ofNat 64 (fld (s.isl[n].reg 0x48) 8 24 * 512), .gateEnd n) ∈ u.due ∧ IslandOnly s u n) := by
  let written := (s.settle (.gateEnd n)).modDin n DigIn.gateResult
  have hrun : exec (.gateEnd n) s = .next (written.gateStart n) := by
    rw [exec_gateEnd, execGateEnd, State.timed_on hc hd]
    exact congrArg _ (if_pos ⟨hp, hr⟩)
  have hisl : written.isl[n] = { s.isl[n] with din := s.isl[n].din.gateResult } := State.modIsl_same ..
  obtain ⟨hdin, howed, honly⟩ := State.gateStart_spec (s := written) (n := n) (by rw [hisl]; exact hp) (by rw [hisl]; exact hr)
  rw [hisl] at hdin howed
  refine ⟨_, hrun, ?_, by rw [hdin]; rfl, by rw [hdin]; rfl, ?_, by rw [hdin], by rw [hdin], howed,
    ((islandOnly_settle s _ n).trans (islandOnly_modIsl _ n _)).trans honly⟩
  · rw [hdin]
    exact (BitVec.toNat_ofNat ..).trans (Nat.mod_eq_of_lt (by omega))
  · rw [hdin]
    exact BitVec.extractLsb'_toNat ..

end Inputs

/-- Settles O24: each supervisor, measurement and gate by the lemma about its row. -/
theorem inputsReportAndMeasure : Obligations.InputsReportAndMeasure := by
  refine ⟨fun s n hc => ?_, fun s n hc => ?_⟩
  · exact ⟨longHold_reports hc, longHold_stands hc, fun old h => State.longLimit_off h old, fun h => wireBreak_stands hc (.inl h),
      vfLow_stands hc, loopOvl_stands hc, wireBreak_reports hc, fun h => wireBreak_stands hc (.inr h), sensOvl_reports hc,
      vfLow_reports hc, loopOvl_reports hc, loopOvl_ends hc⟩
  · exact ⟨breakClear_clears hc, vfLowClear_clears hc, fun k h => currUpdate_takes hc h k, fun w h => cntWrite_sets hc h w,
      gateEnd_measures hc⟩

/-! ## Periods of a PWM (O25) -/

section Pwm

variable {s : State} {n : IslandNo}

/-- The minimum of every rung is at least the 5 000 that a PWM.PER of 0 counts as (R149). -/
theorem Island.pwmPeriod_eq (i : Island) : i.pwmPeriod = max (if i.rungs.rung = 1 then 100000 else 5000) (fld (i.reg 0x60) 0 20) := by
  have hmin : 5000 ≤ if i.rungs.rung = 1 then 100000 else 5000 := by split <;> decide
  rw [Island.pwmPeriod, ← max_assoc, max_eq_left hmin]

/-- A period fits EFF_PER (R149). -/
theorem Island.pwmPeriod_lt (i : Island) : i.pwmPeriod < 2 ^ 20 := by
  rw [Island.pwmPeriod_eq]
  exact max_lt (by split <;> decide) (Nat.mod_lt _ (by decide))

/-- A switch that takes a level leaves the periods and the phase; what it owes is owed besides. -/
theorem State.setSwitch_leaves (s : State) (n : IslandNo) (b : Bool) :
    (s.setSwitch n b).isl[n].dout.phaseAt = s.isl[n].dout.phaseAt ∧ (s.setSwitch n b).isl[n].dout.effPer = s.isl[n].dout.effPer := by
  unfold State.setSwitch
  dsimp only
  split
  · exact ⟨rfl, rfl⟩
  · split
    · rw [State.owe_eq]
      simp [State.cancel]
    · simp

/-- The stage as a period leaves it: its duty, its length and its start (R149). -/
theorem State.pwmStart_spec (s : State) (n : IslandNo) :
    let u := s.pwmStart n
    let p := s.isl[n].pwmPeriod
    let on := onPhase s.isl[n].digTarget p
    u.isl[n].dout.duty = s.isl[n].digTarget ∧ u.isl[n].dout.effPer = BitVec.ofNat 20 p ∧ u.isl[n].dout.sw = decide (on ≠ 0) ∧
    u.isl[n].dout.phaseAt = s.tick ∧ (s.tick + BitVec.ofNat 64 (2 * p), .pwmPeriodStart n) ∈ u.due ∧
    (on ≠ 0 → on ≠ p → (s.tick + BitVec.ofNat 64 (2 * on), .pwmPhaseEnd n) ∈ u.due) := by
  intro u p on
  let began := ((s.cancel (.pwmPeriodStart n)).cancel (.pwmPhaseEnd n)).modIsl n (fun i =>
    { i with dout := { i.dout with run := true, duty := s.isl[n].digTarget, effPer := BitVec.ofNat 20 p, phaseAt := s.tick } })
  let owing := (began.setSwitch n (decide (on ≠ 0))).owe (2 * p) (.pwmPeriodStart n)
  have hu : u = if on = 0 ∨ on = p then owing else owing.owe (2 * on) (.pwmPhaseEnd n) := rfl
  have hbegan : began.isl[n].dout = { s.isl[n].dout with run := true, duty := s.isl[n].digTarget, effPer := BitVec.ofNat 20 p, phaseAt := s.tick } :=
    congrArg Island.dout (State.modIsl_same ..)
  have htick : (began.setSwitch n (decide (on ≠ 0))).tick = s.tick := (islandOnly_setSwitch began n _).tick
  have hperiod : (s.tick + BitVec.ofNat 64 (2 * p), Instr.pwmPeriodStart n) ∈ owing.due := by
    rw [← htick]
    exact State.mem_owe_self ..
  have hmore : owing.OwesMore u := by
    rw [hu]
    exact State.owesMore_ite _ .rfl (owing.owesMore_owe ..)
  have hdout : u.isl[n].dout = (began.setSwitch n (decide (on ≠ 0))).isl[n].dout := by
    rw [hmore.isl]
    exact congrArg (fun l => l[n].dout) (State.owe_isl ..)
  obtain ⟨hsw, -, hduty⟩ := began.setSwitch_dout n (decide (on ≠ 0))
  obtain ⟨hphase, hper⟩ := began.setSwitch_leaves n (decide (on ≠ 0))
  rw [hbegan] at hduty hphase hper
  rw [hdout]
  refine ⟨hduty, hper, hsw, hphase, hmore.due hperiod, fun h0 hp => ?_⟩
  have hend : u = owing.owe (2 * on) (.pwmPhaseEnd n) := hu.trans (if_neg (not_or.2 ⟨h0, hp⟩))
  have howing : owing.tick = s.tick := (islandOnly_owe _ _ _ n).tick.trans htick
  rw [hend, ← howing]
  exact State.mem_owe_self ..

theorem pwmPeriodStart_begins (hc : s.clocked = true) (hrun : s.isl[n].dout.run = true) (hd : s.isDue (.pwmPeriodStart n) = true)
    (hp : s.isl[n].pers = .doPwm) : exec (.pwmPeriodStart n) s = .next ((s.settle (.pwmPeriodStart n)).pwmStart n) := by
  rw [exec_pwmPeriodStart, execPwmPeriodStart, State.timed_on hc hd]
  exact congrArg _ (if_pos ⟨hp, hrun⟩)

theorem pwmPhaseEnd_turnsOff (hc : s.clocked = true) (hrun : s.isl[n].dout.run = true) (hd : s.isDue (.pwmPhaseEnd n) = true) :
    Completes (.pwmPhaseEnd n) s (fun u => u.isl[n].dout.sw = false ∧ u.isl[n].dout.run = true ∧ u.isl[n].dout.duty = s.isl[n].dout.duty ∧
      u.isl[n].dout.phaseAt = s.tick ∧ IslandOnly s u n) := by
  let ended := (s.settle (.pwmPhaseEnd n)).modDout n (fun d => { d with phaseAt := s.tick })
  have hgo : exec (.pwmPhaseEnd n) s = .next (ended.setSwitch n false) := by
    rw [exec_pwmPhaseEnd, execPwmPhaseEnd, State.timed_on hc hd]
    exact congrArg _ (if_pos hrun)
  have hended : ended.isl[n].dout = { s.isl[n].dout with phaseAt := s.tick } := congrArg Island.dout (State.modIsl_same ..)
  obtain ⟨hsw, hon, hduty⟩ := ended.setSwitch_dout n false
  obtain ⟨hphase, -⟩ := ended.setSwitch_leaves n false
  rw [hended] at hon hduty hphase
  exact ⟨_, hgo, hsw, hon.trans hrun, hduty, hphase,
    ((islandOnly_settle s _ n).trans (islandOnly_modIsl _ n _)).trans (islandOnly_setSwitch ended n _)⟩

end Pwm

/-- Settles O25: a period by what its start leaves of the stage and owes, the end of its on-phase by the switch that turns off. -/
theorem pwmPeriods : Obligations.PwmPeriods := by
  intro s n hrun hc
  refine ⟨fun hd hp => ⟨_, pwmPeriodStart_begins hc hrun hd hp, ?_⟩, pwmPhaseEnd_turnsOff hc hrun⟩
  obtain ⟨hduty, hper, hsw, hphase, howed, hend⟩ := (s.settle (.pwmPeriodStart n)).pwmStart_spec n
  have hlen : ((s.settle (.pwmPeriodStart n)).pwmStart n).isl[n].dout.effPer.toNat = s.isl[n].pwmPeriod := by
    rw [hper]
    exact (BitVec.toNat_ofNat ..).trans (Nat.mod_eq_of_lt (Island.pwmPeriod_lt _))
  have hp' := s.isl[n].pwmPeriod_eq
  rw [← hp']
  exact ⟨hduty, hlen, hsw, hphase, howed, hend, (islandOnly_settle s _ n).trans (islandOnly_pwmStart _ n)⟩

/-! ## Protection and checks of outputs (O26) -/

section Protection

variable {s u v : State} {n : IslandNo}

/-! ### What an output stage leaves when it follows its demands -/

/-- A stage that follows its demands leaves the diagnostics and the latches of its island (R147, R174). -/
theorem State.outputs_leaves (s : State) (n : IslandNo) (later : Bool) :
    let u := s.outputs n later
    u.isl[n].diag = s.isl[n].diag ∧ u.isl[n].adiag = s.isl[n].adiag ∧ u.isl[n].up = s.isl[n].up ∧
    u.isl[n].dout.short = s.isl[n].dout.short ∧ u.isl[n].dout.ovl = s.isl[n].dout.ovl ∧
    u.isl[n].dout.hotSwitch = s.isl[n].dout.hotSwitch ∧ u.isl[n].ana.hotDriver = s.isl[n].ana.hotDriver := by
  intro u
  have h : u.isl[n].undriven = s.isl[n].undriven := State.beside_same (s.outputs_beside n later)
  exact ⟨(congrArg Island.diag h :), (congrArg Island.adiag h :), (congrArg Island.up h :), congrArg (fun i => i.dout.short) h,
    congrArg (fun i => i.dout.ovl) h, congrArg (fun i => i.dout.hotSwitch) h, congrArg (fun i => i.ana.hotDriver) h⟩

theorem Island.digTarget_latched {i : Island} (h : i.digLatched = true) : i.digTarget = 0 := by simp [Island.digTarget, h]

/-- A latch or a thermal shutdown holds the switch off (R147). -/
theorem State.outputs_latched (hp : s.isl[n].pers.digOut = true) (hl : s.isl[n].digLatched = true) (later : Bool) :
    (s.outputs n later).isl[n].dout.sw = false := by
  have hdig : s.outputs n later = s.digOutputs n later := if_pos hp
  rw [hdig]
  by_cases hpwm : s.isl[n].pers = .doPwm
  · have hmay : s.isl[n].pwmMay = false := by simp only [Island.pwmMay, hl, Bool.not_true, Bool.and_false, Bool.false_and]
    have hstop : s.digOutputs n later = s.pwmStop n := (if_pos hpwm).trans (if_pos (by rw [hmay]; rfl))
    rw [hstop]
    exact (s.pwmStop_dout n).1
  · have hset : s.digOutputs n later = s.setSwitch n (decide (s.isl[n].digTarget ≠ 0)) := if_neg hpwm
    rw [hset, (s.setSwitch_dout n _).1, Island.digTarget_latched hl]
    rfl

/-- An overtemperature holds a driver that could drive at 0 (R174). -/
theorem State.outputs_hotDriver (hp : s.isl[n].pers.anaOut = true) (hh : s.isl[n].ana.hotDriver = true) (hd : s.isl[n].dead = false)
    (hr : s.isl[n].rungs.rung ≠ 0) (later : Bool) : (s.outputs n later).isl[n].ana.driven = 0 := by
  have hb := s.outputs_beside n later
  have htarget : s.aoTarget n = (0, false) :=
    (if_neg (by rw [hd]; exact Bool.false_ne_true)).trans ((if_neg hr).trans (if_pos hh))
  rw [(s.outputs_follows n later).2 (by rw [State.driven_pers hb]; exact hp), State.driven_aoTarget hb, htarget]

/-! ### Short and overload -/

/-- A latch that has set is recorded and reported, and turns the switch off (R150). -/
theorem State.latch_reports (v : State) (n : IslandNo) (bit : Nat) (src : Byte) (hp : v.isl[n].pers.digOut = true)
    (hl : v.isl[n].digLatched = true) :
    let u := (v.digDiag n bit src 0).outputs n true
    u.isl[n].dout.short = v.isl[n].dout.short ∧ u.isl[n].dout.ovl = v.isl[n].dout.ovl ∧ u.isl[n].diag = v.isl[n].diag ||| (1#11 <<< bit) ∧
    Reports u n src 0 ∧ u.isl[n].dout.sw = false ∧ IslandOnly v u n := by
  intro u
  obtain ⟨l, hisl, -⟩ := v.digDiag_isl n bit src 0
  obtain ⟨hdiag, -, hup, hshort, hovl, -⟩ := (v.digDiag n bit src 0).outputs_leaves n true
  have hoff : u.isl[n].dout.sw = false := State.outputs_latched (by rw [hisl]; exact hp) (by rw [hisl]; exact hl) true
  refine ⟨hshort.trans (by rw [hisl]), hovl.trans (by rw [hisl]), hdiag.trans (by rw [hisl]), (reports_digDiag v n bit src 0).mono ?_, hoff,
    (islandOnly_digDiag v ..).trans (islandOnly_outputs _ n true)⟩
  rw [hup]
  exact List.Subset.refl _

theorem shortLatch_latches (hr : s.running n = true) (hc : s.clocked = true) (hp : s.isl[n].pers.digOut = true)
    (hsw : s.isl[n].dout.sw = true) (hs : s.isl[n].dout.short = false) : Completes (.shortLatch n) s (fun u =>
      u.isl[n].dout.short = true ∧ u.isl[n].diag = s.isl[n].diag ||| (1#11 <<< 7) ∧ Reports u n 0x41 0 ∧ u.isl[n].dout.sw = false ∧
      IslandOnly s u n) := by
  let latched := s.modDout n (fun d => { d with short := true })
  have hrun : exec (.shortLatch n) s = .next ((latched.digDiag n 7 0x41 0).outputs n true) := by
    rw [exec_shortLatch, execShortLatch, State.act_on _ hc, if_pos (by rw [hp, hr, hsw, hs]; rfl)]
  have hisl : latched.isl[n] = { s.isl[n] with dout := { s.isl[n].dout with short := true } } := State.modIsl_same ..
  obtain ⟨hshort, -, hdiag, hrep, hoff, honly⟩ := latched.latch_reports n 7 0x41 (by rw [hisl]; exact hp) (by rw [hisl]; rfl)
  rw [hisl] at hshort hdiag
  exact ⟨_, hrun, hshort, hdiag, hrep, hoff, (islandOnly_modIsl s n _).trans honly⟩

theorem overloadLatch_latches (hr : s.running n = true) (hc : s.clocked = true) (hp : s.isl[n].pers.digOut = true)
    (hsw : s.isl[n].dout.sw = true) (hi : s.isl[n].dout.inrush = false) (ho : s.isl[n].dout.ovl = false) :
    Completes (.overloadLatch n) s (fun u => u.isl[n].dout.ovl = true ∧ u.isl[n].diag = s.isl[n].diag ||| (1#11 <<< 8) ∧
      Reports u n 0x42 0 ∧ u.isl[n].dout.sw = false ∧ IslandOnly s u n) := by
  let latched := s.modDout n (fun d => { d with ovl := true })
  have hrun : exec (.overloadLatch n) s = .next ((latched.digDiag n 8 0x42 0).outputs n true) := by
    rw [exec_overloadLatch, execOverloadLatch, State.act_on _ hc, if_pos (by rw [hp, hr, hsw, hi, ho]; rfl)]
  have hisl : latched.isl[n] = { s.isl[n] with dout := { s.isl[n].dout with ovl := true } } := State.modIsl_same ..
  have hlatched : latched.isl[n].digLatched = true := by
    rw [hisl]
    simp [Island.digLatched]
  obtain ⟨-, hovl, hdiag, hrep, hoff, honly⟩ := latched.latch_reports n 8 0x42 (by rw [hisl]; exact hp) hlatched
  rw [hisl] at hovl hdiag
  exact ⟨_, hrun, hovl, hdiag, hrep, hoff, (islandOnly_modIsl s n _).trans honly⟩

/-- A row of clocked logic that finds nothing to do, with and without a clock. -/
theorem State.act_stands {f : State → State} (h : f s = s) : s.act f = .next s := by rw [State.act, h, ite_self]

theorem shortLatch_stands (h : s.isl[n].dout.short = true) : exec (.shortLatch n) s = .next s :=
  State.act_stands (if_neg (by rw [h]; simp))

theorem overloadLatch_stands (h : s.isl[n].dout.ovl = true) : exec (.overloadLatch n) s = .next s :=
  State.act_stands (if_neg (by rw [h]; simp))

/-! ### Overtemperature -/

/-- An overtemperature that begins acts and is reported on its tick. -/
theorem State.protects_acts (hc : s.clocked = true) (c : Instr) {hot : Bool} (hh : hot = false) (act report : State → State) :
    s.protects c hot act report = .next (report (act (s.settle c))) := by
  rw [State.protects, if_pos hc, hh]
  rfl

/-- One that began in a stop is reported on the tick that it owes (R414). -/
theorem State.protects_reports (hc : s.clocked = true) {c : Instr} (hd : s.isDue c = true) {hot : Bool} (hh : hot = true)
    (act report : State → State) : s.protects c hot act report = .next (report (s.settle c)) := by
  rw [State.protects, if_pos hc, hh, hd]
  rfl

/-- One that stands and is reported already does nothing. -/
theorem State.protects_stands (hc : s.clocked = true) {c : Instr} (hd : s.isDue c = false) {hot : Bool} (hh : hot = true)
    (act report : State → State) : s.protects c hot act report = .next s := by
  rw [State.protects, if_pos hc, hh, hd]
  rfl

/-- One that begins in a stop acts at once and waits for the next tick with its report (R414). -/
theorem State.protects_stopped (hk : s.pow.hck = false) (h4 : s.pow.k4 = false) (hdef : s.pow.deferral = false) (c : Instr) {hot : Bool}
    (hh : hot = false) (act report : State → State) : s.protects c hot act report = .next ((act s).owe 1 c) := by
  have hoff : ¬ s.clocked = true := by simp [State.clocked, State.ticks, hk]
  rw [State.protects, if_neg hoff, hh, h4, hdef]
  rfl

/-- The switch of island n has reached its temperature, and its stage follows (R150). -/
def State.switchHot (s : State) (n : IslandNo) : State := (s.modDout n (fun d => { d with hotSwitch := true })).outputs n true

/-- The driver of island n has reached its temperature, and its stage follows (R175). -/
def State.driverHot (s : State) (n : IslandNo) : State :=
  (s.modIsl n (fun i => { i with ana := { i.ana with hotDriver := true } })).outputs n true

theorem exec_switchOvertemp_protects (hr : s.running n = true) (hp : s.isl[n].pers.digOut = true) : exec (.switchOvertemp n) s =
    s.protects (.switchOvertemp n) s.isl[n].dout.hotSwitch (fun s => s.switchHot n) (fun s => s.digDiag n 9 0x43 0) := by
  rw [exec_switchOvertemp, execSwitchOvertemp, if_pos (by rw [hp, hr]; rfl)]
  rfl

theorem exec_aoOvertemp_protects (hr : s.running n = true) (hp : s.isl[n].pers.anaOut = true) : exec (.aoOvertemp n) s =
    s.protects (.aoOvertemp n) s.isl[n].ana.hotDriver (fun s => s.driverHot n) (fun s => s.anaDiag n 6 0x4E 0) := by
  rw [exec_aoOvertemp, execAoOvertemp, if_pos (by rw [hp, hr]; rfl)]
  rfl

/-- A hot switch is off; DIAG and the queue of the island wait for the clock. -/
theorem State.switchHot_spec (s : State) (hp : s.isl[n].pers.digOut = true) :
    (s.switchHot n).isl[n].dout.hotSwitch = true ∧ (s.switchHot n).isl[n].dout.sw = false ∧ (s.switchHot n).isl[n].diag = s.isl[n].diag ∧
    (s.switchHot n).isl[n].up = s.isl[n].up ∧ IslandOnly s (s.switchHot n) n := by
  let hot := s.modDout n (fun d => { d with hotSwitch := true })
  have hisl : hot.isl[n] = { s.isl[n] with dout := { s.isl[n].dout with hotSwitch := true } } := State.modIsl_same ..
  have hlatched : hot.isl[n].digLatched = true := by
    rw [hisl]
    simp [Island.digLatched]
  obtain ⟨hdiag, -, hup, -, -, hhot, -⟩ := hot.outputs_leaves n true
  rw [hisl] at hdiag hup hhot
  exact ⟨hhot, State.outputs_latched (by rw [hisl]; exact hp) hlatched true, hdiag, hup,
    (islandOnly_modIsl s n _).trans (islandOnly_outputs hot n true)⟩

/-- A hot driver is off where it could drive; ADIAG and the queue of the island wait for the clock. -/
theorem State.driverHot_spec (s : State) (hp : s.isl[n].pers.anaOut = true) :
    (s.driverHot n).isl[n].ana.hotDriver = true ∧ (s.driverHot n).isl[n].adiag = s.isl[n].adiag ∧ (s.driverHot n).isl[n].up = s.isl[n].up ∧
    (s.isl[n].dead = false → s.isl[n].rungs.rung ≠ 0 → (s.driverHot n).isl[n].ana.driven = 0) ∧ IslandOnly s (s.driverHot n) n := by
  let hot := s.modIsl n (fun i => { i with ana := { i.ana with hotDriver := true } })
  have hisl : hot.isl[n] = { s.isl[n] with ana := { s.isl[n].ana with hotDriver := true } } := State.modIsl_same ..
  obtain ⟨-, hadiag, hup, -, -, -, hhot⟩ := hot.outputs_leaves n true
  rw [hisl] at hadiag hup hhot
  exact ⟨hhot, hadiag, hup, fun hd hr => State.outputs_hotDriver (by rw [hisl]; exact hp) (by rw [hisl]) (by rw [hisl]; exact hd)
    (by rw [hisl]; exact hr) true, (islandOnly_modIsl s n _).trans (islandOnly_outputs hot n true)⟩

theorem switchOvertemp_reports (hr : s.running n = true) (hc : s.clocked = true) (hp : s.isl[n].pers.digOut = true)
    (hh : s.isl[n].dout.hotSwitch = false) : Completes (.switchOvertemp n) s (fun u =>
      u.isl[n].dout.hotSwitch = true ∧ u.isl[n].diag = s.isl[n].diag ||| (1#11 <<< 9) ∧ Reports u n 0x43 0 ∧ u.isl[n].dout.sw = false ∧
      IslandOnly s u n) := by
  let hot := (s.settle (.switchOvertemp n)).switchHot n
  obtain ⟨hhot, hoff, hdiag, -, honly⟩ := (s.settle (.switchOvertemp n)).switchHot_spec (n := n) hp
  obtain ⟨l, hisl, -⟩ := hot.digDiag_isl n 9 0x43 0
  exact ⟨_, (exec_switchOvertemp_protects hr hp).trans (State.protects_acts hc _ hh ..), by rw [hisl]; exact hhot,
    by rw [hisl]; exact congrArg (· ||| 1#11 <<< 9) hdiag, reports_digDiag .., by rw [hisl]; exact hoff,
    ((islandOnly_settle s _ n).trans honly).trans (islandOnly_digDiag hot ..)⟩

theorem switchOvertemp_due (hr : s.running n = true) (hc : s.clocked = true) (hp : s.isl[n].pers.digOut = true)
    (hh : s.isl[n].dout.hotSwitch = true) (hd : s.isDue (.switchOvertemp n) = true) : Completes (.switchOvertemp n) s (fun u =>
      u.isl[n].diag = s.isl[n].diag ||| (1#11 <<< 9) ∧ Reports u n 0x43 0 ∧ IslandOnly s u n) := by
  obtain ⟨l, hisl, -⟩ := (s.settle (.switchOvertemp n)).digDiag_isl n 9 0x43 0
  exact ⟨_, (exec_switchOvertemp_protects hr hp).trans (State.protects_reports hc hd hh ..), by rw [hisl]; rfl, reports_digDiag ..,
    (islandOnly_settle s _ n).trans (islandOnly_digDiag ..)⟩

theorem switchOvertemp_stands (hr : s.running n = true) (hc : s.clocked = true) (hp : s.isl[n].pers.digOut = true)
    (hh : s.isl[n].dout.hotSwitch = true) (hd : s.isDue (.switchOvertemp n) = false) : exec (.switchOvertemp n) s = .next s :=
  (exec_switchOvertemp_protects hr hp).trans (State.protects_stands hc hd hh ..)

/-- What is owed one tick from now by a state of the same tick, beside which only island n has changed. -/
theorem IslandOnly.owes_next (h : IslandOnly s v n) (c : Instr) :
    (s.tick + 1, c) ∈ (v.owe 1 c).due ∧ (v.owe 1 c).isl = v.isl ∧ IslandOnly s (v.owe 1 c) n := by
  refine ⟨?_, State.owe_isl .., h.trans (islandOnly_owe v 1 c n)⟩
  rw [← h.tick]
  exact v.mem_owe_self 1 c

theorem switchOvertemp_stopped (hr : s.running n = true) (hk : s.pow.hck = false) (h4 : s.pow.k4 = false) (hdef : s.pow.deferral = false)
    (hp : s.isl[n].pers.digOut = true) (hh : s.isl[n].dout.hotSwitch = false) : Completes (.switchOvertemp n) s (fun u =>
      u.isl[n].dout.hotSwitch = true ∧ u.isl[n].dout.sw = false ∧ u.isl[n].diag = s.isl[n].diag ∧ u.isl[n].up = s.isl[n].up ∧
      (s.tick + 1, .switchOvertemp n) ∈ u.due ∧ IslandOnly s u n) := by
  obtain ⟨hhot, hoff, hdiag, hup, honly⟩ := s.switchHot_spec (n := n) hp
  obtain ⟨howed, hisl, honly'⟩ := honly.owes_next (.switchOvertemp n)
  refine ⟨_, (exec_switchOvertemp_protects hr hp).trans (State.protects_stopped hk h4 hdef _ hh ..), ?_⟩
  dsimp only
  rw [hisl]
  exact ⟨hhot, hoff, hdiag, hup, howed, honly'⟩

theorem switchCooled_follows : Completes (.switchCooled n) s (fun u =>
    u.isl[n].dout.hotSwitch = false ∧ (s.isl[n].pers = .dO → u.isl[n].dout.sw = decide (u.isl[n].digTarget ≠ 0)) ∧ IslandOnly s u n) := by
  let cooled := s.modDout n (fun d => { d with hotSwitch := false })
  have hisl : cooled.isl[n] = { s.isl[n] with dout := { s.isl[n].dout with hotSwitch := false } } := State.modIsl_same ..
  obtain ⟨-, -, -, -, -, hcool, -⟩ := cooled.outputs_leaves n true
  have hpers : (cooled.outputs n true).isl[n].pers = s.isl[n].pers := (State.driven_pers (cooled.outputs_beside n true)).trans (by rw [hisl]; rfl)
  exact ⟨_, rfl, hcool.trans (by rw [hisl]), fun hp => (cooled.outputs_follows n true).1 (hpers.trans hp),
    (islandOnly_modIsl s n _).trans (islandOnly_outputs cooled n true)⟩

theorem inrushEnd_ends : Completes (.inrushEnd n) s (fun u =>
    u.isl[n] = { s.isl[n] with dout := { s.isl[n].dout with inrush := false } } ∧ IslandOnly s u n) :=
  ⟨_, rfl, State.modIsl_same .., (islandOnly_cancel s _ n).trans (islandOnly_modIsl _ n _)⟩

theorem aoOvertemp_reports (hr : s.running n = true) (hc : s.clocked = true) (hp : s.isl[n].pers.anaOut = true)
    (hh : s.isl[n].ana.hotDriver = false) : Completes (.aoOvertemp n) s (fun u =>
      u.isl[n].ana.hotDriver = true ∧ u.isl[n].adiag = s.isl[n].adiag ||| (1#8 <<< 6) ∧ Reports u n 0x4E 0 ∧
      (s.isl[n].dead = false → s.isl[n].rungs.rung ≠ 0 → u.isl[n].ana.driven = 0) ∧ IslandOnly s u n) := by
  let hot := (s.settle (.aoOvertemp n)).driverHot n
  obtain ⟨hhot, hadiag, -, hdriven, honly⟩ := (s.settle (.aoOvertemp n)).driverHot_spec (n := n) hp
  obtain ⟨l, hisl⟩ := hot.anaDiag_isl n 6 0x4E 0
  exact ⟨_, (exec_aoOvertemp_protects hr hp).trans (State.protects_acts hc _ hh ..), by rw [hisl]; exact hhot,
    by rw [hisl]; exact congrArg (· ||| 1#8 <<< 6) hadiag, reports_anaDiag .., fun hd h0 => by rw [hisl]; exact hdriven hd h0,
    ((islandOnly_settle s _ n).trans honly).trans (islandOnly_anaDiag hot ..)⟩

theorem aoOvertemp_stopped (hr : s.running n = true) (hk : s.pow.hck = false) (h4 : s.pow.k4 = false) (hdef : s.pow.deferral = false)
    (hp : s.isl[n].pers.anaOut = true) (hh : s.isl[n].ana.hotDriver = false) : Completes (.aoOvertemp n) s (fun u =>
      u.isl[n].ana.hotDriver = true ∧ u.isl[n].adiag = s.isl[n].adiag ∧ u.isl[n].up = s.isl[n].up ∧
      (s.isl[n].dead = false → s.isl[n].rungs.rung ≠ 0 → u.isl[n].ana.driven = 0) ∧ (s.tick + 1, .aoOvertemp n) ∈ u.due ∧ IslandOnly s u n) := by
  obtain ⟨hhot, hadiag, hup, hdriven, honly⟩ := s.driverHot_spec (n := n) hp
  obtain ⟨howed, hisl, honly'⟩ := honly.owes_next (.aoOvertemp n)
  refine ⟨_, (exec_aoOvertemp_protects hr hp).trans (State.protects_stopped hk h4 hdef _ hh ..), ?_⟩
  dsimp only
  rw [hisl]
  exact ⟨hhot, hadiag, hup, hdriven, howed, honly'⟩

theorem aoCooled_follows (hp : s.isl[n].pers.anaOut = true) : Completes (.aoCooled n) s (fun u =>
    u.isl[n].ana.hotDriver = false ∧ u.isl[n].ana.driven = (u.aoTarget n).1 ∧ IslandOnly s u n) := by
  let cooled := s.modIsl n (fun i => { i with ana := { i.ana with hotDriver := false } })
  have hisl : cooled.isl[n] = { s.isl[n] with ana := { s.isl[n].ana with hotDriver := false } } := State.modIsl_same ..
  obtain ⟨-, -, -, -, -, -, hcool⟩ := cooled.outputs_leaves n true
  have hpers : (cooled.outputs n true).isl[n].pers = s.isl[n].pers := (State.driven_pers (cooled.outputs_beside n true)).trans (by rw [hisl]; rfl)
  exact ⟨_, rfl, hcool.trans (by rw [hisl]), (cooled.outputs_follows n true).2 (by rw [hpers]; exact hp),
    (islandOnly_modIsl s n _).trans (islandOnly_outputs cooled n true)⟩

/-! ### Checks -/

/-- A count reaches N on the N-th mismatch in a row, and on no other check (R152). -/
theorem Island.countTo_digN (i : Island) {k : Nat} {bad : Bool} : countTo i.digN k bad = i.digN ↔ bad = true ∧ k + 1 = i.digN := by
  have hn : 0 < i.digN := Nat.succ_pos _
  cases bad with
  | false => simp [countTo, hn.ne]
  | true =>
    have hmin : min (i.digN + 1) (k + 1) = i.digN ↔ k + 1 = i.digN := by omega
    simpa [countTo] using hmin

/-- The state u is v, but where p holds the diagnostic of this bit has been recorded and reported with its kind. -/
structure ReportsIf (v u : State) (n : IslandNo) (p : Prop) (bit : Nat) (src kind : Byte) : Prop where
  dout : u.isl[n].dout = v.isl[n].dout
  hit : p → u.isl[n].diag = v.isl[n].diag ||| (1#11 <<< bit) ∧ Reports u n src kind
  miss : ¬ p → u.isl[n].diag = v.isl[n].diag ∧ u.isl[n].up = v.isl[n].up
  up : v.isl[n].up ⊆ u.isl[n].up
  only : IslandOnly v u n

theorem reportsIf_ite (v : State) (n : IslandNo) (p : Prop) [Decidable p] (bit : Nat) (src kind : Byte) :
    ReportsIf v (if p then v.digDiag n bit src kind else v) n p bit src kind := by
  by_cases hp : p
  · obtain ⟨l, hisl, hsub⟩ := v.digDiag_isl n bit src kind
    rw [if_pos hp]
    exact ⟨by rw [hisl], fun _ => ⟨by rw [hisl], reports_digDiag ..⟩, fun h => absurd hp h, by rw [hisl]; exact hsub, islandOnly_digDiag ..⟩
  · rw [if_neg hp]
    exact ⟨rfl, fun h => absurd h hp, fun _ => ⟨rfl, rfl⟩, List.Subset.refl _, .rfl⟩

theorem ReportsIf.congr {p q : Prop} {bit : Nat} {src kind : Byte} (h : ReportsIf v u n p bit src kind) (hpq : p ↔ q) :
    ReportsIf v u n q bit src kind := by rwa [← hpq]

/-- Island n's counts after a check of this tick. -/
def State.checked (s : State) (n : IslandNo) (ol stuck off : Nat) : State :=
  s.modDout n (fun d => { d with checkAt := s.tick, cntOl := ol, cntStuck := stuck, cntOff := off })

theorem State.checked_isl (s : State) (n : IslandNo) (ol stuck off : Nat) : (s.checked n ol stuck off).isl[n] =
    { s.isl[n] with dout := { s.isl[n].dout with checkAt := s.tick, cntOl := ol, cntStuck := stuck, cntOff := off } } := State.modIsl_same ..

/-- A check with the switch on, and one with it off, leave the counts of the other state (R152). -/
theorem State.checked_on (s : State) (n : IslandNo) (k : Nat) :
    (s.modDout n (fun d => { d with checkAt := s.tick })).modDout n (fun d => { d with cntOl := k }) =
      s.checked n k s.isl[n].dout.cntStuck s.isl[n].dout.cntOff := (s.modIsl_modIsl ..).trans (State.modIsl_congr rfl)
theorem State.checked_off (s : State) (n : IslandNo) (k j : Nat) :
    (s.modDout n (fun d => { d with checkAt := s.tick })).modDout n (fun d => { d with cntStuck := k, cntOff := j }) =
      s.checked n s.isl[n].dout.cntOl k j := (s.modIsl_modIsl ..).trans (State.modIsl_congr rfl)

/-- With the switch on a check counts low load current alone (R152). -/
theorem outputCheck_on (hc : s.clocked = true) (hd : s.checkDue n = true) (hon : s.isl[n].checksOn = true) (hsw : s.isl[n].dout.sw = true)
    (c : LoadCheck) : exec (.outputCheck n c) s =
      let i := s.isl[n]
      let t := s.checked n (countTo i.digN i.dout.cntOl c.belowOl) i.dout.cntStuck i.dout.cntOff
      .next (if countTo i.digN i.dout.cntOl c.belowOl = i.digN then t.digDiag n 4 0x40 1 else t) := by
  have hgo : ¬ (!s.isl[n].checksOn || !s.checkDue n) = true := by rw [hon, hd]; exact Bool.false_ne_true
  rw [exec_outputCheck, execOutputCheck, State.act_on _ hc]
  dsimp only
  rw [if_neg hgo, if_pos hsw, State.checked_on]

/-- With the switch off it counts a current and, where CFG enables it, an open load (R152, R153). -/
theorem outputCheck_off (hc : s.clocked = true) (hd : s.checkDue n = true) (hon : s.isl[n].checksOn = true) (hsw : s.isl[n].dout.sw = false)
    (c : LoadCheck) : exec (.outputCheck n c) s =
      let i := s.isl[n]
      let k := countTo i.digN i.dout.cntStuck c.aboveOff
      let j := if (i.reg 0).getLsbD 5 then countTo i.digN i.dout.cntOff c.taHigh else i.dout.cntOff
      let t := s.checked n i.dout.cntOl k j
      let t := if k = i.digN then t.digDiag n 5 0x40 2 else t
      .next (if (i.reg 0).getLsbD 5 ∧ j = i.digN then t.digDiag n 6 0x40 3 else t) := by
  have hgo : ¬ (!s.isl[n].checksOn || !s.checkDue n) = true := by rw [hon, hd]; exact Bool.false_ne_true
  rw [exec_outputCheck, execOutputCheck, State.act_on _ hc]
  dsimp only
  rw [if_neg hgo, if_neg (by rw [hsw]; exact Bool.false_ne_true), State.checked_off]

/-- The N-th low load current in a row is recorded and reported with kind 1 (R152). -/
theorem outputCheck_counts_on (hc : s.clocked = true) (c : LoadCheck) (hd : s.checkDue n = true) (hon : s.isl[n].checksOn = true)
    (hsw : s.isl[n].dout.sw = true) :
    let i := s.isl[n]
    let hit : Prop := c.belowOl = true ∧ i.dout.cntOl + 1 = i.digN
    Completes (.outputCheck n c) s (fun u =>
      u.isl[n].dout.cntOl = countTo i.digN i.dout.cntOl c.belowOl ∧ u.isl[n].dout.cntStuck = i.dout.cntStuck ∧
      u.isl[n].dout.cntOff = i.dout.cntOff ∧ u.isl[n].dout.checkAt = s.tick ∧
      (hit → u.isl[n].diag = i.diag ||| (1#11 <<< 4) ∧ Reports u n 0x40 1) ∧
      (¬ hit → u.isl[n].diag = i.diag ∧ u.isl[n].up = i.up) ∧ IslandOnly s u n) := by
  intro i hit
  let k := countTo i.digN i.dout.cntOl c.belowOl
  let t := s.checked n k i.dout.cntStuck i.dout.cntOff
  have hisl : t.isl[n] = { i with dout := { i.dout with checkAt := s.tick, cntOl := k } } := s.checked_isl ..
  have h := (reportsIf_ite t n (k = i.digN) 4 0x40 1).congr i.countTo_digN
  refine ⟨_, outputCheck_on hc hd hon hsw c, ?_⟩
  obtain ⟨hdout, hrep, hmiss, -, honly⟩ := h
  rw [hisl] at hdout hrep hmiss
  exact ⟨by rw [hdout], by rw [hdout], by rw [hdout], by rw [hdout], hrep, hmiss, (islandOnly_modIsl s n _).trans honly⟩

/-- The N-th current in a row with the switch off is recorded and reported with kind 2, the N-th open load with kind 3 (R152, R153). -/
theorem outputCheck_counts_off (hc : s.clocked = true) (c : LoadCheck) (hd : s.checkDue n = true) (hon : s.isl[n].checksOn = true)
    (hsw : s.isl[n].dout.sw = false) :
    let i := s.isl[n]
    let hit : Prop := c.aboveOff = true ∧ i.dout.cntStuck + 1 = i.digN
    let open_ : Prop := (i.reg 0).getLsbD 5 = true ∧ c.taHigh = true ∧ i.dout.cntOff + 1 = i.digN
    Completes (.outputCheck n c) s (fun u =>
      u.isl[n].dout.cntStuck = countTo i.digN i.dout.cntStuck c.aboveOff ∧ u.isl[n].dout.cntOl = i.dout.cntOl ∧
      u.isl[n].dout.cntOff = (if (i.reg 0).getLsbD 5 then countTo i.digN i.dout.cntOff c.taHigh else i.dout.cntOff) ∧
      u.isl[n].dout.checkAt = s.tick ∧ (hit → Reports u n 0x40 2) ∧ (open_ → Reports u n 0x40 3) ∧
      (hit → ¬ open_ → u.isl[n].diag = i.diag ||| (1#11 <<< 5)) ∧ (open_ → ¬ hit → u.isl[n].diag = i.diag ||| (1#11 <<< 6)) ∧
      (hit → open_ → u.isl[n].diag = i.diag ||| (1#11 <<< 5) ||| (1#11 <<< 6)) ∧
      (¬ hit → ¬ open_ → u.isl[n].diag = i.diag ∧ u.isl[n].up = i.up) ∧ IslandOnly s u n) := by
  intro i hit open_
  let k := countTo i.digN i.dout.cntStuck c.aboveOff
  let j := if (i.reg 0).getLsbD 5 then countTo i.digN i.dout.cntOff c.taHigh else i.dout.cntOff
  let t := s.checked n i.dout.cntOl k j
  let v := if k = i.digN then t.digDiag n 5 0x40 2 else t
  have hisl : t.isl[n] = { i with dout := { i.dout with checkAt := s.tick, cntStuck := k, cntOff := j } } := s.checked_isl ..
  have hopen : (i.reg 0).getLsbD 5 = true ∧ j = i.digN ↔ open_ :=
    and_congr_right fun holoff => by rw [show j = countTo i.digN i.dout.cntOff c.taHigh from if_pos holoff, i.countTo_digN]
  have h5 : ReportsIf t v n hit 5 0x40 2 := (reportsIf_ite t n (k = i.digN) 5 0x40 2).congr i.countTo_digN
  have h6 := (reportsIf_ite v n ((i.reg 0).getLsbD 5 = true ∧ j = i.digN) 6 0x40 3).congr hopen
  refine ⟨_, outputCheck_off hc hd hon hsw c, ?_⟩
  obtain ⟨hdout, hrep, hmiss, -, honly⟩ := h5
  obtain ⟨hdout', hrep', hmiss', hup', honly'⟩ := h6
  rw [hisl] at hdout hrep hmiss
  rw [hdout] at hdout'
  exact ⟨by rw [hdout'], by rw [hdout'], by rw [hdout'], by rw [hdout'], fun h => (hrep h).2.mono hup', fun h => (hrep' h).2,
    fun h ho => (hmiss' ho).1.trans (hrep h).1, fun ho h => (hrep' ho).1.trans (by rw [(hmiss h).1]),
    fun h ho => (hrep' ho).1.trans (by rw [(hrep h).1]),
    fun h ho => ⟨(hmiss' ho).1.trans (hmiss h).1, (hmiss' ho).2.trans (hmiss h).2⟩,
    ((islandOnly_modIsl s n _).trans honly).trans honly'⟩

/-- A check that is not due counts nothing (R152). -/
theorem outputCheck_early (c : LoadCheck) (hd : s.checkDue n = false) : exec (.outputCheck n c) s = .next s := by
  rw [exec_outputCheck, execOutputCheck]
  exact State.act_stands (if_pos (by rw [hd]; simp))

/-- A DO takes a check every 64 itk, and none within 64 itk of a switching edge (R152). -/
theorem State.checkDue_dO (hp : s.isl[n].pers = .dO) :
    s.checkDue n = true ↔ s.isl[n].dout.swAt + 128 ≤ s.tick ∧ s.isl[n].dout.checkAt + 128 ≤ s.tick := by
  have hdue : s.checkDue n = (decide (s.isl[n].dout.swAt + 128 ≤ s.tick) && decide (s.isl[n].dout.checkAt + 128 ≤ s.tick)) :=
    if_neg (by rw [hp]; decide)
  rw [hdue, Bool.and_eq_true, decide_eq_true_eq, decide_eq_true_eq]

/-! ### Records -/

theorem diagClear_clears (hc : s.clocked = true) (w : Word) (hp : s.isl[n].pers.digIn = true ∨ s.isl[n].pers.digOut = true) :
    Completes (.diagClear n w) s (fun u =>
      (∀ k < 11, u.isl[n].diag.getLsbD k = (s.isl[n].diag.getLsbD k && !w.getLsbD k)) ∧
      u.isl[n].dout.short = (s.isl[n].dout.short && !w.getLsbD 7) ∧ u.isl[n].dout.ovl = (s.isl[n].dout.ovl && !w.getLsbD 8) ∧
      IslandOnly s u n) := by
  let cleared := s.modIsl n (fun i =>
    { i with diag := i.diag &&& ~~~(w.extractLsb' 0 11),
             dout := { i.dout with short := i.dout.short && !w.getLsbD 7, ovl := i.dout.ovl && !w.getLsbD 8 } })
  have hrun : exec (.diagClear n w) s = .next (cleared.outputs n true) := by
    rw [exec_diagClear, execDiagClear, State.act_on _ hc, State.diagClear, if_pos (Bool.or_eq_true_iff.2 hp)]
  have hdiag : cleared.isl[n].diag = s.isl[n].diag &&& ~~~(w.extractLsb' 0 11) := congrArg Island.diag (State.modIsl_same ..)
  have hdout : cleared.isl[n].dout =
      { s.isl[n].dout with short := s.isl[n].dout.short && !w.getLsbD 7, ovl := s.isl[n].dout.ovl && !w.getLsbD 8 } :=
    congrArg Island.dout (State.modIsl_same ..)
  obtain ⟨hd, -, -, hshort, hovl, -⟩ := cleared.outputs_leaves n true
  refine ⟨_, hrun, fun k hk => ?_, hshort.trans (by rw [hdout]), hovl.trans (by rw [hdout]),
    (islandOnly_modIsl s n _).trans (islandOnly_outputs cleared n true)⟩
  rw [hd, hdiag, BitVec.getLsbD_and, BitVec.getLsbD_not, BitVec.getLsbD_extractLsb']
  simp [hk]

/-! ### Analog outputs out of compliance -/

/-- The flag takes whether a driver in force is out of compliance; the beginning is reported (R169, R170). -/
theorem exec_aoOpen_on (hc : s.clocked = true) (hp : s.isl[n].pers.anaOut = true) (hr : s.running n = true) (lasts : Bool) :
    exec (.aoOpen ⟨n, lasts⟩) s =
      let bad := lasts && !s.isl[n].ana.hotDriver && (s.aoTarget n).2
      let t := s.modIsl n (fun i => { i with ana := { i.ana with opn := bad } })
      .next (if bad && !s.isl[n].ana.opn then t.anaDiag n 0 0x4B 0 else t) := by
  rw [exec_aoOpen, execAoOpen, State.act_on _ hc]
  exact congrArg _ (if_neg (by rw [hp, hr]; exact Bool.false_ne_true))

theorem aoOpen_ends (hc : s.clocked = true) (hp : s.isl[n].pers.anaOut = true) (hr : s.running n = true) :
    exec (.aoOpen ⟨n, false⟩) s = .next (s.modIsl n (fun i => { i with ana := { i.ana with opn := false } })) := by
  simp only [exec_aoOpen_on hc hp hr, Bool.false_and, Bool.false_eq_true, if_false]

theorem aoOpen_reports (hc : s.clocked = true) (hp : s.isl[n].pers.anaOut = true) (hr : s.running n = true)
    (hh : s.isl[n].ana.hotDriver = false) (ht : (s.aoTarget n).2 = true) (ho : s.isl[n].ana.opn = false) :
    Completes (.aoOpen ⟨n, true⟩) s (fun u =>
      u.isl[n].adiag = s.isl[n].adiag ||| (1#8 <<< 0) ∧ u.isl[n].ana.opn = true ∧ Reports u n 0x4B 0 ∧ IslandOnly s u n) := by
  let opened := s.modIsl n (fun i => { i with ana := { i.ana with opn := true } })
  have hrun : exec (.aoOpen ⟨n, true⟩) s = .next (opened.anaDiag n 0 0x4B 0) := by
    simp only [exec_aoOpen_on hc hp hr, hh, ht, ho, Bool.not_false, Bool.and_true, if_true]
    rfl
  have hopened : opened.isl[n] = { s.isl[n] with ana := { s.isl[n].ana with opn := true } } := State.modIsl_same ..
  obtain ⟨l, hisl⟩ := opened.anaDiag_isl n 0 0x4B 0
  rw [hopened] at hisl
  exact ⟨_, hrun, by rw [hisl], by rw [hisl], reports_anaDiag .., (islandOnly_modIsl s n _).trans (islandOnly_anaDiag opened ..)⟩

theorem aoOpen_stands (hc : s.clocked = true) (hp : s.isl[n].pers.anaOut = true) (hr : s.running n = true)
    (hh : s.isl[n].ana.hotDriver = false) (ht : (s.aoTarget n).2 = true) (ho : s.isl[n].ana.opn = true) :
    exec (.aoOpen ⟨n, true⟩) s = .next s := by
  simp only [exec_aoOpen_on hc hp hr, hh, ht, ho, Bool.not_false, Bool.not_true, Bool.and_true, Bool.and_false, Bool.false_eq_true, if_false]
  exact congrArg _ (State.modIsl_self (by rw [← ho]))

end Protection

/-- Settles O26: the protections by the state that latches or is hot, the checks by their counts, records and compliance by the lemmas about
their rows. -/
theorem outputsProtectAndCheck : Obligations.OutputsProtectAndCheck := by
  refine ⟨fun s n hr => ?_, fun s n hc => ?_⟩
  · exact ⟨shortLatch_latches hr, overloadLatch_latches hr, shortLatch_stands, overloadLatch_stands, switchOvertemp_reports hr,
      switchOvertemp_due hr, switchOvertemp_stands hr, fun ⟨hk, h4, hdef⟩ => switchOvertemp_stopped hr hk h4 hdef, switchCooled_follows,
      inrushEnd_ends, aoOvertemp_reports hr, fun ⟨hk, h4, hdef⟩ => aoOvertemp_stopped hr hk h4 hdef, aoCooled_follows⟩
  · exact ⟨State.checkDue_dO, outputCheck_counts_on hc, outputCheck_counts_off hc, outputCheck_early, diagClear_clears hc, aoOpen_ends hc,
      fun hp hr hh ht => ⟨aoOpen_reports hc hp hr hh ht, aoOpen_stands hc hp hr hh ht⟩⟩

end Sys2Proof.Machine

/-! # Loops and analog: the HART modem, the converter -/

namespace Sys2Proof.Machine

/-! ## The HART modem (O27) -/

section Modem

variable {s u : State} {n : IslandNo}

/-! ### What the modem's operations leave -/

theorem IslandOnly.rate (h : IslandOnly s u n) : u.rate = s.rate := by rw [h.1]
theorem IslandOnly.clampLink (h : IslandOnly s u n) : u.clampLink = s.clampLink := by rw [h.1]

/-- Memory, faults, contexts and the other islands stand. -/
def OthersStand (s u : State) (n : IslandNo) : Prop :=
  (∀ m, m ≠ n → u.isl[m] = s.isl[m]) ∧ u.mem = s.mem ∧ u.fault = s.fault ∧ u.facet = s.facet

theorem IslandOnly.othersStand (h : IslandOnly s u n) : OthersStand s u n :=
  ⟨h.2, by rw [h.1], h.fault, by rw [h.1]⟩

theorem State.modHart_hart (s : State) (n : IslandNo) (f : Hart → Hart) : (s.modHart n f).isl[n].hart = f s.isl[n].hart :=
  congrArg Island.hart (State.modIsl_same ..)

theorem islandOnly_modHart (s : State) (n : IslandNo) (f : Hart → Hart) : IslandOnly s (s.modHart n f) n := islandOnly_modIsl s n _

theorem State.hartStop_due {e : Tick × Instr} : e ∈ (s.hartStop n).due ↔
    e ∈ s.due ∧ e.2 ≠ .hartCharEnd n ∧ e.2 ≠ .hartRxEnd n ∧ e.2 ≠ .hartTimeout n := by
  simp only [State.hartStop, State.cancel_due, and_assoc]

theorem islandOnly_hartStop (s : State) (n : IslandNo) : IslandOnly s (s.hartStop n) n := islandOnly_due s _ n

theorem State.hartRes_hart (s : State) (n : IslandNo) (r : HRes) : (s.hartRes n r).isl[n].hart = { s.isl[n].hart with res := r.code } :=
  s.modHart_hart n _

theorem islandOnly_hartRes (s : State) (n : IslandNo) (r : HRes) : IslandOnly s (s.hartRes n r) n := islandOnly_modHart s n _

theorem State.hartIdle_hart (s : State) (n : IslandNo) (r : HRes) : (s.hartIdle n r).isl[n].hart =
    { s.isl[n].hart with st := .idle, res := r.code, txq := [], framed := false, armed := false, preamb := 0, storing := false } :=
  (s.hartStop n).modHart_hart n _

theorem islandOnly_hartIdle (s : State) (n : IslandNo) (r : HRes) : IslandOnly s (s.hartIdle n r) n :=
  (islandOnly_hartStop s n).trans (islandOnly_modHart _ n _)

theorem State.hartReceive_hart (s : State) (n : IslandNo) : (s.hartReceive n).isl[n].hart =
    { s.isl[n].hart with st := .rx, armed := false, preamb := 0, storing := false, stored := 0, perr := false, cksum := 0 } :=
  (s.hartStop n).modHart_hart n _

theorem islandOnly_hartReceive (s : State) (n : IslandNo) : IslandOnly s (s.hartReceive n) n :=
  (islandOnly_hartStop s n).trans (islandOnly_modHart _ n _)

/-- The character that follows changes the calendar alone, where its end is owed. -/
theorem State.owesMore_hartCharNext (s : State) (n : IslandNo) : s.OwesMore (s.hartCharNext n) := s.owesMore_oweAt _ _

theorem State.mem_hartCharNext (s : State) (n : IslandNo) : (s.isl[n].hart.txAt +
    BitVec.ofNat 64 (charsTk s.isl[n].hart.rate (s.isl[n].hart.txN + 1)), .hartCharEnd n) ∈ (s.hartCharNext n).due :=
  State.mem_oweAt.2 (.inr rfl)

/-- A transmission starts 4 tk after the next edge of HCK/4 (R20, R21), and its first character's end is owed. -/
theorem State.hartStart_spec (s : State) (n : IslandNo) (q : List (Byte × Bool)) (framed : Bool) :
    let start := s.tick + BitVec.ofNat 64 (s.qtk + 4)
    (s.hartStart n q framed).isl[n].hart = { s.isl[n].hart with
      st := .tx, txq := q, framed := framed, armed := false, lastSent := false, rate := s.rate, txAt := start, txN := 0 } ∧
    (start + BitVec.ofNat 64 (charsTk s.rate 1), .hartCharEnd n) ∈ (s.hartStart n q framed).due ∧
    IslandOnly s (s.hartStart n q framed) n := by
  intro start
  let loaded := (s.hartStop n).modHart n (fun h => { h with
    st := .tx, txq := q, framed := framed, armed := false, lastSent := false, rate := s.rate, txAt := start, txN := 0 })
  have hloaded : loaded.isl[n].hart = { s.isl[n].hart with
      st := .tx, txq := q, framed := framed, armed := false, lastSent := false, rate := s.rate, txAt := start, txN := 0 } :=
    (s.hartStop n).modHart_hart n _
  have hmore : loaded.OwesMore (s.hartStart n q framed) := loaded.owesMore_hartCharNext n
  have howed := loaded.mem_hartCharNext n
  rw [hloaded] at howed
  refine ⟨?_, howed, ((islandOnly_hartStop s n).trans (islandOnly_modHart _ n _)).trans (hmore.islandOnly n)⟩
  rw [hmore.isl, hloaded]

/-- The receiver waits RXTO characters for an answer (R187). -/
theorem State.hartArm_waits (hr : s.hartRate = true) : (s.hartArm n).isl[n].hart = { s.isl[n].hart with
      st := .wait, framed := false, preamb := 0, storing := false, stored := 0, perr := false, cksum := 0, rate := s.rate } ∧
    (s.tick + BitVec.ofNat 64 (s.qtk + charsTk s.rate s.isl[n].rxto), .hartTimeout n) ∈ (s.hartArm n).due ∧ IslandOnly s (s.hartArm n) n := by
  let waiting := s.modHart n (fun h => { h with
    st := .wait, framed := false, preamb := 0, storing := false, stored := 0, perr := false, cksum := 0, rate := s.rate })
  have harm : s.hartArm n = waiting.owe (s.qtk + charsTk s.rate s.isl[n].rxto) (.hartTimeout n) := if_neg (by rw [hr]; exact Bool.false_ne_true)
  rw [harm, State.owe_isl]
  exact ⟨s.modHart_hart n _, waiting.mem_owe_self _ _, (islandOnly_modHart s n _).trans (islandOnly_owe waiting ..)⟩

/-- Without the rate the receiver stays off (R182). -/
theorem State.hartArm_norate (hr : s.hartRate = false) : s.hartArm n = s.hartIdle n .norate := if_pos (by rw [hr]; rfl)

/-! ### Commands -/

/-- A modem that runs belongs to an island with the overlay (R181). -/
theorem Island.hart_of_hartRung {i : Island} (h : i.hartRung ≠ 0) : i.pers.hart = true := by
  by_contra hp
  exact h (if_neg (by simp [hp]))

theorem State.hcmd_on (hc : s.clocked = true) (hp : s.isl[n].pers.hart = true) (f : State → State) : s.hcmd n f = .next (f s) := by
  rw [State.hcmd, State.act_on _ hc]
  exact congrArg _ (if_pos hp)

/-- A write to HCMD of an island without the overlay is ignored (R413). -/
theorem hcmd_ignored (hp : s.isl[n].pers.hart = false) (len : BitVec 9) :
    ∀ c ∈ [Instr.hcmdSend n len, .hcmdListen n, .hcmdAbort n], exec c s = .next s := by
  have hstands (f : State → State) : s.hcmd n f = .next s := State.act_stands (if_neg (by rw [hp]; exact Bool.false_ne_true))
  simp only [List.forall_mem_cons, exec_hcmdSend, exec_hcmdListen, exec_hcmdAbort]
  exact ⟨hstands _, hstands _, hstands _, by simp⟩

/-- A command that only gives RES a code. -/
theorem hartRes_answers {c : Instr} {r : HRes} (h : exec c s = .next (s.hartRes n r)) : Completes c s (fun u =>
    u.isl[n].hart = { s.isl[n].hart with res := r.code } ∧ OthersStand s u n) :=
  ⟨_, h, s.hartRes_hart n r, (islandOnly_hartRes s n r).othersStand⟩

/-- The bytes that a SEND of this length takes from the buffer (R185). -/
def Island.sendLen (i : Island) (len : BitVec 9) : Nat := min (min 288 (max 1 len.toNat)) (0x4000 - i.txBase)

/-- The bytes of a frame: preamble, buffer and checksum (R185). -/
def Island.frame (i : Island) (k : Nat) : List Byte :=
  let body := (List.range k).map (fun j => i.byte (i.txBase + j))
  List.replicate i.preambLen 0xFF ++ body ++ [body.foldl (· ^^^ ·) 0]

/-- A SEND whose length is limited counts a clamp of the link (R124). -/
def State.sendClamped (s : State) (n : IslandNo) (len : BitVec 9) : State :=
  { s with clampLink := if s.isl[n].sendLen len = len.toNat then s.clampLink else satAdd s.clampLink 1 }

/-- The link's clamp counter has counted the SEND where its length was limited. -/
def CountsClamp (s u : State) (n : IslandNo) (len : BitVec 9) : Prop := u.clampLink.toNat =
  if s.isl[n].sendLen len = len.toNat then s.clampLink.toNat else min (2 ^ 16 - 1) (s.clampLink.toNat + 1)

theorem IslandOnly.countsClamp {len : BitVec 9} (h : IslandOnly (s.sendClamped n len) u n) : CountsClamp s u n len := by
  rw [CountsClamp, h.clampLink, State.sendClamped]
  dsimp only
  split
  · rfl
  · rw [satAdd, BitVec.toNat_ofNat]
    omega

/-- A SEND of an idle modem at rung 2 is limited, and then refused without the rate or under a carrier, or it starts (R182, R187). -/
theorem exec_hcmdSend_idle (hc : s.clocked = true) {len : BitVec 9} (hr : s.isl[n].hartRung = 2) (hst : s.isl[n].hart.st = .idle) :
    exec (.hcmdSend n len) s = .next (
      if !s.hartRate then (s.sendClamped n len).hartRes n .norate
      else if s.isl[n].hart.cd then (s.sendClamped n len).hartRes n .carrier
      else (s.sendClamped n len).hartStart n ((s.isl[n].frame (s.isl[n].sendLen len)).map (fun b => (b, false))) true) := by
  have hclamp : (if min (min 288 (max 1 len.toNat)) (islSramBytes - s.isl[n].txBase) = len.toNat then s else s.clamped .link 1) =
      s.sendClamped n len := by
    show (if s.isl[n].sendLen len = len.toNat then s else s.clamped .link 1) = s.sendClamped n len
    unfold State.sendClamped
    split <;> rfl
  rw [exec_hcmdSend, execHcmdSend, State.hcmd_on hc (Island.hart_of_hartRung (by rw [hr]; decide))]
  refine congrArg _ ((if_neg (not_or.2 ⟨not_not.2 hr, not_not.2 hst⟩)).trans ?_)
  dsimp only
  rw [hclamp]
  rfl

theorem hcmdSend_starts (hc : s.clocked = true) {len : BitVec 9} (hr : s.isl[n].hartRung = 2) (hst : s.isl[n].hart.st = .idle)
    (hrate : s.hartRate = true) (hcd : s.isl[n].hart.cd = false) : Completes (.hcmdSend n len) s (fun u =>
      u.isl[n].hart.st = .tx ∧ u.isl[n].hart.framed = true ∧ u.isl[n].hart.txAt = s.tick + BitVec.ofNat 64 (s.qtk + 4) ∧
      CountsClamp s u n len ∧ u.isl[n].hart.txq.map (·.1) = s.isl[n].frame (s.isl[n].sendLen len) ∧
      (s.tick + BitVec.ofNat 64 (s.qtk + 4) + BitVec.ofNat 64 (charsTk s.rate 1), .hartCharEnd n) ∈ u.due ∧ OthersStand s u n) := by
  obtain ⟨hhart, howed, honly⟩ := (s.sendClamped n len).hartStart_spec n ((s.isl[n].frame (s.isl[n].sendLen len)).map (fun b => (b, false))) true
  have hrun : exec (.hcmdSend n len) s =
      .next ((s.sendClamped n len).hartStart n ((s.isl[n].frame (s.isl[n].sendLen len)).map (fun b => (b, false))) true) := by
    rw [exec_hcmdSend_idle hc hr hst, hrate, hcd]
    rfl
  exact ⟨_, hrun, by rw [hhart], by rw [hhart], by rw [hhart]; rfl, honly.countsClamp,
    by rw [hhart]; exact List.map_map.trans (List.map_id _), howed, honly.othersStand⟩

/-- A SEND that is refused on an idle modem has been limited all the same. -/
theorem hcmdSend_refused {len : BitVec 9} {r : HRes} (h : exec (.hcmdSend n len) s = .next ((s.sendClamped n len).hartRes n r)) :
    Completes (.hcmdSend n len) s (fun u => (u.isl[n].hart = { s.isl[n].hart with res := r.code } ∧ OthersStand s u n) ∧
      CountsClamp s u n len) :=
  have honly := islandOnly_hartRes (s.sendClamped n len) n r
  ⟨_, h, ⟨(s.sendClamped n len).hartRes_hart n r, honly.othersStand⟩, honly.countsClamp⟩

theorem hcmdSend_norate (hc : s.clocked = true) (len : BitVec 9) (hr : s.isl[n].hartRung = 2) (hst : s.isl[n].hart.st = .idle)
    (hrate : s.hartRate = false) : exec (.hcmdSend n len) s = .next ((s.sendClamped n len).hartRes n .norate) := by
  rw [exec_hcmdSend_idle hc hr hst, hrate]
  rfl

theorem hcmdSend_carrier (hc : s.clocked = true) (len : BitVec 9) (hr : s.isl[n].hartRung = 2) (hst : s.isl[n].hart.st = .idle)
    (hrate : s.hartRate = true) (hcd : s.isl[n].hart.cd = true) :
    exec (.hcmdSend n len) s = .next ((s.sendClamped n len).hartRes n .carrier) := by
  rw [exec_hcmdSend_idle hc hr hst, hrate, hcd]
  rfl

theorem hcmdSend_badcmd (hc : s.clocked = true) (len : BitVec 9) (hp : s.isl[n].pers.hart = true)
    (h : s.isl[n].hartRung ≠ 2 ∨ s.isl[n].hart.st ≠ .idle) : exec (.hcmdSend n len) s = .next (s.hartRes n .badcmd) := by
  rw [exec_hcmdSend, execHcmdSend, State.hcmd_on hc hp]
  exact congrArg _ (if_pos h)

/-- LISTEN of an idle modem that runs (R187). -/
theorem exec_hcmdListen_idle (hc : s.clocked = true) (hr : s.isl[n].hartRung ≠ 0) (hst : s.isl[n].hart.st = .idle) :
    exec (.hcmdListen n) s = .next (
      if !s.hartRate then s.hartRes n .norate
      else if s.isl[n].hart.cd then s.hartReceive n
      else s.modHart n (fun h => { h with armed := true, rate := s.rate })) := by
  rw [exec_hcmdListen, execHcmdListen, State.hcmd_on hc (Island.hart_of_hartRung hr)]
  exact congrArg _ (if_neg (not_or.2 ⟨hr, not_not.2 hst⟩))

theorem hcmdListen_arms (hc : s.clocked = true) (hr : s.isl[n].hartRung ≠ 0) (hst : s.isl[n].hart.st = .idle) (hrate : s.hartRate = true)
    (hcd : s.isl[n].hart.cd = false) : Completes (.hcmdListen n) s (fun u =>
      u.isl[n].hart = { s.isl[n].hart with armed := true, rate := s.rate } ∧ IslandOnly s u n) := by
  have hrun : exec (.hcmdListen n) s = .next (s.modHart n (fun h => { h with armed := true, rate := s.rate })) := by
    rw [exec_hcmdListen_idle hc hr hst, hrate, hcd]
    rfl
  exact ⟨_, hrun, s.modHart_hart n _, islandOnly_modHart s n _⟩

theorem hcmdListen_receives (hc : s.clocked = true) (hr : s.isl[n].hartRung ≠ 0) (hst : s.isl[n].hart.st = .idle) (hrate : s.hartRate = true)
    (hcd : s.isl[n].hart.cd = true) : Completes (.hcmdListen n) s (fun u =>
      u.isl[n].hart.st = .rx ∧ u.isl[n].hart.stored = 0 ∧ IslandOnly s u n) := by
  have hhart := s.hartReceive_hart n
  have hrun : exec (.hcmdListen n) s = .next (s.hartReceive n) := by
    rw [exec_hcmdListen_idle hc hr hst, hrate, hcd]
    rfl
  exact ⟨_, hrun, congrArg Hart.st hhart, congrArg Hart.stored hhart, islandOnly_hartReceive s n⟩

theorem hcmdListen_badcmd (hc : s.clocked = true) (hp : s.isl[n].pers.hart = true) (h : s.isl[n].hartRung = 0 ∨ s.isl[n].hart.st ≠ .idle) :
    exec (.hcmdListen n) s = .next (s.hartRes n .badcmd) := by
  rw [exec_hcmdListen, execHcmdListen, State.hcmd_on hc hp]
  exact congrArg _ (if_pos h)

theorem hcmdListen_norate (hc : s.clocked = true) (hr : s.isl[n].hartRung ≠ 0) (hst : s.isl[n].hart.st = .idle) (hrate : s.hartRate = false) :
    exec (.hcmdListen n) s = .next (s.hartRes n .norate) := by
  rw [exec_hcmdListen_idle hc hr hst, hrate]
  rfl

theorem hcmdAbort_ends (hc : s.clocked = true) (hr : s.isl[n].hartRung ≠ 0) (hst : s.isl[n].hart.st ≠ .idle) :
    Completes (.hcmdAbort n) s (fun u => u.isl[n].hart.st = .idle ∧ u.isl[n].hart.res = 6 ∧ u.isl[n].hart.txq = [] ∧
      (∀ e ∈ u.due, e.2 ≠ .hartCharEnd n ∧ e.2 ≠ .hartRxEnd n ∧ e.2 ≠ .hartTimeout n) ∧ IslandOnly s u n) := by
  have hrun : exec (.hcmdAbort n) s = .next (s.hartIdle n .aborted) := by
    rw [exec_hcmdAbort, execHcmdAbort, State.hcmd_on hc (Island.hart_of_hartRung hr)]
    exact congrArg _ (if_neg (not_or.2 ⟨hr, hst⟩))
  have hhart := s.hartIdle_hart n .aborted
  exact ⟨_, hrun, congrArg Hart.st hhart, congrArg Hart.res hhart, congrArg Hart.txq hhart, fun e he => (State.hartStop_due.1 he).2,
    islandOnly_hartIdle s n _⟩

theorem hcmdAbort_badcmd (hc : s.clocked = true) (hp : s.isl[n].pers.hart = true) (h : s.isl[n].hartRung = 0 ∨ s.isl[n].hart.st = .idle) :
    exec (.hcmdAbort n) s = .next (s.hartRes n .badcmd) := by
  rw [exec_hcmdAbort, execHcmdAbort, State.hcmd_on hc hp]
  exact congrArg _ (if_pos h)

/-! ### Carrier and characters -/

theorem exec_carrierDetect_found (hc : s.clocked = true) (hr : s.isl[n].hartRung ≠ 0) (hrate : s.hartRate = true) :
    exec (.carrierDetect n) s =
      let t := s.modHart n (fun h => { h with cd := true })
      .next (if t.isl[n].hart.st = .idle ∧ t.isl[n].hart.armed then t.hartReceive n else t) := by
  rw [exec_carrierDetect, execCarrierDetect, State.act_on _ hc]
  exact congrArg _ (if_neg (by rw [hrate]; simpa using hr))

theorem carrierDetect_receives (hc : s.clocked = true) (hr : s.isl[n].hartRung ≠ 0) (hrate : s.hartRate = true)
    (hst : s.isl[n].hart.st = .idle) (harm : s.isl[n].hart.armed = true) : Completes (.carrierDetect n) s (fun u =>
      u.isl[n].hart.st = .rx ∧ u.isl[n].hart.cd = true ∧ u.isl[n].hart.stored = 0 ∧ IslandOnly s u n) := by
  let found := s.modHart n (fun h => { h with cd := true })
  have hfound : found.isl[n].hart = { s.isl[n].hart with cd := true } := s.modHart_hart n _
  have hrun : exec (.carrierDetect n) s = .next (found.hartReceive n) :=
    (exec_carrierDetect_found hc hr hrate).trans (congrArg _ (if_pos (by rw [hfound]; exact ⟨hst, harm⟩)))
  have hhart := found.hartReceive_hart n
  rw [hfound] at hhart
  exact ⟨_, hrun, congrArg Hart.st hhart, congrArg Hart.cd hhart, congrArg Hart.stored hhart,
    (islandOnly_modHart s n _).trans (islandOnly_hartReceive found n)⟩

theorem carrierDetect_notes (hc : s.clocked = true) (hr : s.isl[n].hartRung ≠ 0) (hrate : s.hartRate = true)
    (h : s.isl[n].hart.armed = false ∨ s.isl[n].hart.st ≠ .idle) : Completes (.carrierDetect n) s (fun u =>
      u.isl[n].hart = { s.isl[n].hart with cd := true } ∧ IslandOnly s u n) := by
  let found := s.modHart n (fun h => { h with cd := true })
  have hfound : found.isl[n].hart = { s.isl[n].hart with cd := true } := s.modHart_hart n _
  have hno : ¬ (found.isl[n].hart.st = .idle ∧ found.isl[n].hart.armed = true) := by
    rw [hfound]
    rintro ⟨hst, harm⟩
    exact h.elim (fun h => Bool.false_ne_true (h.symm.trans harm)) (fun h => h hst)
  exact ⟨_, (exec_carrierDetect_found hc hr hrate).trans (congrArg _ (if_neg hno)), hfound, islandOnly_modHart s n _⟩

theorem carrierDetect_off (h : s.isl[n].hartRung = 0 ∨ s.hartRate = false) : exec (.carrierDetect n) s = .next s := by
  rw [exec_carrierDetect, execCarrierDetect]
  refine State.act_stands (if_pos ?_)
  rcases h with h | h <;> rw [h]
  · rfl
  · exact Bool.or_true _

/-- The modem with the character that ends taken from its queue. -/
def State.charTaken (s : State) (n : IslandNo) (l : Bool) (q : List (Byte × Bool)) : State :=
  (s.settle (.hartCharEnd n)).modHart n (fun h => { h with txq := q, lastSent := l, txN := h.txN + 1 })

theorem State.charTaken_isl (s : State) (n : IslandNo) (l : Bool) (q : List (Byte × Bool)) : (s.charTaken n l q).isl[n] =
    { s.isl[n] with hart := { s.isl[n].hart with txq := q, lastSent := l, txN := s.isl[n].hart.txN + 1 } } := State.modIsl_same ..

theorem State.charTaken_hart (s : State) (n : IslandNo) (l : Bool) (q : List (Byte × Bool)) :
    (s.charTaken n l q).isl[n].hart = { s.isl[n].hart with txq := q, lastSent := l, txN := s.isl[n].hart.txN + 1 } := by
  rw [State.charTaken_isl]

theorem islandOnly_charTaken (s : State) (n : IslandNo) (l : Bool) (q : List (Byte × Bool)) : IslandOnly s (s.charTaken n l q) n :=
  (islandOnly_settle s _ n).trans (islandOnly_modHart _ n _)

/-- At the end of a character a frame goes on or the receiver is armed; a raw transmission goes on, or ends with LAST or with its queue
(R186, R187). -/
theorem exec_hartCharEnd_tx (hc : s.clocked = true) (hd : s.isDue (.hartCharEnd n) = true) (hst : s.isl[n].hart.st = .tx) {b : Byte} {l : Bool}
    {q : List (Byte × Bool)} (hq : s.isl[n].hart.txq = (b, l) :: q) : exec (.hartCharEnd n) s =
      let t := s.charTaken n l q
      .next (if s.isl[n].hart.framed then (if q.isEmpty then t.hartArm n else t.hartCharNext n)
        else if l then t.hartIdle n .done else if q.isEmpty then t.hartIdle n .txUnder else t.hartCharNext n) := by
  rw [exec_hartCharEnd, execHartCharEnd, State.timed_on hc hd]
  refine congrArg _ ((if_neg (not_not.2 hst)).trans ?_)
  rw [show (s.settle (.hartCharEnd n)).isl[n].hart.txq = (b, l) :: q from hq]
  rfl

theorem hartCharEnd_next (hc : s.clocked = true) (hd : s.isDue (.hartCharEnd n) = true) (hst : s.isl[n].hart.st = .tx) {b : Byte} {l : Bool}
    {c : Byte × Bool} {q : List (Byte × Bool)} (hq : s.isl[n].hart.txq = (b, l) :: c :: q) (h : s.isl[n].hart.framed = true ∨ l = false) :
    Completes (.hartCharEnd n) s (fun u =>
      u.isl[n].hart = { s.isl[n].hart with txq := c :: q, lastSent := l, txN := s.isl[n].hart.txN + 1 } ∧
      (s.isl[n].hart.txAt + BitVec.ofNat 64 (charsTk s.isl[n].hart.rate (s.isl[n].hart.txN + 2)), .hartCharEnd n) ∈ u.due ∧
      IslandOnly s u n) := by
  let t := s.charTaken n l (c :: q)
  have ht : t.isl[n].hart = { s.isl[n].hart with txq := c :: q, lastSent := l, txN := s.isl[n].hart.txN + 1 } := s.charTaken_hart n l _
  have hrun : exec (.hartCharEnd n) s = .next (t.hartCharNext n) := by
    rw [exec_hartCharEnd_tx hc hd hst hq]
    rcases h with h | rfl
    · rw [h]
      rfl
    · exact congrArg _ (ite_self _)
  have hmore := t.owesMore_hartCharNext n
  have howed := t.mem_hartCharNext n
  rw [ht] at howed
  exact ⟨_, hrun, by rw [hmore.isl, ht], howed, (islandOnly_charTaken s n l _).trans (hmore.islandOnly n)⟩

theorem hartCharEnd_waits (hc : s.clocked = true) (hd : s.isDue (.hartCharEnd n) = true) (hst : s.isl[n].hart.st = .tx) {b : Byte} {l : Bool}
    (hq : s.isl[n].hart.txq = [(b, l)]) (hf : s.isl[n].hart.framed = true) (hrate : s.hartRate = true) : Completes (.hartCharEnd n) s (fun u =>
      u.isl[n].hart.st = .wait ∧ u.isl[n].hart.txq = [] ∧
      (s.tick + BitVec.ofNat 64 (s.qtk + charsTk s.rate s.isl[n].rxto), .hartTimeout n) ∈ u.due ∧ IslandOnly s u n) := by
  let t := s.charTaken n l []
  have hrun : exec (.hartCharEnd n) s = .next (t.hartArm n) := by
    rw [exec_hartCharEnd_tx hc hd hst hq, hf]
    rfl
  have hrxto : t.isl[n].rxto = s.isl[n].rxto := by rw [show t.isl[n] = _ from s.charTaken_isl n l []]; rfl
  obtain ⟨hhart, howed, honly⟩ := State.hartArm_waits (s := t) (n := n) hrate
  rw [s.charTaken_hart n l []] at hhart
  rw [hrxto] at howed
  exact ⟨_, hrun, congrArg Hart.st hhart, congrArg Hart.txq hhart, howed, (islandOnly_charTaken s n l _).trans honly⟩

theorem hartCharEnd_norate (hc : s.clocked = true) (hd : s.isDue (.hartCharEnd n) = true) (hst : s.isl[n].hart.st = .tx) {b : Byte} {l : Bool}
    (hq : s.isl[n].hart.txq = [(b, l)]) (hf : s.isl[n].hart.framed = true) (hrate : s.hartRate = false) : Completes (.hartCharEnd n) s (fun u =>
      u.isl[n].hart.st = .idle ∧ u.isl[n].hart.res = 7 ∧ IslandOnly s u n) := by
  let t := s.charTaken n l []
  have hrun : exec (.hartCharEnd n) s = .next (t.hartIdle n .norate) := by
    rw [exec_hartCharEnd_tx hc hd hst hq, hf]
    exact congrArg _ (State.hartArm_norate (s := t) hrate)
  have hhart := t.hartIdle_hart n .norate
  exact ⟨_, hrun, congrArg Hart.st hhart, congrArg Hart.res hhart, (islandOnly_charTaken s n l _).trans (islandOnly_hartIdle t n _)⟩

theorem hartCharEnd_ends (hc : s.clocked = true) (hd : s.isDue (.hartCharEnd n) = true) (hst : s.isl[n].hart.st = .tx) {b : Byte} {l : Bool}
    {q : List (Byte × Bool)} (hq : s.isl[n].hart.txq = (b, l) :: q) (hf : s.isl[n].hart.framed = false) (h : l = true ∨ q = []) :
    Completes (.hartCharEnd n) s (fun u =>
      u.isl[n].hart.st = .idle ∧ u.isl[n].hart.res = (if l then 0 else 4) ∧ u.isl[n].hart.txq = [] ∧ IslandOnly s u n) := by
  let t := s.charTaken n l q
  let r : HRes := if l then .done else .txUnder
  have hrun : exec (.hartCharEnd n) s = .next (t.hartIdle n r) := by
    rw [exec_hartCharEnd_tx hc hd hst hq, hf]
    cases l with
    | true => rfl
    | false =>
      obtain rfl := h.resolve_left Bool.false_ne_true
      rfl
  have hhart := t.hartIdle_hart n r
  exact ⟨_, hrun, congrArg Hart.st hhart, (congrArg Hart.res hhart).trans (apply_ite HRes.code (l = true) .done .txUnder),
    congrArg Hart.txq hhart, (islandOnly_charTaken s n l _).trans (islandOnly_hartIdle t n _)⟩

/-! ### Reception -/

/-- The byte has been stored behind those of the reception in progress. -/
def StoresByte (s u : State) (n : IslandNo) (b : Byte) (ok : Bool) : Prop :=
  let i := s.isl[n]
  let h := i.hart
  u.isl[n].byte (i.rxBase + h.stored) = b ∧ (∀ a, a ≠ i.rxBase + h.stored → u.isl[n].byte a = i.byte a) ∧
  u.isl[n].hart.st = .rx ∧ u.isl[n].hart.storing = true ∧ u.isl[n].hart.stored = h.stored + 1 ∧
  u.isl[n].hart.cksum = h.cksum ^^^ b ∧ u.isl[n].hart.perr = (h.perr || !ok) ∧ IslandOnly s u n

/-- A byte of a reception is stored where it falls into island SRAM (R185). -/
theorem State.hartStore_stores (b : Byte) (ok : Bool) (hlen : s.isl[n].hart.stored < 511)
    (hroom : s.isl[n].rxBase + s.isl[n].hart.stored < 0x4000) (hwf : swf (fun _ => (0 : Byte)) s.isl[n].mem = true) :
    StoresByte s (s.hartStore n b ok) n b ok := by
  let a := s.isl[n].rxBase + s.isl[n].hart.stored
  have hisl : (s.hartStore n b ok).isl[n] = { s.isl[n] with
      mem := sput (fun _ => (0 : Byte)) s.isl[n].mem a b,
      hart := { s.isl[n].hart with st := .rx, storing := true, stored := s.isl[n].hart.stored + 1, cksum := s.isl[n].hart.cksum ^^^ b,
                                   perr := s.isl[n].hart.perr || !ok } } := by
    rw [State.hartStore, State.modIsl_same, if_pos (show _ < islSramBytes from hroom), min_eq_right (by omega : s.isl[n].hart.stored + 1 ≤ 511)]
  have hbyte (k : Nat) : (s.hartStore n b ok).isl[n].byte k = if k = a then b else s.isl[n].byte k := by
    rw [Island.byte, hisl]
    exact sget_sput _ hwf
  exact ⟨(hbyte a).trans (if_pos rfl), fun k hk => (hbyte k).trans (if_neg hk), by rw [hisl], by rw [hisl], by rw [hisl], by rw [hisl],
    by rw [hisl], by unfold State.hartStore; exact islandOnly_modIsl s n _⟩

/-- The receiver hunts on: while it waits for an answer RXTO characters start anew (R187). -/
def State.hartHunts (s : State) (n : IslandNo) : State :=
  if s.isl[n].hart.st = .wait then
    (s.cancel (.hartTimeout n)).owe (s.qtk + charsTk s.isl[n].hart.rate s.isl[n].rxto) (.hartTimeout n)
  else s

theorem State.hartHunts_isl (s : State) (n : IslandNo) : (s.hartHunts n).isl = s.isl :=
  ite_keeps (P := fun v => v.isl = s.isl) _ (State.owe_isl ..) rfl

theorem islandOnly_hartHunts (s : State) (n : IslandNo) : IslandOnly s (s.hartHunts n) n :=
  islandOnly_ite _ ((islandOnly_cancel s _ n).trans (islandOnly_owe _ _ _ n)) .rfl

/-- The modem waits for an answer or receives it. -/
def Hart.listens (h : Hart) : Prop := h.st = .wait ∨ h.st = .rx

/-- A character of a modem that listens: raw ones go up, hardware framing hunts and then stores (R185, R186). -/
theorem exec_hartCharRx_listening (hc : s.clocked = true) (b : Byte) (ok : Bool) (hl : s.isl[n].hart.listens) :
    exec (.hartCharRx n b ok) s = .next (
      if s.isl[n].hartRung = 1 then
        ((s.cancel (.hartTimeout n)).modHart n (fun h =>
          { h with st := .rx, storing := true, stored := min 511 (h.stored + 1), perr := h.perr || !ok })).sendUp n
            (.hart b (!s.isl[n].hart.storing) (!ok))
      else if s.isl[n].hartRung = 2 then
        if s.isl[n].hart.storing then s.hartStore n b ok
        else if b = 0xFF then
          (s.hartHunts n).modHart n (fun h => { h with preamb := if ok then min 2 (h.preamb + 1) else 0, perr := h.perr || !ok })
        else if s.isl[n].hart.preamb = 2 then ((s.hartHunts n).cancel (.hartTimeout n)).hartStore n b ok
        else (s.hartHunts n).modHart n (fun h => { h with preamb := 0, perr := h.perr || !ok })
      else s) := by
  rw [exec_hartCharRx, execHartCharRx, State.act_on _ hc]
  exact congrArg _ (if_neg fun h => hl.elim h.1 h.2)

theorem hartCharRx_stores (hc : s.clocked = true) (b : Byte) (ok : Bool) (hr : s.isl[n].hartRung = 2) (hlen : s.isl[n].hart.stored < 511)
    (hroom : s.isl[n].rxBase + s.isl[n].hart.stored < 0x4000) (hwf : swf (fun _ => (0 : Byte)) s.isl[n].mem = true)
    (hst : s.isl[n].hart.st = .rx) (hs : s.isl[n].hart.storing = true) : Completes (.hartCharRx n b ok) s (fun u => StoresByte s u n b ok) := by
  have hrun : exec (.hartCharRx n b ok) s = .next (s.hartStore n b ok) := by
    rw [exec_hartCharRx_listening hc b ok (.inr hst), hr, hs]
    rfl
  exact ⟨_, hrun, State.hartStore_stores b ok hlen hroom hwf⟩

/-- Two preamble characters and a delimiter begin a reception (R185). -/
theorem hartCharRx_begins (hc : s.clocked = true) (b : Byte) (ok : Bool) (hr : s.isl[n].hartRung = 2) (hlen : s.isl[n].hart.stored < 511)
    (hroom : s.isl[n].rxBase + s.isl[n].hart.stored < 0x4000) (hwf : swf (fun _ => (0 : Byte)) s.isl[n].mem = true)
    (hl : s.isl[n].hart.listens) (hs : s.isl[n].hart.storing = false) (hp : s.isl[n].hart.preamb = 2) (hb : b ≠ 0xFF) :
    Completes (.hartCharRx n b ok) s (fun u => StoresByte s u n b ok) := by
  let t := (s.hartHunts n).cancel (.hartTimeout n)
  have hrun : exec (.hartCharRx n b ok) s = .next (t.hartStore n b ok) := by
    rw [exec_hartCharRx_listening hc b ok hl, hr, hs, hp, if_neg hb]
    rfl
  have hisl : t.isl[n] = s.isl[n] := congrArg (fun v : Vector Island 16 => v[n]) (s.hartHunts_isl n)
  have honly : IslandOnly s t n := (islandOnly_hartHunts s n).trans (islandOnly_cancel _ _ n)
  have hstores := State.hartStore_stores (s := t) (n := n) b ok (by rw [hisl]; exact hlen) (by rw [hisl]; exact hroom) (by rw [hisl]; exact hwf)
  unfold StoresByte at hstores
  rw [hisl] at hstores
  obtain ⟨hat, helse, hst, hstoring, hstored, hcksum, hperr, honly'⟩ := hstores
  exact ⟨_, hrun, hat, helse, hst, hstoring, hstored, hcksum, hperr, honly.trans honly'⟩

theorem hartCharRx_hunts (hc : s.clocked = true) (b : Byte) (ok : Bool) (hl : s.isl[n].hart.listens) (hr : s.isl[n].hartRung = 2)
    (hs : s.isl[n].hart.storing = false) (h : b = 0xFF ∨ s.isl[n].hart.preamb ≠ 2) : Completes (.hartCharRx n b ok) s (fun u =>
      u.isl[n].hart = { s.isl[n].hart with
        preamb := if b = 0xFF ∧ ok = true then min 2 (s.isl[n].hart.preamb + 1) else 0, perr := s.isl[n].hart.perr || !ok } ∧
      u.isl[n].mem = s.isl[n].mem ∧ IslandOnly s u n) := by
  let f : Hart → Hart := fun h =>
    { h with preamb := if b = 0xFF ∧ ok = true then min 2 (h.preamb + 1) else 0, perr := h.perr || !ok }
  have hrun : exec (.hartCharRx n b ok) s = .next ((s.hartHunts n).modHart n f) := by
    rw [exec_hartCharRx_listening hc b ok hl, hr, hs]
    refine congrArg _ (show (if b = 0xFF then _ else _) = _ from ?_)
    by_cases hb : b = 0xFF
    · rw [if_pos hb]
      exact congrArg (State.modHart _ n) (funext fun h => by simp only [f, hb, true_and])
    · rw [if_neg hb, if_neg (h.resolve_left hb)]
      exact congrArg (State.modHart _ n) (funext fun h => by simp only [f, hb, false_and, if_false])
  have hisl : ((s.hartHunts n).modHart n f).isl[n] = { s.isl[n] with hart := f s.isl[n].hart } := by
    rw [State.modHart, State.modIsl_same, s.hartHunts_isl]
  exact ⟨_, hrun, by rw [hisl], by rw [hisl], (islandOnly_hartHunts s n).trans (islandOnly_modHart _ n _)⟩

theorem hartCharRx_raw (hc : s.clocked = true) (b : Byte) (ok : Bool) (hl : s.isl[n].hart.listens) (hr : s.isl[n].hartRung = 1) :
    Completes (.hartCharRx n b ok) s (fun u =>
      (∃ c ∈ u.isl[n].up, c.sent = false ∧ c.data = .hart b (!s.isl[n].hart.storing) (!ok)) ∧ u.isl[n].hart.st = .rx ∧
      u.isl[n].hart.storing = true ∧ IslandOnly s u n) := by
  let t := (s.cancel (.hartTimeout n)).modHart n (fun h =>
    { h with st := .rx, storing := true, stored := min 511 (h.stored + 1), perr := h.perr || !ok })
  let d : UpData := .hart b (!s.isl[n].hart.storing) (!ok)
  have hrun : exec (.hartCharRx n b ok) s = .next (t.sendUp n d) := by
    rw [exec_hartCharRx_listening hc b ok hl, hr]
    rfl
  obtain ⟨l, hisl, -⟩ := t.sendUp_isl n d
  have hhart : (t.sendUp n d).isl[n].hart = t.isl[n].hart := by rw [hisl]
  rw [State.modHart_hart] at hhart
  exact ⟨_, hrun, ⟨_, t.sendUp_up n d, rfl, rfl⟩, congrArg Hart.st hhart, congrArg Hart.storing hhart,
    ((islandOnly_cancel s _ n).trans (islandOnly_modHart _ n _)).trans (islandOnly_sendUp t n d)⟩

theorem hartRxEnd_ends (hc : s.clocked = true) (hst : s.isl[n].hart.st = .rx) (hlen : s.isl[n].hart.stored < 512) :
    Completes (.hartRxEnd n) s (fun u =>
      u.isl[n].hart.st = .idle ∧ u.isl[n].hart.cd = false ∧ u.isl[n].hart.rxlen.toNat = s.isl[n].hart.stored ∧
      u.isl[n].hart.res = (if s.isl[n].hart.perr then 1 else if s.isl[n].hartRung = 2 ∧ s.isl[n].hart.cksum ≠ 0 then 2 else 0) ∧
      IslandOnly s u n) := by
  let t := (s.settle (.hartRxEnd n)).modHart n (fun h => { h with cd := false })
  have ht : t.isl[n] = { s.isl[n] with hart := { s.isl[n].hart with cd := false } } := State.modIsl_same ..
  let v := t.modHart n (fun h => { h with rxlen := BitVec.ofNat 9 h.stored })
  let r : HRes := if s.isl[n].hart.perr then .perr else if s.isl[n].hartRung = 2 ∧ s.isl[n].hart.cksum ≠ 0 then .cksum else .done
  have hr : (if t.isl[n].hart.perr then HRes.perr else if t.isl[n].hartRung = 2 ∧ t.isl[n].hart.cksum ≠ 0 then .cksum else .done) = r := by
    rw [ht]
    rfl
  have hrun : exec (.hartRxEnd n) s = .next (v.hartIdle n r) := by
    rw [exec_hartRxEnd, execHartRxEnd, State.act_on _ hc, ← hr]
    exact congrArg _ (if_pos (by rw [ht]; exact hst))
  have hhart := v.hartIdle_hart n r
  rw [show v.isl[n].hart = { s.isl[n].hart with cd := false, rxlen := BitVec.ofNat 9 s.isl[n].hart.stored } from
    (t.modHart_hart n _).trans (by rw [ht])] at hhart
  refine ⟨_, hrun, congrArg Hart.st hhart, congrArg Hart.cd hhart, ?_, ?_,
    (((islandOnly_settle s _ n).trans (islandOnly_modHart _ n _)).trans (islandOnly_modHart t n _)).trans (islandOnly_hartIdle v n r)⟩
  · rw [hhart]
    exact (BitVec.toNat_ofNat ..).trans (Nat.mod_eq_of_lt hlen)
  · rw [hhart]
    show r.code = _
    rw [apply_ite HRes.code, apply_ite HRes.code]
    rfl

theorem hartTimeout_ends (hc : s.clocked = true) (hd : s.isDue (.hartTimeout n) = true) (hst : s.isl[n].hart.st = .wait) :
    Completes (.hartTimeout n) s (fun u => u.isl[n].hart.st = .idle ∧ u.isl[n].hart.res = 3 ∧ IslandOnly s u n) := by
  let t := s.settle (.hartTimeout n)
  have hrun : exec (.hartTimeout n) s = .next (t.hartIdle n .timeout) := by
    rw [exec_hartTimeout, execHartTimeout, State.timed_on hc hd]
    exact congrArg _ (if_pos hst)
  have hhart := t.hartIdle_hart n .timeout
  exact ⟨_, hrun, congrArg Hart.st hhart, congrArg Hart.res hhart, (islandOnly_settle s _ n).trans (islandOnly_hartIdle t n _)⟩

/-! ### Raw bytes and the receive queue -/

theorem islandOnly_send (s : State) (n : IslandNo) (m : Master) (d : DownData) (a : Word) (x : BitVec 19) :
    IslandOnly s (s.send n m d a x) n := by
  obtain ⟨l, r, hl, -⟩ := s.queuesMore_send n m d a x
  rw [hl]
  exact islandOnly_modIsl s n _

theorem islandOnly_arrived (s : State) (n : IslandNo) (d : UpData) : IslandOnly s (s.arrived n d) n := by
  obtain ⟨l, q, hl⟩ := s.arrived_modIsl n d
  rw [hl]
  exact islandOnly_modIsl s n _

theorem hrawWrite_queues (hc : s.clocked = true) (hr : s.running n = true) (m : Master) (b : Byte) (last : Bool)
    (hp : (s.pers n).hart = true) : Completes (.hrawWrite m n b last) s (fun u =>
      (∃ c ∈ u.isl[n].down, c.data = .hart b last ∧ c.req = m ∧ c.sent = false) ∧ IslandOnly s u n) := by
  have hrun : exec (.hrawWrite m n b last) s = .next (s.send n m (.hart b last) (BitVec.ofNat 32 (islBase n + 0xDC)) 0) := by
    rw [exec_hrawWrite, execHrawWrite, State.act_on _ hc, State.hrawPut, hr, hp]
    rfl
  exact ⟨_, hrun, queues_send s n m _ _ _, islandOnly_send s n m _ _ _⟩

/-- A byte lands in a state that has its modem as it was. -/
theorem exec_hartDown_lands (hc : s.clocked = true) (n : IslandNo) (b : Byte) (last : Bool) :
    ∃ t, exec (.hartDown n b last) s = .next (t.hartByte n b last) ∧ IslandOnly s t n ∧ t.isl[n].hart = s.isl[n].hart ∧
      t.isl[n].hartRung = s.isl[n].hartRung := by
  obtain ⟨l, q, hl⟩ := s.landed_modIsl n (.hart b last)
  have hisl : (s.landed n (.hart b last)).isl[n] = { s.isl[n] with down := l, dnRx := q } := by rw [hl, State.modIsl_same]
  exact ⟨s.landed n (.hart b last), by rw [exec_hartDown, execHartDown, State.act_on _ hc], islandOnly_arrives s n _, by rw [hisl],
    by rw [hisl]; rfl⟩

/-- A byte of a modem at rung 1 by the modem's state (R186, R187). -/
theorem State.hartByte_rung1 (hr : s.isl[n].hartRung = 1) (b : Byte) (last : Bool) : s.hartByte n b last =
    match s.isl[n].hart.st with
    | .idle => if s.hartRate then s.hartStart n [(b, last)] false else s.hartRes n .norate
    | .tx =>
      if s.isl[n].hart.framed then s.hartRes n .badcmd
      else if 2 ≤ s.isl[n].hart.txq.length then s.modHart n (fun h => { h with txovr := true })
      else s.modHart n (fun h => { h with txq := h.txq ++ [(b, last)] })
    | _ => s.hartRes n .badcmd :=
  if_neg (not_not.2 hr)

theorem hartDown_starts (hc : s.clocked = true) (b : Byte) (last : Bool) (hr : s.isl[n].hartRung = 1) (hst : s.isl[n].hart.st = .idle)
    (hrate : s.hartRate = true) : Completes (.hartDown n b last) s (fun u =>
      u.isl[n].hart.st = .tx ∧ u.isl[n].hart.framed = false ∧ u.isl[n].hart.txq = [(b, last)] ∧
      (s.tick + BitVec.ofNat 64 (s.qtk + 4) + BitVec.ofNat 64 (charsTk s.rate 1), .hartCharEnd n) ∈ u.due ∧ IslandOnly s u n) := by
  obtain ⟨t, hrun, honly, hhart, hrung⟩ := exec_hartDown_lands hc n b last
  have hbyte : t.hartByte n b last = t.hartStart n [(b, last)] false := by
    rw [State.hartByte_rung1 (hrung.trans hr), hhart, hst, State.hartRate, honly.rate]
    exact if_pos hrate
  obtain ⟨hstart, howed, honly'⟩ := t.hartStart_spec n [(b, last)] false
  rw [State.qtk, honly.tick, honly.rate] at howed
  exact ⟨_, hbyte ▸ hrun, by rw [hstart], by rw [hstart], by rw [hstart], howed, honly.trans honly'⟩

/-- A byte that changes the modem alone. -/
theorem hartDown_changes (hc : s.clocked = true) {b : Byte} {last : Bool} {f : Hart → Hart}
    (h : ∀ t : State, IslandOnly s t n → t.isl[n].hart = s.isl[n].hart → t.isl[n].hartRung = s.isl[n].hartRung →
      t.hartByte n b last = t.modHart n f) :
    Completes (.hartDown n b last) s (fun u => u.isl[n].hart = f s.isl[n].hart ∧ IslandOnly s u n) := by
  obtain ⟨t, hrun, honly, hhart, hrung⟩ := exec_hartDown_lands hc n b last
  rw [h t honly hhart hrung] at hrun
  exact ⟨_, hrun, by rw [State.modHart_hart, hhart], honly.trans (islandOnly_modHart t n f)⟩

theorem hartDown_norate (hc : s.clocked = true) (b : Byte) (last : Bool) (hr : s.isl[n].hartRung = 1) (hst : s.isl[n].hart.st = .idle)
    (hrate : s.hartRate = false) : Completes (.hartDown n b last) s (fun u =>
      u.isl[n].hart = { s.isl[n].hart with res := 7 } ∧ IslandOnly s u n) := by
  refine hartDown_changes (f := fun h => { h with res := 7 }) hc fun t honly hhart hrung => ?_
  have hrate' : t.hartRate = false := by rw [State.hartRate, honly.rate]; exact hrate
  rw [State.hartByte_rung1 (hrung.trans hr), hhart, hst, hrate']
  rfl

theorem hartDown_queues (hc : s.clocked = true) (b : Byte) (last : Bool) (hr : s.isl[n].hartRung = 1) (hst : s.isl[n].hart.st = .tx)
    (hf : s.isl[n].hart.framed = false) (hlen : s.isl[n].hart.txq.length < 2) : Completes (.hartDown n b last) s (fun u =>
      u.isl[n].hart = { s.isl[n].hart with txq := s.isl[n].hart.txq ++ [(b, last)] } ∧ IslandOnly s u n) := by
  refine hartDown_changes (f := fun h => { h with txq := h.txq ++ [(b, last)] }) hc fun t _ hhart hrung => ?_
  rw [State.hartByte_rung1 (hrung.trans hr), hhart, hst, hf]
  exact if_neg (Nat.not_le.2 hlen)

theorem hartDown_overruns (hc : s.clocked = true) (b : Byte) (last : Bool) (hr : s.isl[n].hartRung = 1) (hst : s.isl[n].hart.st = .tx)
    (hf : s.isl[n].hart.framed = false) (hlen : 2 ≤ s.isl[n].hart.txq.length) : Completes (.hartDown n b last) s (fun u =>
      u.isl[n].hart = { s.isl[n].hart with txovr := true } ∧ IslandOnly s u n) := by
  refine hartDown_changes (f := fun h => { h with txovr := true }) hc fun t _ hhart hrung => ?_
  rw [State.hartByte_rung1 (hrung.trans hr), hhart, hst, hf]
  exact if_pos hlen

theorem hartDown_badcmd (hc : s.clocked = true) (b : Byte) (last : Bool)
    (h : s.isl[n].hartRung ≠ 1 ∨ s.isl[n].hart.st = .wait ∨ s.isl[n].hart.st = .rx) : Completes (.hartDown n b last) s (fun u =>
      u.isl[n].hart = { s.isl[n].hart with res := 9 } ∧ IslandOnly s u n) := by
  refine hartDown_changes (f := fun h => { h with res := 9 }) hc fun t _ hhart hrung => ?_
  by_cases hr : s.isl[n].hartRung = 1
  · rw [State.hartByte_rung1 (hrung.trans hr), hhart]
    rcases h.resolve_left (not_not.2 hr) with hst | hst <;> (rw [hst]; rfl)
  · exact if_pos (by rw [hrung]; exact hr)

/-- A byte that comes up joins the queue of a RUNNING island, or sets RXOVR (R186). -/
theorem hartUp_takes (hc : s.clocked = true) (hr : s.running n = true) (b : Byte) (st pe : Bool) : Completes (.hartUp n b st pe) s (fun u =>
    u.isl[n].hart = (if s.isl[n].hart.rxq.length < 16 then { s.isl[n].hart with rxq := s.isl[n].hart.rxq ++ [(b, st, pe)] }
      else { s.isl[n].hart with rxovr := true }) ∧ IslandOnly s u n) := by
  let t := s.arrived n (.hart b st pe)
  obtain ⟨l, q, hl⟩ := s.arrived_modIsl n (.hart b st pe)
  have ht : t.isl[n] = { s.isl[n] with up := l, upRx := q } := by rw [show t = _ from hl, State.modIsl_same]
  have hr' : t.running n = true := by
    rw [State.running, ht]
    exact hr
  let f : Hart → Hart := fun h => if h.rxq.length < 16 then { h with rxq := h.rxq ++ [(b, st, pe)] } else { h with rxovr := true }
  have hrun : exec (.hartUp n b st pe) s = .next (t.modHart n f) := by
    rw [exec_hartUp, execHartUp, State.act_on _ hc]
    exact congrArg _ (if_pos hr')
  exact ⟨_, hrun, by rw [State.modHart_hart, ht], (islandOnly_arrived s n _).trans (islandOnly_modHart t n f)⟩

/-- A read of the link that is answered at once enters the read queue while that has room (R86). -/
theorem State.deliver_link (hl : s.link.readq.length < 64) (v : Word) : s.deliver .link v =
    { s with link := { s.link with readq := s.link.readq ++ [{ val := v, err := false, wait := none }] } } := if_pos hl

theorem exec_hrawrRead_running (hc : s.clocked = true) (hr : s.running n = true) (m : Master) :
    exec (.hrawrRead m n) s = .next ((s.hrawrTake n).1.deliver m (s.hrawrTake n).2) := by
  rw [exec_hrawrRead, execHrawrRead, State.act_on _ hc]
  exact congrArg _ (if_pos hr)

theorem State.hrawrTake_oldest (hp : (s.pers n).hart = true) {b : Byte} {st pe : Bool} {q : List (Byte × Bool × Bool)}
    (hq : s.isl[n].hart.rxq = (b, st, pe) :: q) :
    s.hrawrTake n = (s.modHart n (fun h => { h with rxq := q }), BitVec.ofNat 32 (bit st 9 + bit pe 8 + b.toNat)) := by
  rw [State.hrawrTake, hp, hq]
  rfl

theorem State.hrawrTake_empty (hp : (s.pers n).hart = true) (hq : s.isl[n].hart.rxq = []) : s.hrawrTake n = (s, 0x80000000) := by
  rw [State.hrawrTake, hp, hq]
  rfl

/-- HRAWR holds the byte with its flags above it (R189). -/
theorem toNat_hrawr (b : Byte) (st pe : Bool) : (BitVec.ofNat 32 (bit st 9 + bit pe 8 + b.toNat)).toNat =
    b.toNat + (if pe then 256 else 0) + (if st then 512 else 0) := by
  have hb := b.isLt
  rw [BitVec.toNat_ofNat, bit, bit]
  cases st <;> cases pe <;> simp only [Bool.false_eq_true, if_false, if_true] <;> omega

theorem hrawrRead_takes (hc : s.clocked = true) (hr : s.running n = true) {b : Byte} {st pe : Bool} {q : List (Byte × Bool × Bool)}
    (hp : (s.pers n).hart = true) (hq : s.isl[n].hart.rxq = (b, st, pe) :: q) (hl : s.link.readq.length < 64) :
    Completes (.hrawrRead .link n) s (fun u => u.isl[n].hart = { s.isl[n].hart with rxq := q } ∧
      ∃ w : Word, u.link.readq = s.link.readq ++ [{ val := w, err := false, wait := none }] ∧
        w.toNat = b.toNat + (if pe then 256 else 0) + (if st then 512 else 0)) := by
  let t := s.modHart n (fun h => { h with rxq := q })
  have ht : t.isl[n].hart = { s.isl[n].hart with rxq := q } := s.modHart_hart n _
  have hrun := exec_hrawrRead_running hc hr .link
  rw [State.hrawrTake_oldest hp hq, State.deliver_link (s := t) hl] at hrun
  exact ⟨_, hrun, ht, _, rfl, toNat_hrawr b st pe⟩

theorem hrawrRead_empty (hc : s.clocked = true) (hr : s.running n = true) (hp : (s.pers n).hart = true) (hq : s.isl[n].hart.rxq = [])
    (hl : s.link.readq.length < 64) : Completes (.hrawrRead .link n) s (fun u => u.isl = s.isl ∧
      u.link.readq = s.link.readq ++ [{ val := 0x80000000, err := false, wait := none }]) := by
  have hrun := exec_hrawrRead_running hc hr .link
  rw [State.hrawrTake_empty hp hq, State.deliver_link hl] at hrun
  exact ⟨_, hrun, rfl, rfl⟩

end Modem

/-- Settles O27: the commands by the state and rung that they find, characters and reception row by row, raw bytes by the queue that takes
them. -/
theorem hartModemWorks : Obligations.HartModemWorks := by
  refine ⟨fun s n len hc => ?_, fun s n hc => ?_, fun s n hc hr => ?_⟩
  · exact ⟨hcmdSend_starts hc, fun hr hst hrate => hcmdSend_refused (hcmdSend_norate hc len hr hst hrate),
      fun hr hst hrate hcd => hcmdSend_refused (hcmdSend_carrier hc len hr hst hrate hcd),
      fun hp h => hartRes_answers (hcmdSend_badcmd hc len hp h), hcmdListen_arms hc, hcmdListen_receives hc,
      fun hp h => hartRes_answers (hcmdListen_badcmd hc hp h), fun hr hst hrate => hartRes_answers (hcmdListen_norate hc hr hst hrate),
      hcmdAbort_ends hc, fun hp h => hartRes_answers (hcmdAbort_badcmd hc hp h), fun hp => hcmd_ignored hp len⟩
  · exact ⟨carrierDetect_receives hc, carrierDetect_notes hc, carrierDetect_off,
      fun hd hst => ⟨fun b l c q hq h => hartCharEnd_next hc hd hst hq h, fun b l hq hf hrate => hartCharEnd_waits hc hd hst hq hf hrate,
        fun b l hq hf hrate => hartCharEnd_norate hc hd hst hq hf hrate, fun b l q hq hf h => hartCharEnd_ends hc hd hst hq hf h⟩,
      fun b ok hr hlen hroom hwf => ⟨hartCharRx_stores hc b ok hr hlen hroom hwf, hartCharRx_begins hc b ok hr hlen hroom hwf⟩,
      fun b ok => hartCharRx_hunts hc b ok, fun b ok => hartCharRx_raw hc b ok, hartRxEnd_ends hc, hartTimeout_ends hc⟩
  · refine ⟨fun m b last hp => hrawWrite_queues hc hr m b last hp, fun b last h1 => ⟨hartDown_starts hc b last h1, hartDown_norate hc b last h1,
      hartDown_queues hc b last h1, hartDown_overruns hc b last h1⟩, fun b last => hartDown_badcmd hc b last, fun b st pe => ?_,
      fun b st pe q hp hq hl => hrawrRead_takes hc hr hp hq hl, hrawrRead_empty hc hr⟩
    obtain ⟨u, hu, hhart, honly⟩ := hartUp_takes hc hr b st pe
    exact ⟨fun hlen => ⟨u, hu, hhart.trans (if_pos hlen), honly⟩, fun hlen => ⟨u, hu, hhart.trans (if_neg (Nat.not_lt.2 hlen)), honly⟩⟩


/-! ## Conversions and results (O28) -/

section Converter

variable {s u v : State} {n : IslandNo}

/-! ### What the converter's operations leave -/

theorem IslandOnly.itk (h : IslandOnly s u n) : u.itk = s.itk := by
  unfold State.itk
  rw [h.tick, h.pow]

/-- Beside island n nothing has changed, no row has left the calendar, and p of the island stands. -/
structure Leaves {α : Type} (p : Island → α) (s u : State) (n : IslandNo) : Prop where
  only : IslandOnly s u n
  kept : p u.isl[n] = p s.isl[n]
  due : s.due ⊆ u.due

section Leaves

variable {α β : Type} {p : Island → α} {q : Island → β}

theorem Leaves.rfl : Leaves p s s n := ⟨.rfl, by rfl, List.Subset.refl _⟩

theorem Leaves.trans (h : Leaves p s u n) (h' : Leaves p u v n) : Leaves p s v n :=
  ⟨h.only.trans h'.only, h'.kept.trans h.kept, List.Subset.trans h.due h'.due⟩

/-- What depends on less of the island stands too. -/
theorem Leaves.mono (h : Leaves p s u n) (hq : ∀ {i j : Island}, p i = p j → q i = q j) : Leaves q s u n := ⟨h.only, hq h.kept, h.due⟩

theorem State.OwesMore.leaves (h : s.OwesMore u) : Leaves p s u n := ⟨h.islandOnly n, by rw [h.isl], h.due⟩

theorem leaves_modIsl {f : Island → Island} (h : p (f s.isl[n]) = p s.isl[n]) : Leaves p s (s.modIsl n f) n :=
  ⟨islandOnly_modIsl s n f, by rw [State.modIsl_same, h], List.Subset.refl _⟩

theorem leaves_sendLane (s : State) (k : Nat) (x : Transit) : Leaves p s (s.sendLane k x) n :=
  ⟨islandOnly_sendLane s k x n, by rfl, List.Subset.refl _⟩

theorem leaves_ite (c : Prop) [Decidable c] (hu : Leaves p s u n) (hv : Leaves p s v n) : Leaves p s (if c then u else v) n :=
  ite_keeps (P := fun w => Leaves p s w n) c hu hv

end Leaves

/-- The results of an island's converter: the one that is ready, the slots, and the rounds that have ended. -/
def Island.results (i : Island) : Option AdcReady × Vector Word 20 × BitVec 4 := (i.adc.ready, i.adc.slots, i.adc.round)

/-- The analog stage and its record of diagnostics. -/
def Island.analogStage (i : Island) : Analog × BitVec 8 := (i.ana, i.adiag)

/-- The island but for where its converter stands in the sequence. -/
def Island.unsequenced (i : Island) : Island :=
  { i with adc := { Adc.reset with ready := i.adc.ready, slots := i.adc.slots, round := i.adc.round } }

theorem Leaves.analogStage (h : Leaves Island.unsequenced s u n) : Leaves Island.analogStage s u n :=
  h.mono fun {i j} (hij : i.unsequenced = j.unsequenced) => (congrArg Island.analogStage hij : _)

theorem State.modAdc_adc (s : State) (n : IslandNo) (f : Adc → Adc) : (s.modAdc n f).isl[n].adc = f s.isl[n].adc :=
  congrArg Island.adc (State.modIsl_same ..)

theorem islandOnly_modAdc (s : State) (n : IslandNo) (f : Adc → Adc) : IslandOnly s (s.modAdc n f) n := islandOnly_modIsl s n _

theorem State.owesMore_adcKickAt (s : State) (n : IslandNo) (t : Tick) : s.OwesMore (s.adcKickAt n t) :=
  State.owesMore_ite _ (s.owesMore_oweAt _ _) .rfl
theorem State.owesMore_adcKick (s : State) (n : IslandNo) : s.OwesMore (s.adcKick n) := s.owesMore_adcKickAt n _
theorem State.owesMore_roundDue (s : State) (n : IslandNo) : s.OwesMore (s.roundDue n) := s.owesMore_oweAt _ _

/-- A change of the sequence's place alone, and the acquisition that it owes. -/
theorem leaves_modAdc_adcKick (s : State) (n : IslandNo) {f : Adc → Adc}
    (h : ({ s.isl[n] with adc := f s.isl[n].adc } : Island).unsequenced = s.isl[n].unsequenced) :
    Leaves Island.unsequenced s ((s.modAdc n f).adcKick n) n :=
  (leaves_modIsl h).trans (State.owesMore_adcKick _ n).leaves

theorem leaves_roundGo (s : State) (n : IslandNo) : Leaves Island.unsequenced s (s.roundGo n) n := by
  unfold State.roundGo State.modAdc
  refine leaves_modIsl ?_
  dsimp only
  split <;> rfl

/-- Going on to the next entry moves the sequence on and owes rows, no more. -/
theorem leaves_adcNext (s : State) (n : IslandNo) : Leaves Island.unsequenced s (s.adcNext n) n := by
  unfold State.adcNext
  extract_lets i a
  split
  · exact leaves_modAdc_adcKick s n (by rfl)
  · split
    · exact (leaves_roundGo s n).trans (leaves_modAdc_adcKick _ n (by rfl))
    · split
      · exact leaves_modAdc_adcKick s n (by rfl)
      · have hidle : Leaves Island.unsequenced s (s.modAdc n (fun a => { a with st := .idle })) n := leaves_modIsl (by rfl)
        exact leaves_ite _ hidle (leaves_ite _ (hidle.trans (State.owesMore_roundDue _ n).leaves)
          (leaves_ite _ ((hidle.trans (leaves_modIsl (by rfl))).trans (State.owesMore_oweAt _ _ _).leaves) hidle))

/-! ### Entries -/

/-- The sum with the trimmed code of a conversion (R193). -/
def Island.entrySum (i : Island) (code : BitVec 18) : Int := i.adc.sum + (code18 (code.toInt - i.adc.zero)).toInt

/-- The slot of the entry in progress (R203). -/
def Island.entrySlot (i : Island) : Fin 20 :=
  Fin.ofNat 20 (if decide (i.adc.st = .injected) then 16 + i.adc.cur.toNat % 4 else i.adc.cur.toNat)

/-- The result of the entry in progress, which ends a round or a group with its last entry (R198, R204). -/
def Island.entryResult (i : Island) (code : BitVec 18) (ovr : Bool) : AdcReady :=
  let inj := decide (i.adc.st = .injected)
  let isLast := decide ((if inj then i.injSeq.length else i.regSeq.length) ≤ i.adc.cur.toNat + 1)
  { slot := i.entrySlot, code := code18 (rdiv (i.entrySum code) (entryConvs i.curEntry)), ovr := i.adc.ovr || ovr, redo := i.adc.redone,
    last := if inj then (if isLast then 2 else 0) else if i.adc.inRound ∧ isLast then 1 else 0 }

/-- The state in which the result of the entry in progress is ready and its write is owed (R190). -/
def State.entryReady (s : State) (n : IslandNo) (code : BitVec 18) (ovr : Bool) : State :=
  (s.modAdc n (fun a =>
    { a with ready := some (s.isl[n].entryResult code ovr), done := 0, sum := 0, ovr := false, redone := false })).owe
      (s.isl[n].trimTk s.isl[n].entrySlot + s.itk) (.resultWrite n)

/-- A conversion before the last one of its entry joins the mean (R198). -/
theorem State.entryConv_joins {code : BitVec 18} {ovr : Bool} (h : s.isl[n].adc.done + 1 < entryConvs s.isl[n].curEntry) :
    s.entryConv n code ovr = (s.modAdc n (fun a =>
      { a with done := a.done + 1, sum := s.isl[n].entrySum code, ovr := a.ovr || ovr })).adcKick n := if_pos h

/-- The last conversion of an entry makes its result ready, and the sequence moves on (R198, R200, R201). -/
theorem State.entryConv_ready {code : BitVec 18} {ovr : Bool} (h : entryConvs s.isl[n].curEntry ≤ s.isl[n].adc.done + 1) :
    Leaves Island.unsequenced (s.entryReady n code ovr) (s.entryConv n code ovr) n := by
  unfold State.entryConv
  extract_lets i a inj k sum len isLast last slot t
  rw [if_neg (Nat.not_lt.2 h)]
  have ht : s.entryReady n code ovr = t := rfl
  rw [ht]
  clear_value t
  split
  · split
    · exact leaves_modAdc_adcKick t n (by rfl)
    · split
      · exact leaves_modAdc_adcKick t n (by rfl)
      · split
        · rename_i c d m o r _
          extract_lets t1 t2
          have h1 : Leaves Island.unsequenced t t1 n := leaves_modIsl (by rfl)
          have h2 : Leaves Island.unsequenced t t2 n := leaves_ite _ h1 (h1.trans (leaves_roundGo t1 n))
          exact leaves_ite _ (h2.trans (leaves_adcNext t2 n)) (h2.trans (State.owesMore_adcKick t2 n).leaves)
        · rename_i t1 _ _ _ _ _
          have h1 : Leaves Island.unsequenced t t1 n := leaves_modIsl (by rfl)
          exact leaves_ite _ (h1.trans (State.owesMore_adcKick t1 n).leaves) (leaves_ite _ h1 (h1.trans (leaves_adcNext t1 n)))
  · exact leaves_ite _ ((leaves_modIsl (by rfl)).trans (leaves_adcNext _ n)) ((leaves_modIsl (by rfl)).trans (leaves_adcNext _ n))

theorem leaves_entryConv (s : State) (n : IslandNo) (code : BitVec 18) (ovr : Bool) :
    Leaves Island.analogStage s (s.entryConv n code ovr) n := by
  by_cases h : s.isl[n].adc.done + 1 < entryConvs s.isl[n].curEntry
  · rw [State.entryConv_joins h]
    exact (leaves_modAdc_adcKick s n (by rfl)).analogStage
  · exact ((leaves_modIsl (by rfl)).trans (State.owesMore_owe _ _ _).leaves).trans (State.entryConv_ready (Nat.not_lt.1 h)).analogStage

theorem leaves_sendUp (s : State) (n : IslandNo) (d : UpData) : Leaves Island.analogStage s (s.sendUp n d) n := by
  unfold State.sendUp State.sendUpAs
  exact leaves_modIsl (by rfl)

/-- A calibration changes neither the analog stage nor its diagnostics; a failed check of the reference is reported (R194). -/
theorem leaves_calConv (s : State) (n : IslandNo) (code : BitVec 18) : Leaves Island.analogStage s (s.calConv n code) n := by
  unfold State.calConv
  extract_lets a bad t t' b
  refine leaves_ite _ (leaves_modAdc_adcKick s n (by rfl)).analogStage (leaves_ite _ (leaves_modAdc_adcKick s n (by rfl)).analogStage ?_)
  have ht : Leaves Island.analogStage s t n := leaves_modIsl (by rfl)
  have ht' : Leaves Island.analogStage s t' n := leaves_ite _ (ht.trans (leaves_sendUp t n _)) ht
  exact leaves_ite _ (ht'.trans (State.owesMore_adcKick t' n).leaves) (ht'.trans (leaves_adcNext t' n).analogStage)

/-! ### Conversions -/

theorem conversionStart_begins (hc : s.clocked = true) (hd : s.isDue (.conversionStart n) = true) (hm : s.isl[n].adcMode ≠ 0)
    (hh : s.isl[n].hold = false) (hv : s.isl[n].adc.conv = false) (hw : s.isl[n].adc.work = true) : Completes (.conversionStart n) s (fun u =>
      u.isl[n].adc = { s.isl[n].adc with
        conv := true, convAt := s.tick, started := true,
        shown := if s.isl[n].adc.cal = true ∧ s.isl[n].adc.st ≠ .injected then s.isl[n].adc.shown else s.isl[n].adc.cur } ∧
      IslandOnly s u n) := by
  let f : Adc → Adc := fun a =>
    { a with conv := true, convAt := s.tick, started := true, shown := if a.cal && decide (a.st ≠ .injected) then a.shown else a.cur }
  have hrun : exec (.conversionStart n) s = .next ((s.settle (.conversionStart n)).modAdc n f) := by
    rw [exec_conversionStart, execConversionStart, State.act_on _ hc, hd]
    refine congrArg _ (if_neg (show ¬ (s.isl[n].adcMode = 0 ∨ s.isl[n].hold = true ∨ s.isl[n].adc.conv = true ∨
      (!s.isl[n].adc.work) = true) from ?_))
    rw [hh, hv, hw]
    simpa using hm
  refine ⟨_, hrun, ((s.settle _).modAdc_adc n f).trans ?_, (islandOnly_settle s _ n).trans (islandOnly_modAdc _ n f)⟩
  simp only [f, Bool.and_eq_true, decide_eq_true_eq]
  rfl

/-- The conversion of island n is in its last itk (R190). -/
def State.convEnds (s : State) (n : IslandNo) : Prop :=
  s.isl[n].adc.conv = true ∧ ¬ s.tick + 2 < s.isl[n].adc.convAt + BitVec.ofNat 64 s.isl[n].convTk

/-- A conversion takes ACQ + 20 itk, and a chopped pair twice that (R190, R193). -/
theorem Island.convTk_eq (i : Island) : i.convTk = (if i.pers.anaIn = true ∧ i.rungs.rung = 3 then 2 else 1) * 2 *
    ((if i.adc.cal = true ∧ i.adc.st ≠ .injected then 4 else max 4 (fld i.curEntry 8 8)) + 20) := by
  simp only [Island.convTk, Island.precision, Bool.and_eq_true, decide_eq_true_eq]
  congr 1
  split <;> rfl

/-- The state after the converter has given its code and its verdicts on the terminal and the limiter (R162, R170). -/
def State.convEnded (s : State) (n : IslandNo) (limiter tb : Bool) : State :=
  ((s.modAdc n (fun a => { a with conv := false })).tbCheck n tb).modIsl n (fun i =>
    { i with ana := { i.ana with limiter := limiter && decide (i.pers = .aiI) } })

theorem exec_conversionEnd_ends (hc : s.clocked = true) (h : s.convEnds n) (code : BitVec 18) (ovr : OverRange) (tb : Bool) :
    exec (.conversionEnd n code ovr tb) s = .next (
      if s.isl[n].adc.cal ∧ s.isl[n].adc.st ≠ .injected then (s.convEnded n ovr.limiter tb).calConv n code
      else if s.isl[n].adc.st = .injected ∨ s.isl[n].adc.st = .regular then (s.convEnded n ovr.limiter tb).entryConv n code ovr.scale
      else s.convEnded n ovr.limiter tb) := by
  obtain ⟨hconv, htime⟩ := h
  rw [exec_conversionEnd, execConversionEnd, State.act_on _ hc]
  exact congrArg _ (if_neg (by rw [hconv, decide_eq_false htime]; exact Bool.false_ne_true))

/-- No conversion ends before its time, and none that was discarded (R190). -/
theorem conversionEnd_early (h : ¬ s.convEnds n) (code : BitVec 18) (ovr : OverRange) (tb : Bool) :
    exec (.conversionEnd n code ovr tb) s = .next s := by
  rw [exec_conversionEnd, execConversionEnd]
  refine State.act_stands (if_pos ?_)
  rw [Bool.or_eq_true, Bool.not_eq_true', decide_eq_true_eq]
  by_cases hconv : s.isl[n].adc.conv = true
  · exact .inr (not_not.1 fun ht => h ⟨hconv, ht⟩)
  · exact .inl (Bool.eq_false_iff.2 hconv)

/-- The verdict on the terminals stays with its island; TB that goes open is recorded (R170). -/
theorem State.tbCheck_modIsl (s : State) (n : IslandNo) (tb : Bool) : ∃ an ad l,
    s.tbCheck n tb = s.modIsl n (fun i => { i with ana := an, adiag := ad, up := l }) ∧
    (s.isl[n].pers = .aoV → tb = true → s.isl[n].ana.tbOpen = false → an.tbOpen = true ∧ ad = s.isl[n].adiag ||| 2) := by
  unfold State.tbCheck
  dsimp only
  split
  · rename_i hp
    exact ⟨s.isl[n].ana, s.isl[n].adiag, s.isl[n].up, (State.modIsl_self rfl).symm, fun h => absurd h hp⟩
  · split
    · unfold State.sendUp State.sendUpAs
      exact ⟨{ s.isl[n].ana with tbOpen := tb }, s.isl[n].adiag ||| 2, _,
        (State.modIsl_modIsl ..).trans ((State.modIsl_modIsl ..).trans (State.modIsl_congr rfl)), fun _ htb _ => ⟨htb, rfl⟩⟩
    · rename_i hno
      exact ⟨_, s.isl[n].adiag, s.isl[n].up, State.modIsl_congr rfl, fun _ htb ho => absurd (by rw [htb, ho]; rfl) hno⟩

/-- Beside the analog stage, its diagnostics and the upstream cells a conversion that ends leaves its island as it is. -/
theorem State.convEnded_modIsl (s : State) (n : IslandNo) (limiter tb : Bool) : ∃ an ad l,
    s.convEnded n limiter tb = s.modIsl n (fun i => { i with adc := { i.adc with conv := false }, ana := an, adiag := ad, up := l }) ∧
    (s.isl[n].pers = .aoV → tb = true → s.isl[n].ana.tbOpen = false → an.tbOpen = true ∧ ad = s.isl[n].adiag ||| 2) := by
  obtain ⟨an, ad, l, hcheck, hopen⟩ := (s.modAdc n (fun a => { a with conv := false })).tbCheck_modIsl n tb
  have hisl : (s.modAdc n (fun a => { a with conv := false })).isl[n] = { s.isl[n] with adc := { s.isl[n].adc with conv := false } } :=
    State.modIsl_same ..
  rw [hisl] at hopen
  refine ⟨{ an with limiter := limiter && decide (s.isl[n].pers = .aiI) }, ad, l, ?_, hopen⟩
  rw [State.convEnded, hcheck, State.modAdc, State.modIsl_modIsl, State.modIsl_modIsl]
  exact State.modIsl_congr rfl

/-- A conversion of a regular entry gives its code to the entry (R198). -/
theorem exec_conversionEnd_regular (hc : s.clocked = true) (h : s.convEnds n) (code : BitVec 18) (ovr : OverRange) (tb : Bool)
    (hcal : s.isl[n].adc.cal = false) (hst : s.isl[n].adc.st = .regular) :
    ∃ t an ad l, exec (.conversionEnd n code ovr tb) s = .next (t.entryConv n code ovr.scale) ∧
      t.isl[n] = { s.isl[n] with adc := { s.isl[n].adc with conv := false }, ana := an, adiag := ad, up := l } ∧ IslandOnly s t n := by
  obtain ⟨an, ad, l, ht, -⟩ := s.convEnded_modIsl n ovr.limiter tb
  refine ⟨s.convEnded n ovr.limiter tb, an, ad, l, ?_, ?_, ?_⟩
  · rw [exec_conversionEnd_ends hc h, hcal, hst]
    rfl
  · rw [ht, State.modIsl_same]
  · rw [ht]
    exact islandOnly_modIsl s n _

/-- A conversion that is not the last one of a regular entry joins the mean (R193, R198). -/
theorem conversionEnd_joins (hc : s.clocked = true) (h : s.convEnds n) (code : BitVec 18) (ovr : OverRange) (tb : Bool)
    (hcal : s.isl[n].adc.cal = false) (hst : s.isl[n].adc.st = .regular) (hdone : s.isl[n].adc.done + 1 < entryConvs s.isl[n].curEntry) :
    Completes (.conversionEnd n code ovr tb) s (fun u =>
      u.isl[n].adc.done = s.isl[n].adc.done + 1 ∧ u.isl[n].adc.sum = s.isl[n].entrySum code ∧ u.isl[n].adc.slots = s.isl[n].adc.slots ∧
      IslandOnly s u n) := by
  obtain ⟨t, an, ad, l, hrun, hisl, honly⟩ := exec_conversionEnd_regular hc h code ovr tb hcal hst
  let joined := t.modAdc n (fun a => { a with done := a.done + 1, sum := t.isl[n].entrySum code, ovr := a.ovr || ovr.scale })
  have hconv : t.entryConv n code ovr.scale = joined.adcKick n := State.entryConv_joins (by rw [hisl]; exact hdone)
  have hadc : (joined.adcKick n).isl[n].adc = { s.isl[n].adc with
      conv := false, done := s.isl[n].adc.done + 1, sum := s.isl[n].entrySum code, ovr := s.isl[n].adc.ovr || ovr.scale } := by
    rw [(joined.owesMore_adcKick n).isl, State.modAdc_adc, hisl]
    rfl
  exact ⟨_, hrun.trans (congrArg _ hconv), by rw [hadc], by rw [hadc], by rw [hadc],
    (honly.trans (islandOnly_modAdc t n _)).trans ((joined.owesMore_adcKick n).islandOnly n)⟩

/-- The last conversion of a regular entry makes the mean ready, to be written after 2 itk and the engine's time (R178, R190, R198). -/
theorem conversionEnd_ready (hc : s.clocked = true) (h : s.convEnds n) (code : BitVec 18) (ovr : OverRange) (tb : Bool)
    (hcal : s.isl[n].adc.cal = false) (hst : s.isl[n].adc.st = .regular) (hdone : entryConvs s.isl[n].curEntry ≤ s.isl[n].adc.done + 1) :
    Completes (.conversionEnd n code ovr tb) s (fun u =>
      u.isl[n].adc.ready = some (s.isl[n].entryResult code ovr.scale) ∧
      (s.tick + BitVec.ofNat 64 (s.isl[n].trimTk s.isl[n].entrySlot + s.itk), .resultWrite n) ∈ u.due ∧ IslandOnly s u n) := by
  obtain ⟨t, an, ad, l, hrun, hisl, honly⟩ := exec_conversionEnd_regular hc h code ovr tb hcal hst
  obtain ⟨honly', hkept, hdue⟩ := State.entryConv_ready (s := t) (n := n) (code := code) (ovr := ovr.scale) (by rw [hisl]; exact hdone)
  have hready : (t.entryReady n code ovr.scale).isl[n].adc.ready = some (s.isl[n].entryResult code ovr.scale) := by
    rw [State.entryReady, State.owe_isl, State.modAdc_adc, hisl]
    rfl
  have howed : (s.tick + BitVec.ofNat 64 (s.isl[n].trimTk s.isl[n].entrySlot + s.itk), .resultWrite n) ∈
      (t.entryReady n code ovr.scale).due := by
    rw [State.entryReady, hisl, ← honly.tick, ← honly.itk]
    exact State.mem_owe_self ..
  exact ⟨_, hrun, (congrArg (fun i : Island => i.adc.ready) hkept).trans hready, hdue howed,
    honly.trans (((islandOnly_modAdc t n _).trans (islandOnly_owe _ _ _ n)).trans honly')⟩

/-- TB that a conversion of AO_V finds open is recorded, whatever becomes of the code (R170). -/
theorem conversionEnd_tbOpen (hc : s.clocked = true) (h : s.convEnds n) (code : BitVec 18) (ovr : OverRange) (hp : s.isl[n].pers = .aoV)
    (ho : s.isl[n].ana.tbOpen = false) : Completes (.conversionEnd n code ovr true) s (fun u =>
      u.isl[n].adiag = s.isl[n].adiag ||| 2 ∧ u.isl[n].ana.tbOpen = true ∧ IslandOnly s u n) := by
  obtain ⟨an, ad, l, ht, hopen⟩ := s.convEnded_modIsl n ovr.limiter true
  obtain ⟨hopen, hlead⟩ := hopen hp rfl ho
  refine ⟨_, exec_conversionEnd_ends hc h code ovr true, ?_⟩
  generalize s.convEnded n ovr.limiter true = t at ht ⊢
  subst ht
  obtain ⟨honly, hkept, -⟩ := leaves_ite (s.isl[n].adc.cal = true ∧ s.isl[n].adc.st ≠ .injected) (leaves_calConv _ n code)
    (leaves_ite (s.isl[n].adc.st = .injected ∨ s.isl[n].adc.st = .regular) (leaves_entryConv _ n code ovr.scale) .rfl)
  have hana := congrArg Prod.fst hkept
  have hadiag := congrArg Prod.snd hkept
  rw [State.modIsl_same] at hana hadiag
  exact ⟨hadiag.trans hlead, (congrArg Analog.tbOpen hana).trans hopen, (islandOnly_modIsl s n _).trans honly⟩

/-! ### Results -/

/-- A result's word says NEW, whether the slot was unread, and the code (R203, R207). -/
theorem slotWord_fields (old : Word) (r : AdcReady) (ref : Bool) (round : BitVec 4) :
    (slotWord old r ref round).getLsbD 31 = true ∧ (slotWord old r ref round).getLsbD 30 = old.getLsbD 31 ∧
    (slotWord old r ref round).extractLsb' 0 18 = r.code := by
  have hcode := r.code.isLt
  have hround := round.isLt
  have hb (b : Bool) : b2n b ≤ 1 := by cases b <;> decide
  have hnew := hb (old.getLsbD 31)
  have hovr := hb r.ovr
  have hredo := hb r.redo
  have href := hb ref
  have hbit : old.getLsbD 31 = decide (b2n (old.getLsbD 31) = 1) := by cases old.getLsbD 31 <;> rfl
  simp only [slotWord, Nat.shiftLeft_eq]
  refine ⟨?_, ?_, BitVec.eq_of_toNat_eq ?_⟩
  · rw [BitVec.getLsbD_ofNat, Nat.testBit_eq_decide_div_mod_eq]
    simp only [Bool.and_eq_true, decide_eq_true_eq]
    omega
  · rw [BitVec.getLsbD_ofNat, Nat.testBit_eq_decide_div_mod_eq]
    conv_rhs => rw [hbit]
    simp only [show (30 < 32) = True from eq_true (by decide), decide_true, Bool.true_and, decide_eq_decide]
    omega
  · rw [BitVec.extractLsb'_toNat, BitVec.toNat_ofNat, Nat.shiftRight_zero]
    omega

/-- The state in which the slot holds the result that was ready (R203). -/
def State.slotWritten (s : State) (n : IslandNo) (r : AdcReady) : State :=
  (s.settle (.resultWrite n)).modAdc n (fun a =>
    { a with ready := none, slots := a.slots.set r.slot (slotWord a.slots[r.slot] r a.refBad a.round) })

theorem State.slotWritten_adc (s : State) (n : IslandNo) (r : AdcReady) : (s.slotWritten n r).isl[n].adc =
    { s.isl[n].adc with
      ready := none,
      slots := s.isl[n].adc.slots.set r.slot (slotWord s.isl[n].adc.slots[r.slot] r s.isl[n].adc.refBad s.isl[n].adc.round) } :=
  (s.settle _).modAdc_adc n _

theorem leaves_sendUpAs (s : State) (n : IslandNo) (d : UpData) (m : Master) (a : Word) (k : Nat) (x : BitVec 19) :
    Leaves Island.results s (s.sendUpAs n d m a k x) n := leaves_modIsl (by rfl)

theorem leaves_anaDiag (s : State) (n : IslandNo) (bit : Nat) (src kind : Byte) :
    Leaves Island.results s (s.anaDiag n bit src kind) n := (leaves_modIsl (by rfl)).trans (leaves_sendUpAs _ n _ _ _ _ _)

theorem leaves_neClassify (s : State) (n : IslandNo) (x : Int) : Leaves Island.results s (s.neClassify n x) n := by
  unfold State.neClassify
  extract_lets i z a k t
  have ht : Leaves Island.results s t n := leaves_modIsl (by rfl)
  exact leaves_ite _ (leaves_ite _ (leaves_modIsl (by rfl)) (leaves_ite _ (leaves_ite _ (ht.trans (leaves_anaDiag t n _ _ _)) ht)
    (leaves_modIsl (by rfl)))) (leaves_modIsl (by rfl))

theorem leaves_senseCheck (s : State) (n : IslandNo) (x : Int) : Leaves Island.results s (s.senseCheck n x) n := by
  unfold State.senseCheck
  extract_lets i d tol blank nn off low high kl kh t
  have ht : Leaves Island.results s t n := leaves_modIsl (by rfl)
  exact leaves_ite _ .rfl (leaves_ite _ (ht.trans (leaves_anaDiag t n _ _ _)) (leaves_ite _ (ht.trans (leaves_anaDiag t n _ _ _)) ht))

theorem leaves_primary (s : State) (n : IslandNo) (r : AdcReady) : Leaves Island.results s (s.primary n r).1 n := by
  unfold State.primary
  extract_lets i c top x t t' _ y
  split
  · have ht : Leaves Island.results s t n := leaves_modIsl (by rfl)
    exact (leaves_ite _ (ht.trans (leaves_anaDiag t n _ _ _)) ht).trans (leaves_neClassify t' n x)
  · split
    · exact (leaves_modIsl (by rfl)).trans (leaves_senseCheck _ n y)
    · split
      · exact .rfl
      · exact .rfl

theorem leaves_leadResult (s : State) (n : IslandNo) (r : AdcReady) : Leaves Island.results s (s.leadResult n r) n := by
  unfold State.leadResult
  extract_lets i x t
  have ht : Leaves Island.results s t n := leaves_modIsl (by rfl)
  exact leaves_ite _ ((ht.trans (leaves_modIsl (by rfl))).trans (leaves_sendUpAs _ n _ _ _ _ _)) ht

/-- A LEAD result keeps the lead drop, a PRIMARY one gives its value (R165, R197). -/
def State.resultGives (s : State) (n : IslandNo) (r : AdcReady) (role : Nat) : State × Option (BitVec 16) :=
  let t := if role = 2 then s.leadResult n r else s
  if role = 1 then ((t.primary n r).1, some (t.primary n r).2) else (t, none)

theorem leaves_resultGives (s : State) (n : IslandNo) (r : AdcReady) (role : Nat) :
    Leaves Island.results s (s.resultGives n r role).1 n := by
  have hlead : Leaves Island.results s (if role = 2 then s.leadResult n r else s) n := leaves_ite _ (leaves_leadResult s n r) .rfl
  unfold State.resultGives
  dsimp only
  split
  · exact hlead.trans (leaves_primary _ n r)
  · exact hlead

/-- PRIMARY and DMA results leave as a cell unless 8 cells wait (R204). -/
def State.resultLeaves (s : State) (n : IslandNo) (wanted : Bool) (w : Word) (marks : BitVec 19) : State :=
  if !wanted then s
  else if 8 ≤ s.isl[n].up.countP (fun c => !c.sent) then s.modAdc n (fun a => { a with cskip := satAdd a.cskip 1 })
  else s.sendUpAs n (.result w) (.island n) 0 0 marks

theorem leaves_resultLeaves (s : State) (n : IslandNo) (wanted : Bool) (w : Word) (marks : BitVec 19) :
    Leaves Island.results s (s.resultLeaves n wanted w marks) n :=
  leaves_ite _ .rfl (leaves_ite _ (leaves_modIsl (by rfl)) (leaves_sendUpAs s n _ _ _ _ _))

/-- The state after a result has entered its slot, given its value, left as a cell and driven ADC_RES (R203, R204). -/
def State.resultWritten (s : State) (n : IslandNo) (r : AdcReady) : State :=
  let i := s.isl[n]
  let e := i.slotEntry r.slot
  let role := i.role r.slot
  let given := (s.slotWritten n r).resultGives n r role
  let t := given.1.resultLeaves n (decide (role = 1) || e.getLsbD 22) (resultWord r i.adc.refBad i.adc.round given.2) i.valueMarks
  if e.getLsbD 23 then t.sendLane (12 + t.itk) (.ind n (BitVec.ofNat 9 (0x070 + n.val)) none 3) else t

/-- Nothing that becomes of a result touches the slots again. -/
theorem leaves_resultWritten (s : State) (n : IslandNo) (r : AdcReady) : Leaves Island.results (s.slotWritten n r) (s.resultWritten n r) n := by
  unfold State.resultWritten
  extract_lets i e role given t
  have ht : Leaves Island.results (s.slotWritten n r) t n := (leaves_resultGives _ n r role).trans (leaves_resultLeaves given.1 n _ _ _)
  exact leaves_ite _ (ht.trans (leaves_sendLane t _ _)) ht

/-- A result that is due is written; the last one of a round counts it and drives ADC_ROUND, that of a group ADC_INJ (R203). -/
theorem exec_resultWrite_due (hc : s.clocked = true) (hd : s.isDue (.resultWrite n) = true) {r : AdcReady}
    (hr : s.isl[n].adc.ready = some r) : exec (.resultWrite n) s =
      let t := s.resultWritten n r
      .next (if r.last = 1 then
          (t.modAdc n (fun a => { a with round := a.round + 1 })).sendLane (12 + t.itk) (.ind n (BitVec.ofNat 9 (0x080 + n.val)) none 3)
        else if r.last = 2 then t.sendLane (12 + t.itk) (.ind n (BitVec.ofNat 9 (0x090 + n.val)) none 3)
        else t) := by
  rw [exec_resultWrite, execResultWrite, State.timed_on hc hd]
  dsimp only
  rw [show (s.settle (.resultWrite n)).isl[n].adc.ready = some r from hr]
  rfl

/-- A result that is due leaves the converter ready for the next one and its word in its slot. -/
theorem resultWrite_slots (hc : s.clocked = true) {r : AdcReady} (hd : s.isDue (.resultWrite n) = true)
    (hr : s.isl[n].adc.ready = some r) : Completes (.resultWrite n) s (fun u =>
      u.isl[n].adc.ready = none ∧
      u.isl[n].adc.slots = s.isl[n].adc.slots.set r.slot
        (slotWord s.isl[n].adc.slots[r.slot] r s.isl[n].adc.refBad s.isl[n].adc.round) ∧
      (r.last = 1 → u.isl[n].adc.round = s.isl[n].adc.round + 1 ∧
        (s.tick + BitVec.ofNat 64 (12 + s.itk), .ind n (BitVec.ofNat 9 (0x080 + n.val)) none 3) ∈ u.transit) ∧ IslandOnly s u n) := by
  let t := s.resultWritten n r
  obtain ⟨honly, hkept, -⟩ := leaves_resultWritten s n r
  simp only [Island.results, Prod.mk.injEq, State.slotWritten_adc] at hkept
  obtain ⟨hready, hslots, hround⟩ := hkept
  have ht : IslandOnly s t n := ((islandOnly_settle s _ n).trans (islandOnly_modAdc _ n _)).trans honly
  refine ⟨_, exec_resultWrite_due hc hd hr, ?_⟩
  by_cases hlast : r.last = 1
  · rw [if_pos hlast]
    have hadc := t.modAdc_adc n (fun a => { a with round := a.round + 1 })
    refine ⟨(congrArg Adc.ready hadc).trans hready, (congrArg Adc.slots hadc).trans hslots, fun _ => ⟨?_, ?_⟩, ?_⟩
    · exact (congrArg Adc.round hadc).trans (congrArg (· + 1) hround)
    · rw [← ht.tick, ← ht.itk]
      exact List.mem_append_right _ (List.mem_singleton_self _)
    · exact (ht.trans (islandOnly_modAdc t n _)).trans (islandOnly_sendLane _ _ _ n)
  · rw [if_neg hlast]
    obtain ⟨honly', hkept', -⟩ : Leaves Island.results t (if r.last = 2 then _ else t) n := leaves_ite _ (leaves_sendLane t _ _) .rfl
    simp only [Island.results, Prod.mk.injEq] at hkept'
    obtain ⟨hready', hslots', -⟩ := hkept'
    exact ⟨hready'.trans hready, hslots'.trans hslots, fun h => absurd h hlast, ht.trans honly'⟩

theorem resultWrite_writes (hc : s.clocked = true) (r : AdcReady) (hd : s.isDue (.resultWrite n) = true)
    (hr : s.isl[n].adc.ready = some r) : Completes (.resultWrite n) s (fun u =>
      u.isl[n].adc.ready = none ∧ u.isl[n].adc.slots[r.slot].getLsbD 31 = true ∧
      u.isl[n].adc.slots[r.slot].getLsbD 30 = s.isl[n].adc.slots[r.slot].getLsbD 31 ∧
      u.isl[n].adc.slots[r.slot].extractLsb' 0 18 = r.code ∧
      (∀ k, k ≠ r.slot → u.isl[n].adc.slots[k] = s.isl[n].adc.slots[k]) ∧
      (r.last = 1 → u.isl[n].adc.round = s.isl[n].adc.round + 1 ∧
        (s.tick + BitVec.ofNat 64 (12 + s.itk), .ind n (BitVec.ofNat 9 (0x080 + n.val)) none 3) ∈ u.transit) ∧ IslandOnly s u n) := by
  obtain ⟨u, hu, hready, hslots, hround, honly⟩ := resultWrite_slots hc hd hr
  obtain ⟨hnew, hovwr, hcode⟩ := slotWord_fields s.isl[n].adc.slots[r.slot] r s.isl[n].adc.refBad s.isl[n].adc.round
  have hat : u.isl[n].adc.slots[r.slot] = slotWord s.isl[n].adc.slots[r.slot] r s.isl[n].adc.refBad s.isl[n].adc.round := by
    rw [hslots]
    exact Vector.getElem_set_self _
  refine ⟨u, hu, hready, by rw [hat]; exact hnew, by rw [hat]; exact hovwr, by rw [hat]; exact hcode, fun k hk => ?_, hround, honly⟩
  rw [hslots]
  exact Vector.getElem_set_ne _ _ fun h => hk (Fin.ext h.symm)

theorem resultSlotRead_clears (hc : s.clocked = true) (k : Fin 20) (hr : s.running n = true) (hl : s.link.readq.length < 64) :
    Completes (.resultSlotRead .link n k) s (fun u =>
      u.isl[n].adc = { s.isl[n].adc with slots := s.isl[n].adc.slots.set k (s.isl[n].adc.slots[k] &&& 0x3FFFFFFF) } ∧
      (∀ m, m ≠ n → u.isl[m] = s.isl[m]) ∧
      u.link.readq = s.link.readq ++ [{ val := s.isl[n].adc.slots[k], err := false, wait := none }]) := by
  let t := s.modAdc n (fun a => { a with slots := a.slots.set k (clearSlot a.slots[k]) })
  have ht : t.isl[n].adc = { s.isl[n].adc with slots := s.isl[n].adc.slots.set k (s.isl[n].adc.slots[k] &&& 0x3FFFFFFF) } :=
    s.modAdc_adc n _
  have honly : IslandOnly s t n := islandOnly_modAdc s n _
  have hrun : exec (.resultSlotRead .link n k) s = .next (t.deliver .link s.isl[n].adc.slots[k]) := by
    rw [exec_resultSlotRead, execResultSlotRead, State.act_on _ hc]
    exact congrArg _ (if_pos hr)
  rw [State.deliver_link (s := t) hl] at hrun
  exact ⟨_, hrun, ht, honly.2, rfl⟩

/-! ### Rounds -/

/-- A round may start while the converter is sequenced by itself and none runs, on its trigger or once RPER has passed (R195, R202). -/
theorem State.mayRound_iff (s : State) (n : IslandNo) : s.mayRound n = true ↔
    s.isl[n].adcMode ≠ 0 ∧ s.isl[n].hold = false ∧ s.isl[n].haseq = false ∧ s.isl[n].adc.inRound = false ∧ s.isl[n].regSeq ≠ [] ∧
    (s.isl[n].triggered = true → s.isDue (.roundStart n) = true) ∧
    (s.isl[n].triggered = false → ∀ u, s.isl[n].adc.roundAt = some u → u + BitVec.ofNat 64 s.isl[n].rperTk ≤ s.tick) := by
  have hfrom : s.isl[n].roundFrom ≤ s.tick ↔ ∀ u, s.isl[n].adc.roundAt = some u → u + BitVec.ofNat 64 s.isl[n].rperTk ≤ s.tick := by
    unfold Island.roundFrom
    cases s.isl[n].adc.roundAt with
    | none => exact ⟨fun _ _ h => absurd h (by simp), fun _ => BitVec.le_def.2 (Nat.zero_le _)⟩
    | some t => simp
  rw [← hfrom]
  simp only [State.mayRound, Bool.and_eq_true, decide_eq_true_eq, Bool.not_eq_true', and_assoc]
  cases s.isl[n].triggered <;> simp

/-- Within a round, and with no calibration before it, the next entry is converted (R195). -/
theorem State.adcNext_inRound (hp : s.isl[n].adc.calPend = false) (hin : s.isl[n].adc.inRound = true) :
    s.adcNext n = ((s.roundGo n).modAdc n (fun a => { a with st := .regular })).adcKick n := by
  unfold State.adcNext
  dsimp only
  rw [if_neg (by rw [hp]; exact Bool.false_ne_true), if_pos hin]

theorem roundStart_begins (hc : s.clocked = true) (hm : s.mayRound n = true) (hst : s.isl[n].adc.st = .idle)
    (hcal : s.isl[n].adc.cal = false) (hp : s.isl[n].adc.calPend = false) : Completes (.roundStart n) s (fun u =>
      u.isl[n].adc = { s.isl[n].adc with
        inRound := true, roundNew := false, roundAt := some s.tick, cur := 0, done := 0, sum := 0, ovr := false, st := .regular } ∧
      IslandOnly s u n) := by
  let t := (s.settle (.roundStart n)).modAdc n (fun a =>
    { a with inRound := true, roundNew := true,
             cur := if a.st = .injected then a.cur else 0, done := if a.st = .injected then a.done else 0,
             sum := if a.st = .injected then a.sum else 0, ovr := if a.st = .injected then a.ovr else false,
             saved := if a.st = .injected then some (0, 0, 0, false, false) else a.saved })
  have ht : t.isl[n].adc = { s.isl[n].adc with
      inRound := true, roundNew := true, cur := 0, done := 0, sum := 0, ovr := false } := by
    have hno : ¬ s.isl[n].adc.st = .injected := by rw [hst]; decide
    rw [State.modAdc_adc, State.settle_isl]
    simp only [hno, if_false]
  let going := (t.roundGo n).modAdc n (fun a => { a with st := .regular })
  have hgo : exec (.roundStart n) s = .next (going.adcKick n) := by
    rw [← State.adcNext_inRound (s := t) (by rw [ht]; exact hp) (by rw [ht]), exec_roundStart, execRoundStart, State.act_on _ hc, hm]
    exact congrArg _ (if_neg (show ¬ (s.isl[n].adc.st = .injected ∨ s.isl[n].adc.cal = true) by rw [hst, hcal]; simp))
  have hadc : (going.adcKick n).isl[n].adc = { s.isl[n].adc with
      inRound := true, roundNew := false, roundAt := some s.tick, cur := 0, done := 0, sum := 0, ovr := false, st := .regular } := by
    rw [(going.owesMore_adcKick n).isl, State.modAdc_adc, State.roundGo, State.modAdc_adc, ht]
    rfl
  exact ⟨_, hgo, hadc, ((((islandOnly_settle s _ n).trans (islandOnly_modAdc _ n _)).trans (islandOnly_modAdc t n _)).trans
    (islandOnly_modAdc _ n _)).trans ((going.owesMore_adcKick n).islandOnly n)⟩

theorem roundStart_stands (hc : s.clocked = true) (hm : ¬ s.mayRound n = true) :
    Completes (.roundStart n) s (fun u => u = { s with due := u.due }) := by
  refine ⟨s.settle (.roundStart n), ?_, State.settle_eq ..⟩
  rw [exec_roundStart, execRoundStart, State.act_on _ hc]
  exact congrArg _ (if_pos (by simpa using hm))

end Converter

/-- The engine's time of a PRIMARY result that it maps (R178, R190). -/
theorem Island.trimTk_eq (i : Island) (k : Fin 20) : i.trimTk k = 4 + if i.pers.anaIn = true ∧ i.role k = 1 ∧ i.rungs.char = 1 then
    (if i.chMode = 1 then 8 else if i.chMode = 2 then 16 else if i.chMode = 3 then 12 else 0) else 0 := by
  have hmode (m : Nat) : (if m ≠ 0 then Machine.engineTk m else 0) = if m = 1 then 8 else if m = 2 then 16 else if m = 3 then 12 else 0 := by
    rcases m with _ | _ | _ | _ | m <;> rfl
  simp only [Island.trimTk, Island.engineTk, Island.engineOn, Bool.and_eq_true, decide_eq_true_eq, ← hmode, ← and_assoc]
  by_cases hrole : i.pers.anaIn = true ∧ i.role k = 1 <;> by_cases hchar : i.rungs.char = 1 <;> simp [hrole, hchar]

/-- A code that is limited to 18 bits. -/
theorem toInt_code18 (x : Int) : (code18 x).toInt = max (-131072) (min 131071 x) := by
  rw [code18, BitVec.toInt_ofInt, clampInt]
  exact Int.bmod_eq_of_le (by omega) (by omega)

theorem Island.entrySum_eq (i : Island) (code : BitVec 18) :
    i.entrySum code = i.adc.sum + max (-131072) (min 131071 (code.toInt - i.adc.zero)) := by
  rw [Island.entrySum, toInt_code18]

/-- A regular entry has the slot of its number (R203). -/
theorem Island.entrySlot_regular {i : Island} (h : i.adc.st = .regular) : i.entrySlot = Fin.ofNat 20 i.adc.cur.toNat := by
  rw [Island.entrySlot, h]
  rfl

/-- Settles O28: conversions by the lemma about their end, results by the word of their slot, rounds by what lets them start. -/
theorem conversionsAndResults : Obligations.ConversionsAndResults := by
  intro s n hc i a acq tk ends convs engine may
  have hends : ends ↔ s.convEnds n := by
    rw [State.convEnds, Island.convTk_eq]
  have hmay : s.mayRound n = true ↔ may := s.mayRound_iff n
  refine ⟨conversionStart_begins hc, fun code ovr tb lim he hcal hst hdone => ?_, fun code ovr tb lim he hcal hst hdone => ?_,
    fun code ovr tb lim he => conversionEnd_early (mt hends.2 he) code _ tb,
    fun code ovr lim he hp ho => conversionEnd_tbOpen hc (hends.1 he) code _ hp ho, resultWrite_writes hc,
    fun hm hst hcal hp => roundStart_begins hc (hmay.2 hm) hst hcal hp, fun hm => roundStart_stands hc (mt hmay.1 hm),
    resultSlotRead_clears hc⟩
  · rw [← Island.entrySum_eq]
    exact conversionEnd_joins hc (hends.1 he) code ⟨ovr, lim⟩ tb hcal hst hdone
  · obtain ⟨u, hu, hready, howed, honly⟩ := conversionEnd_ready hc (hends.1 he) code ⟨ovr, lim⟩ tb hcal hst hdone
    have hslot : i.entrySlot = Fin.ofNat 20 a.cur.toNat := Island.entrySlot_regular hst
    have hval : (i.entryResult code ovr).slot.val = a.cur.toNat :=
      (congrArg Fin.val hslot).trans (Nat.mod_eq_of_lt (lt_trans a.cur.isLt (by decide)))
    rw [hslot, Island.trimTk_eq] at howed
    rw [← Island.entrySum_eq]
    exact ⟨u, hu, ⟨_, hready, hval, rfl, rfl⟩, howed, honly⟩

end Sys2Proof.Machine
